-- ==== Sys2Proof/Word.lean ====
section
/-! DEFINITION. The word types of the block: registers are 32 bits wide (R3), frames and castings are bytes. -/

namespace Sys2Proof

/-- A register value. -/
abbrev Word := BitVec 32

/-- A byte of a frame, a casting or the backup domain. -/
abbrev Byte := BitVec 8

/-- A run of bytes, first byte at the lowest offset (R9: multi-byte fields are little-endian). -/
abbrev Bytes := List Byte

end Sys2Proof
end

