-- ==== Sys2Proof/Syntax.lean ====
section
/-! DEFINITION. The commands of the block: one constructor of `Instr` per row of spec/opcode_table.json, and the
operand types they carry (who sends a register access, what a frame says). -/

namespace Sys2Proof

/-! Data that frames between the modules of a pair carry, and that the state holds (spec/04, spec/06 to spec/08, spec/10). -/

namespace Machine

/-- A table keyed by number, in rising order of key; a key that is not listed holds the default record. -/
abbrev Table (α : Type) := List (Nat × α)

/-- A dyadic number m * 2^e: the exact value of an IEEE single, of a fixed-point word, of a product of them. -/
structure Dy where
  m : Int := 0
  e : Int := 0
deriving DecidableEq, Repr

/-- A casting record (R56): type without its skip bit handling, index, flags, body, offset from the slot start. -/
structure Rec where
  rtype : Nat
  index : Nat
  flags : Nat := 0
  body : Bytes
  ofs : Nat := 0
deriving DecidableEq, Repr

/-- A casting section in use (R54): type, record version, records. -/
structure Sect where
  stype : Nat
  recVer : Nat := 1
  recs : List Rec
  ofs : Nat := 0
deriving DecidableEq, Repr

/-- A host series record in the store (R107, R108). `scen` none means ALL_SCEN. -/
structure HostRec where
  series : Nat
  scen : Option Nat
  start : Nat
  hseq : Nat
  values : List Word
  commitEpoch : Nat
  commitNs : Nat
deriving DecidableEq, Repr

/-- The parameters of a substation as the device holds them (R120 to R125): the values that differ from the casting, by
parameter word index, in the set in use, in the estimate and in the pending set; overrides; predicted state (R103). -/
structure SubParams where
  gen : Nat := 0
  inUse : Table Word := []
  est : Table Word := []
  overrides : Table Word := []
  pending : Option (Table Word) := none
  /-- The set that the refresh ladle of this cycle carries, until its factor is installed or abandoned. -/
  building : Option (Table Word) := none
  predicted : Option (List Dy) := none
  /-- The measured state at the last horizon step boundary, when it was fresh telemetry (R120). -/
  lastFresh : Option (List Dy) := none
  /-- The input and the disturbance of the step that began there, and the covariance of the least squares (R120). -/
  lastU : List Dy := []
  lastD : List Dy := []
  cov : List Int := []
deriving DecidableEq, Repr

/-- A substation block of a plan record (R167). -/
structure SubBlock where
  sub : Nat
  flags : Nat := 0
  steps : Nat := 0
  paramGen : Nat := 0
  words : List Word := []
deriving DecidableEq, Repr

/-- A plan record (R166, R167); its CRC is computed where it is read. -/
structure PlanRec where
  code : Nat := 0
  cause : Nat := 0
  flags : Nat := 0
  seq : Nat := 0
  openEpoch : Nat := 0
  /-- None reads all ones. -/
  srcEpoch : Option Nat := none
  t0 : Nat := 0
  srcT0 : Nat := 0
  holdEnd : Nat := 0
  stepMin : Nat := 0
  n : Nat := 0
  castSeq : Nat := 0
  points : List (List Word) := []
  subs : List SubBlock := []
deriving DecidableEq, Repr

/-- A loop slot (R201 to R214): law state, setpoints, the values of its latest evaluation, its status. -/
structure Slot where
  level : Nat := 0
  /-- Evaluations since the last level change (R202). -/
  dwell : Nat := 0
  /-- Evaluations since epoch 0, as far as R203 and R204 need them (at most 2). -/
  evals : Nat := 0
  /-- y_prev (R207), and whether the slew step is skipped at the first evaluation. -/
  yPrev : Word := 0
  skipSlew : Bool := true
  /-- The setpoint of the writer (R211), and those in use at the latest evaluation and the one before it. -/
  sp : Word := 0
  sp1 : Word := 0
  sp2 : Word := 0
  /-- Quantities of R200 of the latest evaluation. -/
  spUsed : Word := 0
  pv : Word := 0
  out : Word := 0
  err : Word := 0
  ff : Word := 0
  /-- The hand value commanded, within its limits; HAND as the latest tick found it (R214). -/
  handCmd : Option Word := none
  hand : Bool := false
  /-- Injection, shed and driver override at the latest evaluation (R221). -/
  inj : Bool := false
  shed : Bool := false
  drvOvr : Bool := false
  pvFault : Bool := false
  nonfin : Bool := false
  limHi : Bool := false
  limLo : Bool := false
  slew : Bool := false
  dwellHeld : Bool := false
  supClamp : Bool := false
deriving DecidableEq, Repr

/-- A tag's value (R231): value word, the elapsed time of a timer in us, its last IN (and the second input of a CTUD), the logic clock of its last
execution, and whether an edge detector stores its input first (R241). -/
structure TagVal where
  word : Word := 0
  et : Nat := 0
  inp : Bool := false
  inp2 : Bool := false
  last : Nat := 0
  fresh : Bool := false
deriving DecidableEq, Repr

/-- A force (R234, R235): tag identifier and value word. -/
structure Force where
  tag : Nat
  val : Word
deriving DecidableEq, Repr

/-- A fan or pump driver (R285 to R292). -/
structure FanDrv where
  /-- State of R290; 7 is UNUSED. -/
  st : Nat := 7
  attempt : Nat := 0
  retry : Bool := false
  /-- Duty, last finite writer request, request r. -/
  duty : Word := 0
  rw : Word := 0
  req : Word := 0
  /-- The instant the state was entered. -/
  since : Nat := 0
  /-- Tachometer: last count seen and the instant of the last advance; speed in rpm. -/
  seenCount : Nat := 0
  seenAt : Nat := 0
  rpm : Word := 0
  /-- Since when the speed has been above 0 and below MIN_RPM, and at or above MIN_RPM. -/
  lowSince : Option Nat := none
  okSince : Option Nat := none
  /-- Stretched supply switching (R289): periods since the last stretch, on-time owed in ns, the latest window. -/
  periods : Nat := 0
  owed : Nat := 0
  window : Option (Nat × Nat) := none
  band : Bool := false
  minLim : Bool := false
  maxLim : Bool := false
  tempFlt : Bool := false
  ramp : Bool := false
  stallSeen : Bool := false
  tachSeen : Bool := false
  stalls : Nat := 0
  losses : Nat := 0
deriving DecidableEq, Repr

end Machine

/-- Where a transaction comes from (R34, R41). The order of the constructors is the fixed sequence of R41. -/
inductive Source where
  | dp | yra | yml | dbg
deriving DecidableEq, Repr

/-- The roles of R433; `nobody` is the role NONE. -/
inductive Role where
  | owner | integrator | operator | service | vendor | nobody
deriving DecidableEq, Repr

/-- The requester of a register access: its source, its role, for how many ns its transaction stays open (R34), and the number of its
session (0 outside a session). -/
structure Who where
  src : Source
  role : Role
  dur : Nat := 0
  session : Nat := 0
deriving DecidableEq, Repr

/-- One register access of a transaction, addresses already formed from the descriptors (R384, R541). -/
inductive Access where
  | rd (addr : Nat)
  | wr (addr : Nat) (val : Word)
deriving DecidableEq, Repr

/-- What the logic program does in a cycle, in order (log entry 24: the instruction set is the Planner's): a value tag
written, a function block of R231 executed with its inputs, a result of R229 whose fault the engine finds: an exact integer,
a quotient or remainder by a divisor, an element of an array read or written by its index, a REAL; `fault` is that of a result
that goes into no tag. Tags are given by tag slot. -/
inductive LogicOp where
  | write (slot : Nat) (value : Word)
  | ton (slot : Nat) (input : Bool) (ptUs : Nat)
  | tof (slot : Nat) (input : Bool) (ptUs : Nat)
  | tp (slot : Nat) (input : Bool) (ptUs : Nat)
  | ctu (slot : Nat) (up reset : Bool)
  | ctd (slot : Nat) (down load : Bool) (pv : Word)
  | ctud (slot : Nat) (up down reset load : Bool) (pv : Word)
  | rTrig (slot : Nat) (input : Bool)
  | fTrig (slot : Nat) (input : Bool)
  | intResult (network slot : Nat) (exact : Int)
  | quotient (network slot : Nat) (divisor exact : Int)
  | arrayRead (network slot len : Nat) (index : Int) (element : Word)
  | arrayWrite (network len : Nat) (index : Int) (slot : Nat) (value : Word)
  | realResult (network slot : Nat) (value : Word)
  | fault (network code : Nat)
deriving DecidableEq, Repr

/-- The sums of a group's samples over a reference period in primary units (R302): samples, and in millionths per phase
A, B, C the sums of v·i, v′·i, v², then of i² for A, B, C, N, of the squared residual current, the peaks of the current
inputs at the pin in µV, and whether VA showed a valid period. -/
structure PeriodSums where
  n : Nat
  vi : List Int
  qi : List Int
  vv : List Nat
  ii : List Nat
  residual : Nat
  peaks : List Nat := []
  vaValid : Bool := true
deriving DecidableEq, Repr

/-- A heartbeat frame (R337): NCLAIM, pair state, mode code, health word, STALE. -/
structure Heartbeat where
  nclaim : Nat
  pstate : Nat
  mode : Nat
  health : Nat
  stale : Bool
deriving DecidableEq, Repr

/-- A committed write that a COMMIT frame carries (R48): source, role, address, value, transaction. -/
structure CommitWrite where
  txn : Nat
  src : Source
  role : Role
  addr : Nat
  val : Word
deriving DecidableEq, Repr

/-- The resynchronisation image of R342: what the active unit held at an epoch boundary. `regs` are mirrored registers. -/
structure BulkImage where
  epoch : Nat
  regs : List (Nat × Word)
  record : Option Machine.PlanRec
  lastValid : Option Machine.PlanRec
  params : Machine.Table Machine.SubParams
  queue : List (Nat × Nat)
  history : Machine.Table (Machine.Table Machine.Dy)
  dayValues : Machine.Table (Machine.Table Word)
  host : List Machine.HostRec
  excluded : List Nat
  causes : Nat
  recover : Nat
  shiftRun : Nat
  island : Bool
  shed : List Nat
  slots : Machine.Table Machine.Slot
  drivers : Machine.Table Machine.FanDrv
  tags : Machine.Table Machine.TagVal
  forces : List Machine.Force
  generation : Nat
deriving DecidableEq, Repr

/-- An item of output comparison (R356): kind 0 loop slot, 1 output channel, 2 driver; its number; the active unit's value. -/
structure CmpItem where
  kind : Nat
  index : Nat
  value : Word
deriving DecidableEq, Repr

/-- A frame on an Ethernet port (R363 to R367): bytes, FCS and length good, VLAN identifier if tagged, class (0 IP, 1 YSP, 2 PTP), the
PRP trailer if it carries one (source address, sequence number, LAN identifier right), and, of a fragment of a datagram, the
datagram's number, whether it is the last one missing, and the bytes of UDP payload so far. -/
structure EthFrame where
  len : Nat
  ok : Bool := true
  vid : Option Nat := none
  cls : Nat
  prp : Option (Nat × Nat × Bool) := none
  frag : Option (Nat × Bool × Nat) := none
deriving DecidableEq, Repr

/-- A TELEMETRY frame (R385 to R389): header fields, whether the GCM tag verifies, body fields, entries (FIELD, QUAL, VALUE). -/
structure TelFrame where
  addr : Nat
  ver : Nat
  sub : Nat
  nclaim : Nat
  fcnt : Nat
  len : Nat
  tagOk : Bool
  echo : Nat
  state : Nat
  count : Nat
  entries : List (Nat × Nat × Word)
deriving DecidableEq, Repr

/-- A frame on a CAN bus (R393, R399): identifier, format, data; `destroyed` when an error flag destroyed it after the arbitration
field and before the CRC delimiter (R405). -/
structure CanFrame where
  id : Nat
  extended : Bool := false
  remote : Bool := false
  fd : Bool := false
  brs : Bool := false
  esi : Bool := false
  data : Bytes := []
  destroyed : Bool := false
deriving DecidableEq, Repr

/-- A signed command as it is written into the window (R446): SERIAL, CMD_SEQ, body, signature. -/
structure SignedCmd where
  serial : Nat
  seq : Nat
  body : Bytes := []
  sig : Bytes := []
deriving DecidableEq, Repr

/-- One constructor per row of spec/opcode_table.json, in the table's order; the table gives no row an encoding. -/
inductive Instr where
  /-- EPOCH_BOUNDARY (R32): The epoch timer reaches a boundary; the counter advances by 1, staging for the new epoch closes and the coupler starts the pour. -/
  | epochBoundary
  /-- POUR_COMPLETE (R28): The coupler finishes preparing the bank and makes it the published bank in one atomic step. -/
  | pourComplete
  /-- LIVENESS_STAGE (R17): The data plane stages its liveness word for the coming epoch. -/
  | livenessStage
  /-- DP_ABSENT (R17): After 3 consecutive epochs without liveness, the coupler marks the data plane absent and the control plane runs as in DEGRADED. -/
  | dpAbsent
  /-- REGISTER_WRITE (R37): A write to a register that has no row of its own is checked and staged, applied immediately, or ignored and counted. -/
  | registerWrite (w : Who) (addr : Nat) (v : Word)
  /-- CRYSTAL_LOSS (R22): No crystal edge arrives for 2 µs; the control-plane reference moves to the on-die oscillator and the clocks that need the crystal stop. -/
  | crystalLoss
  /-- EPC_CLR_STATS (R37): EPC_CTRL.CLR_STATS clears the epoch statistics at the next boundary. -/
  | epcClrStats (w : Who)
  /-- BOOT_START (R479): 50 µs after the last reset source is released, BOOT starts: the strap is read and the images are verified and measured. -/
  | bootStart (ratio : Nat)
  /-- BOOT_END (R495): BOOT completes: keys are derived and the device enters LOAD, or SAFEHOLD on failure or MAINT. -/
  | bootEnd (imagesOk rsOk settingsOk : Bool)
  /-- LOAD_COMPLETE (R79): The sections that passed are installed and epoch 0 is poured with the fallback plan record; the run mode or STANDBY is entered. -/
  | loadComplete
  /-- OPENING_EPOCH (R25): The epoch counter reaches a positive multiple of P, and a plan cycle opens. -/
  | openingEpoch
  /-- LADLE_READY (R117): The assembler completes a ladle and marks it ready. -/
  | ladleReady
  /-- HORIZON_STEP_BOUNDARY (R120): A horizon step boundary passes; predictions advance, identification updates and the persistence history is extended. -/
  | horizonStepBoundary
  /-- SERIES_SUBMIT (R108): ASM_IN_CTRL.SUBMIT: the series record in the window is checked at commit and stored or refused. -/
  | seriesSubmit (w : Who) (words : List Word)
  /-- REFRESH_ALL (R121): ASM_CTRL.REFRESH_ALL requests a refresh of every substation. -/
  | refreshAll (w : Who) (hold : Bool)
  /-- IDENT_HOLD (R120): ASM_CTRL.IDENT_HOLD holds or resumes identification of all substations. -/
  | identHold (w : Who) (hold : Bool)
  /-- ASM_CLR_STATS (R116): ASM_CTRL.CLR_STATS clears ASM_SAT, ASM_SRC_FAULT and ASM_IN_COLLIDE. -/
  | asmClrStats (w : Who) (hold : Bool)
  /-- ASM_RELEASE (R124): ASM_CTRL.RELEASE releases every override of the selected substation and requests a refresh. -/
  | asmRelease (w : Who) (hold : Bool)
  /-- PARAM_OVERRIDE (R124): A write to ASM_PARAM_OVR replaces the parameter in use, holds identification and requests a refresh. -/
  | paramOverride (w : Who) (v : Word)
  /-- PARAM_SAVE (R125): Every SAVE_MIN minutes the identified parameter sets are saved with the casting digest. -/
  | paramSave
  /-- KNOWN_ANSWER_TEST (R163): PLL start and known-answer tests complete; faulty or worn crucibles are retired and their lanes moved to reserves. -/
  | knownAnswerTest (bad : List Nat)
  /-- ENTRY_START (R151): A timetable entry starts once its lane, barrier, ladle and INIT conditions hold. -/
  | entryStart (l : Nat)
  /-- ENTRY_END (R151): A timetable entry ends; its barrier, its pass or its round may complete. -/
  | entryEnd (l ce : Nat)
  /-- SOLVE_DEADLINE (R158): The solve deadline arrives; entries in flight are abandoned and the outcome is decided from the last complete round. -/
  | solveDeadline
  /-- CRUCIBLE_FAULT (R164): A residue mismatch or an uncorrectable ECC error stops the pass; the crucible is retired and the pass restarts. -/
  | crucibleFault (l : Nat) (ecc : Bool) (bad : List Nat)
  /-- COLD_NEXT (R156): SLV_CTRL.COLD_NEXT makes the next cycle that reaches the rounds cold-start every problem. -/
  | coldNext (w : Who)
  /-- SLV_CLR_STATS (R156): SLV_CTRL.CLR_STATS clears the solver counters. -/
  | slvClrStats (w : Who)
  /-- HOLD_END (R178): The first boundary at or after HOLD_END passes; points take their schedules and substations receive STEPS 0. -/
  | holdEnd
  /-- GRID_LOSS_CONFIRM (R188): Phase voltage or TRIP_TAG has indicated loss for LOSS_MS; grid loss is confirmed, or GRID_ALARM is set without a usable ISLAND section. -/
  | gridLossConfirm
  /-- ISLAND_ENTER (R189): At the first boundary after confirmed loss, the device enters ISLAND, sheds AT_ENTRY groups and moves points to critical schedules. -/
  | islandEnter
  /-- GRID_RESTORE (R188): Every enabled detector has been healthy for RESTORE_S, and the grid counts as restored. -/
  | gridRestore
  /-- ISLAND_LEAVE (R191): At the next boundary after restoration, the device leaves ISLAND and begins restoring shed groups. -/
  | islandLeave
  /-- GROUP_RESTORE (R191): STAGGER_MS expires and the next shed group is restored in descending order, with SHED FRACTION 1.0 sent. -/
  | groupRestore
  /-- ISL_CMD_ENTER (R192): PLN_CTRL.ISL_CMD 1 enters ISLAND as at a confirmed loss and holds it. -/
  | islCmdEnter (w : Who)
  /-- ISL_CMD_LEAVE (R192): PLN_CTRL.ISL_CMD 2 ends a commanded ISLAND unless loss is confirmed. -/
  | islCmdLeave (w : Who)
  /-- PLN_CLR_STATS (R168): PLN_CTRL.CLR_STATS clears PLN_SAT and PLN_LIMIT. -/
  | plnClrStats (w : Who)
  /-- LOOP_TICK (R195): A 1 kHz tick latches all sources and evaluates the slots due. -/
  | loopTick (us : Nat)
  /-- OUTPUT_INSTANT (R195): 500 µs into the tick, the outputs of all evaluated slots are applied together. -/
  | outputInstant
  /-- SETPOINT_WRITE (R211): A host write of LPE_SP sets the setpoint of a slot whose only writer is the host, and is dropped otherwise. -/
  | setpointWrite (w : Who) (n : Nat) (v : Word)
  /-- HAND (R214): LPE_HAND_CTRL CMD 1 puts the selected slot in HAND in COMMISSION. -/
  | lpeHand (w : Who)
  /-- AUTO (R214): LPE_HAND_CTRL CMD 2 returns the selected slot to AUTO. -/
  | lpeAuto (w : Who)
  /-- AUTO_ALL (R214): LPE_HAND_CTRL CMD 3 returns every slot to AUTO. -/
  | lpeAutoAll (w : Who)
  /-- LPE_HAND_VALUE (R214): A write of LPE_HAND_VAL sets the hand output, applied at the next output instant; a non-finite value is ignored. -/
  | lpeHandValue (w : Who) (v : Word)
  /-- ARM (R215): LPE_INJ_CTRL.ARM starts an injection on the configured slot, or is ignored when a condition fails. -/
  | injArm (w : Who)
  /-- INJ_ABORT (R220): LPE_INJ_CTRL.ABORT aborts the running injection with cause HOST. -/
  | injAbort (w : Who)
  /-- PRE_SAMPLES_DONE (R215): PRE undisturbed evaluations have been recorded and injection begins. -/
  | preSamplesDone
  /-- INJECTION_DONE (R215): The injection reaches its length and the state becomes DONE. -/
  | injectionDone
  /-- LPE_CLR_STATS (R209): LPE_CTRL.CLR_STATS clears LPE_NONFIN, LPE_PVFAULT and EVAL_MAX. -/
  | lpeClrStats (w : Who)
  /-- LOGIC_CYCLE (R223): MIN_GAP_US after the previous cycle, a cycle runs its input, execution and output phases. -/
  | logicCycle (us : Nat) (ops : List LogicOp)
  /-- LOGIC_WATCHDOG (R228): A cycle still running 4 × CYCLE_MAX_US after its start is aborted, and the engine halts with outputs at their HALT action. -/
  | logicWatchdog (net : Nat)
  /-- RESTART (R228): LGC_CTRL.RESTART restarts a halted engine from the held tag values. -/
  | lgcRestart (w : Who)
  /-- FORCE_SET (R235): LGC_FORCE_CMD SET forces a tag to a value, checked for tag, forceability, limits, count and role. -/
  | forceSet (w : Who) (tag : Nat) (v : Word)
  /-- FORCE_REMOVE (R235): LGC_FORCE_CMD REMOVE removes the force on a tag. -/
  | forceRemove (w : Who) (tag : Nat)
  /-- FORCE_REMOVE_ALL (R235): LGC_FORCE_CMD REMOVE_ALL removes every force that the role may make. -/
  | forceRemoveAll (w : Who)
  /-- HOST_TAG_WRITE (R246): A committed LGC_TWR pair writes its tag at the next input phase and is then cleared. -/
  | hostTagWrite (w : Who) (k tag : Nat) (v : Word)
  /-- LGC_CLR_STATS (R227): LGC_CTRL.CLR_STATS clears the logic counters. -/
  | lgcClrStats (w : Who)
  /-- ONLINE_CHANGE_CHECK (R239): A new casting is offered as an on-line change and checked; the change epoch is named, or the change is refused. -/
  | onlineChangeCheck
  /-- CHANGE_EPOCH (R240): At E_c the new program is installed; tags are carried or reset and forces survive or are removed. -/
  | changeEpoch
  /-- PASS_START (R261): A group's pass starts and runs its due entries in channel order, or is skipped when the previous pass is still running. -/
  | passStart (g : Nat) (samples : List (Nat × Nat × Int × Bool))
  /-- START (R262): FCH_CMD.START requests one entry for the channel, queued or merged. -/
  | fchStart (w : Who) (n : Nat)
  /-- URGENT (R262): FCH_CMD.URGENT requests an urgent entry that pre-empts the running entry. -/
  | fchUrgent (w : Who) (n : Nat)
  /-- FCH_HAND (R277): FCH_CMD.HAND places the output in hand at once in COMMISSION. -/
  | fchHand (w : Who) (n : Nat)
  /-- FCH_AUTO (R277): FCH_CMD.AUTO ends hand on the channel. -/
  | fchAuto (w : Who) (n : Nat)
  /-- FLT_RESET (R273): FCH_CMD.FLT_RESET releases a latched-off stage. -/
  | fltReset (w : Who) (n : Nat)
  /-- FCH_HAND_VALUE (R277): A write of FCH_HAND_VAL sets the hand value; a non-finite value is ignored. -/
  | fchHandValue (w : Who) (n : Nat) (v : Word)
  /-- SLICE_HANDOVER (R264): Every ROT_MS, the longest-idle calibration slice takes the next group and the released slice starts a calibration visit. -/
  | sliceHandover
  /-- CALIBRATION_VISIT_END (R264): A slice completes its visit, sets its coefficients and becomes a calibration slice, or is retired on failure. -/
  | calibrationVisitEnd (k : Nat) (zeroSum refSum midSum zeroSquares : Int)
  /-- SLICE_STUCK (R269): A conversion does not complete in 3 µs; the slice is retired and its group is taken over within 5 µs. -/
  | sliceStuck (k : Nat)
  /-- CAL_ZERO (R266): FCH_CAL_CMD.CAL_ZERO starts the zero average of system calibration. -/
  | calZero (w : Who) (n : Nat)
  /-- CAL_SPAN (R266): FCH_CAL_CMD.CAL_SPAN starts the span average. -/
  | calSpan (w : Who) (n : Nat)
  /-- CAL_AVERAGE_DONE (R266): 256 values have been averaged into m_z or m_s, and after the span the candidate is computed. -/
  | calAverageDone (n : Nat)
  /-- CAL_ACCEPT (R266): FCH_CAL_CMD.CAL_ACCEPT installs the candidate and stores it in the settings. -/
  | calAccept (w : Who) (n : Nat)
  /-- CAL_DISCARD (R266): FCH_CAL_CMD.CAL_DISCARD abandons the candidate. -/
  | calDiscard (w : Who) (n : Nat)
  /-- CAL_FACTORY (R266): FCH_CAL_CMD.CAL_FACTORY removes stored system coefficients and sets UNCAL. -/
  | calFactory (w : Who) (n : Nat)
  /-- OUTPUT_FAULT_TIMER (R271): A current limit held for 10 ms, or an open load or compliance held for 100 ms, raises the output fault. -/
  | outputFaultTimer (n : Nat) (openLoad on : Bool)
  /-- STAGE_TRIP (R273): A DOUT or PWM stage trips and switches off; a third trip within 10 s latches it off. -/
  | stageTrip (n : Nat)
  /-- TRIP_RETRY (R273): 100 ms after a trip the stage is retried. -/
  | tripRetry (n : Nat)
  /-- SHUNT_OPEN (R249): After 1 ms above 30 mA the IIN shunt opens and OVERLOAD is raised. -/
  | shuntOpen (n : Nat)
  /-- SHUNT_RETRY (R273): An opened IIN shunt is retried every 1 s. -/
  | shuntRetry (n : Nat)
  /-- VFLD_LOW (R279): VFLD falls below 16.0 V; the VFLD stages switch off, their channels raise NO_VFLD, and the event is journalled. -/
  | vfldLow (mv : Nat)
  /-- VFLD_RESTORED (R279): VFLD rises above 17.0 V and the stages return. -/
  | vfldRestored (mv : Nat)
  /-- FCH_CLR_STATS (R261): FCH_CTRL.CLR_STATS clears FCH_PASS_SKIP, FCH_REQ_DROP and every FCH_FLT_CNT. -/
  | fchClrStats (w : Who)
  /-- KICK_END (R290): A kick of KICK_MS ends and is judged on its last 500 ms: RUN, RETRY_WAIT or STALL. -/
  | kickEnd (d : Nat)
  /-- RETRY_WAIT_END (R291): 5 s in RETRY_WAIT elapse and the driver kicks again. -/
  | retryWaitEnd (d : Nat)
  /-- TACH_LOSS (R291): In RUN with d > 0, no tachometer edge for 2 s moves the driver to TACH_LOST at BLIND_DUTY. -/
  | tachLoss (d : Nat)
  /-- LOW_SPEED_REKICK (R291): Speed above 0 but below MIN_RPM for 5 s makes the driver kick again. -/
  | lowSpeedRekick (d : Nat)
  /-- TACH_RECOVERY (R291): Speed at or above MIN_RPM for 1 s returns the driver from TACH_LOST to RUN. -/
  | tachRecovery (d : Nat)
  /-- STALL_RETRY (R291): STALL_RETRY_S elapse in STALL with r > 0, and a retry kick starts. -/
  | stallRetry (d : Nat)
  /-- FAN_RESTART (R293): FAN_RESTART starts a full kick sequence for a driver in STALL, or is ignored elsewhere. -/
  | fanRestart (w : Who) (map : Word)
  /-- FAN_CLR_STATS (R291): FAN_CTRL.CLR_STATS clears the counts in every FAN_SPEED. -/
  | fanClrStats (w : Who)
  /-- REFERENCE_PERIOD_END (R302): A positive zero crossing closes a group's period; energy, rms and frequency are computed and accumulated by sign. -/
  | referencePeriodEnd (g : Nat) (p : PeriodSums)
  /-- REFERENCE_SWITCH (R301): The reference voltage shows no crossing for 25 ms and the reference passes to the next phase. -/
  | referenceSwitch (g : Nat)
  /-- FORCED_PERIOD_CLOSE (R301): With no phase crossing zero, a period is closed every 320 samples and NO_REF is set. -/
  | forcedPeriodClose (g : Nat) (p : PeriodSums)
  /-- GAIN_CHANGE (R306): A current input changes gain, and the seam samples are interpolated. -/
  | gainChange (g k : Nat) (up : Bool)
  /-- HEAT_SAMPLE (R309): Every 100 ms a virtual meter computes volume and energy and accumulates them by sign. -/
  | heatSample (m : Nat)
  /-- INTERVAL_CLOSE (R313): An interval boundary passes and the unit's interval record is closed for the next save. -/
  | intervalClose (kind unit : Nat)
  /-- PERIODIC_CAPTURE (R317): At the first boundary 500 ms or more after the last capture, the accumulator file and closed intervals are saved to FRAM. -/
  | periodicCapture (us fails : Nat)
  /-- CLEAR_GROUP (R323): NRG_CLEAR TARGET 0 from Owner clears one group's accumulators after journalling them. -/
  | clearGroup (w : Who) (g confirm : Nat)
  /-- CLEAR_METER (R323): NRG_CLEAR TARGET 1 clears one meter's accumulators. -/
  | clearMeter (w : Who) (m confirm : Nat)
  /-- CLEAR_ALL (R323): NRG_CLEAR TARGET 2 clears every accumulator. -/
  | clearAll (w : Who) (confirm : Nat)
  /-- UNS_ACK (R321): NRG_CTRL.UNS_ACK acknowledges the unsaved interval. -/
  | unsAck (w : Who)
  /-- NRG_CLR_STATS (R319): NRG_CTRL.CLR_STATS clears NRG_SAVE_FAIL, MAX_US and the seam counts. -/
  | nrgClrStats (w : Who)
  /-- PARTNER_CODE_CHANGE (R327): The partner's claim word has been stable for 200 ns and is accepted, or is flagged as a claim-pin fault. -/
  | partnerCodeChange (code : Nat) (parity : Bool)
  /-- GATE_OPEN (R328): 3 µs after the comparison holds, or 8 µs after KILL_OUT with SEIZE, the gate opens and the stages drive. -/
  | gateOpen (gapNs : Nat)
  /-- WATCHDOG_FIRE (R334): The pair watchdog fires; the claim code falls to NONE within 5 µs and the heartbeats stop. -/
  | watchdogFire (cause : Nat)
  /-- WATCHDOG_RESET (R482): 1 ms after a watchdog fire not caused by a warning or a reset, a warm reset with cause WATCHDOG is asserted. -/
  | watchdogReset
  /-- HEARTBEAT_SEND (R335): A heartbeat frame is sent on the coupling link every 4 µs. -/
  | heartbeatSend
  /-- HEARTBEAT_FRAME (R336): A heartbeat frame from the partner updates its code, state, health and generation. -/
  | heartbeatFrame (ok : Bool) (h : Heartbeat)
  /-- HB_PATH_LOST (R336): HBI shows no edge for 5 µs and the HB path is lost. -/
  | hbPathLost
  /-- LINK_PATH_LOST (R336): No valid heartbeat frame for 12 µs; the link path is lost and STALE is set in READY. -/
  | linkPathLost
  /-- PATH_RESTORED (R336): After 1 ms of valid heartbeats a path is restored. -/
  | pathRestored (hb : Bool)
  /-- KILL_IN_ENERGISED (R348): KILL_IN is energised; the output stages lose their gate supply and the module enters KILLED driving NONE. -/
  | killInEnergised
  /-- KILL_IN_RELEASED (R348): KILL_IN is released and the module rejoins through WAIT. -/
  | killInReleased
  /-- KILL_OUT_RELEASE (R348): After TAKING, with the partner at NONE and its HB path up for 10 ms, KILL_OUT is released. -/
  | killOutRelease
  /-- WAIT_TIMEOUT (R340): WAIT_MS elapse with no claiming partner, and the module becomes ALONE and raises its generation. -/
  | waitTimeout
  /-- JOIN_FRAME (R341): JOIN and ACCEPT are exchanged and the roles, versions and digests are checked, leading to SYNC or BARRED. -/
  | joinFrame (ok roleB ir4800 : Bool) (minor major seq : Nat) (digest : Bytes)
  /-- EPOCH_FRAME (R46): An EPOCH frame locks the standby timer, adopts counter and run identifier at joining, and supplies the calendar value. -/
  | epochFrame (ok : Bool) (epoch : Nat) (runId : Word) (counts : Nat) (ofsNs : Int)
  /-- CALENDAR_SYNC_STEP (R416): A standby calendar more than 1 s off the active unit's is stepped at the next second boundary. -/
  | calendarSyncStep
  /-- COMMIT_FRAME (R48): The active unit's commit set, snapshot and step values arrive and are poured by the standby. -/
  | commitFrame (ok : Bool) (epoch : Nat) (writes : List CommitWrite) (snap steps : Option (List (Nat × Machine.Dy × Bool))) (commits : List Nat)
  /-- STALE_TIMEOUT (R337): A commit set or tag state not received within one epoch period sets STALE. -/
  | staleTimeout
  /-- TAGS_FRAME (R244): The active unit's tag state arrives and is adopted at the standby's next input phase. -/
  | tagsFrame (ok : Bool) (epoch : Nat) (tags : Machine.Table Machine.TagVal)
  /-- RESYNC_COMPLETE (R342): The joining module has poured the commit set of the epoch before the present, passes self-test and enters READY. -/
  | resyncComplete (passed : Bool)
  /-- IMMEDIATE_FRAME (R355): RW and immediate writes forwarded by the active unit are applied by the standby at its next tick. -/
  | immediateFrame (ok : Bool) (src : Source) (addr : Nat) (w : Word)
  /-- CHANGE_FRAME (R240): The standby receives the change epoch E_c of an on-line change. -/
  | changeFrame (ok : Bool) (epoch : Nat) (seq : Nat) (digest : Bytes) (sects : Option (List Machine.Sect))
  /-- HANDOVER_FRAME (R351): A HANDOVER frame names the handover epoch E_h. -/
  | handoverFrame (ok : Bool) (epoch cause : Nat)
  /-- HANDOVER_START (R351): At the output instant of the first tick of E_h, the releasing unit drives NONE and the taking unit takes the claim. -/
  | handoverStart
  /-- HANDOVER_END (R350): At the second boundary after entering TAKING or RELEASING, HANDOVER ends and the new mode is entered. -/
  | handoverEnd
  /-- TAKE_BACK (R352): The preferred partner has been in READY without faults for HOLDOFF_S, and a planned handover is named. -/
  | takeBack
  /-- OUTPUTS_FRAME (R356): The standby compares its outputs with the active unit's comparison data and counts mismatches. -/
  | outputsFrame (ok : Bool) (items : List CmpItem)
  /-- DIVERGE_FRAME (R358): A sustained mismatch sends DIVERGE, and both modules run the full self-test. -/
  | divergeFrame (ok : Bool) (kind index : Nat) (value : Word)
  /-- DIVERGENCE_RESOLVE (R358): At the first boundary after both results are known, or after 50 ms, the claim decision of the table is taken. -/
  | divergenceResolve
  /-- SELFTEST_PERIODIC (R360): A periodic self-test runs and sets or clears its health bit. -/
  | selftestPeriodic (test : Nat) (passed : Bool)
  /-- SWITCH (R352): PAR_CTRL.SWITCH starts a planned handover, or a cutover with a partner BARRED for CASTING. -/
  | parSwitch (w : Who)
  /-- DIV_CLR (R358): PAR_CTRL.DIV_CLR returns excluded items to comparison. -/
  | divClr (w : Who)
  /-- SELFTEST (R360): PAR_CTRL.SELFTEST runs the full self-test. -/
  | parSelftest (w : Who)
  /-- PAR_CLR_STATS (R359): PAR_CTRL.CLR_STATS clears PAR_CHANGES, PAR_DIV.COUNT and PAR_MISS. -/
  | parClrStats (w : Who)
  /-- LINK_CHANGE (R363): An Ethernet port's link comes up or goes down. -/
  | linkChange (p : Nat) (up gig : Bool)
  /-- ETH_FRAME_RX (R366): A received frame is filtered by VLAN, PRP duplicates and buffer space, and passed to its class. -/
  | ethFrameRx (p : Nat) (f : EthFrame)
  /-- PRP_SUPERVISION (R364): Every 2 s a PRP supervision frame is sent. -/
  | prpSupervision
  /-- ARP_REQUEST (R367): An ARP request is answered by the IPv4 stack. -/
  | arpRequest (p ip asker : Nat)
  /-- ICMP_ECHO (R367): An ICMP echo request is answered. -/
  | icmpEcho (p ip ident : Nat) (data : List Nat)
  /-- REASSEMBLY_TIMEOUT (R367): A datagram not complete within 100 ms is discarded. -/
  | reassemblyTimeout (dg : Nat)
  /-- ANNOUNCE (R374): An Announce message is taken into best-master selection for its domain slot. -/
  | ptpAnnounce (d port dom : Nat) (ds : List Nat) (utc : Int)
  /-- SYNC (R375): A Sync or Follow_Up runs the servo: step or addend update, LOCKED after 8 small offsets. -/
  | ptpSync (d port : Nat) (t1 corr logI : Int) (ago : Nat)
  /-- DELAY_REQ (R374): The slot sends a Delay_Req and queues its transmit time-stamp, dropping it when the queue is full. -/
  | delayReq (d : Nat)
  /-- DELAY_RESP (R375): A Delay_Resp updates the filtered mean path delay. -/
  | delayResp (d seq : Nat) (t4 : Int)
  /-- PTP_SYNC_LOSS (R375): No Sync arrives for LOSS_S, and the slot falls back to ACQUIRING; the clock in use may switch. -/
  | ptpSyncLoss (d : Nat)
  /-- PTP_RETURN (R377): PREF has been LOCKED for RETURN_S, and the clock in use returns to it. -/
  | ptpReturn
  /-- ADDEND_WRITE (R376): A PTP_ADDEND write is applied at the commit boundary while SERVO_OFF is 1, and dropped otherwise. -/
  | addendWrite (w : Who) (d : Nat) (v : Word)
  /-- SERVO_OFF (R376): PTP_CTRL.SERVO_OFF stops or restarts the servo of a slot. -/
  | servoOff (w : Who) (off0 off1 : Bool)
  /-- PTP_CAPTURE (R379): PTP_CAP_CMD.CAPTURE latches all three clocks into the source's bank. -/
  | ptpCapture (w : Who)
  /-- PTP_LOAD_ARM (R380): PTP_LOAD_CTRL.ARM arms a load of a FREE slot at its next second boundary. -/
  | ptpLoadArm (w : Who) (clock sec : Nat)
  /-- PTP_ARMED_LOAD (R380): At the first second boundary after commit, the armed clock takes LOAD_SEC. -/
  | ptpArmedLoad (d : Nat)
  /-- PTP_LOAD_STEP (R380): PTP_LOAD_CTRL.STEP loads a FREE slot at the commit boundary. -/
  | ptpLoadStep (w : Who) (clock sec ns : Nat)
  /-- PTP_CLR_STATS (R378): PTP_CTRL.CLR_STATS clears PTP_TSQ.DROP. -/
  | ptpClrStats (w : Who) (off0 off1 : Bool)
  /-- ETH_CLR_STATS (R366): ETH_CTRL.CLR_STATS clears the ETH_ counters. -/
  | ethClrStats (w : Who)
  /-- YRA_OPEN (R382): A YRA OPEN request is answered with a new session and nonce, or refused. -/
  | yraOpen (role : Nat) (hostNonce : Bytes) (ctr : Nat)
  /-- YRA_PROVE (R382): A YRA PROVE is checked and the session key formed, or it is discarded as AUTH_FAIL. -/
  | yraProve (session : Nat) (mac : Bytes) (ctr : Nat)
  /-- YRA_DATA (R384): A protected YRA DATA request is executed as one register transaction and answered. -/
  | yraData (session ctr : Nat) (tagOk : Bool) (as : List Access) (dur : Nat)
  /-- YRA_CLOSE (R382): A YRA CLOSE closes the session. -/
  | yraClose (session ctr : Nat) (tagOk : Bool)
  /-- YRA_SESSION_TIMEOUT (R382): A YRA session closes after 60 s without a valid request. -/
  | yraSessionTimeout (session : Nat)
  /-- TELEMETRY (R389): A TELEMETRY frame is checked and its fields stored as sources, or it is rejected with a code. -/
  | telemetry (f : TelFrame)
  /-- YSP_SYNC_SEND (R388): SYNC is sent to a substation after an NCLAIM change, a learned address or an ECHO rejection. -/
  | yspSyncSend (sub : Nat)
  /-- CAN_FRAME_RX (R399): A frame received without error is stored in its object, or ignored, with clash and quarantine tracking. -/
  | canFrameRx (c : Nat) (f : CanFrame)
  /-- CAN_OBJECT_TIMEOUT (R400): No frame has been stored for TIMEOUT_MS and the object becomes STALE. -/
  | canObjectTimeout (c id : Nat)
  /-- CAN_FRAME_END (R401): An active frame ends as sent, lost in arbitration or errored, and its request ends or is offered again. -/
  | canFrameEnd (c how code : Nat) (clash : Bool)
  /-- BUS_OFF (R402): The controller enters bus-off; the event is journalled and requests stay pending. -/
  | busOff (c : Nat)
  /-- BUS_OFF_RECOVERY (R402): BOFF_HOLD_MS after bus-off, recovery starts under ISO 11898-1. -/
  | busOffRecovery (c : Nat)
  /-- SEND (R401): CAN_MB_CMD.SEND requests a frame from the selected mailbox. -/
  | canSend (w : Who)
  /-- CANCEL (R403): CAN_MB_CMD.CANCEL acts at its pour on a pending, active or idle mailbox. -/
  | canCancel (w : Who)
  /-- CAN_RELEASE (R406): CAN_OBJ_CMD.RELEASE lifts the quarantine of the selected object. -/
  | canRelease (w : Who)
  /-- SLEEP (R407): CAN_CMD.SLEEP puts the controller to sleep once no frame is active. -/
  | canSleep (w : Who) (c : Nat)
  /-- WAKE (R407): CAN_CMD.WAKE wakes the controller. -/
  | canWake (w : Who) (c : Nat)
  /-- WAKE_EDGE (R407): A dominant level of at least 2 µs wakes a controller with WAKE_MODE 1. -/
  | wakeEdge (c : Nat)
  /-- WAKE_FRAME (R407): A matching frame decoded in sleep wakes a controller with WAKE_MODE 2. -/
  | wakeFrame (c : Nat) (f : CanFrame)
  /-- CAN_CLR_STATS (R399): CAN_CTRL.CLR_STATS clears every CAN counter. -/
  | canClrStats (w : Who)
  /-- VBAK_SWITCH (R411): The internal rail falls and the backup domain moves to VBAK, stamping the loss in CLK_LOSS. -/
  | vbakSwitch (railMv vbakMv : Nat)
  /-- VBAK_RETURN (R411): The rail recovers and the backup domain moves back, stamping CLK_RET. -/
  | vbakReturn (railMv vbakMv : Nat)
  /-- VBAK_MEASURE (R412): Every 60 s VBAK is measured and BATT_LOW is updated. -/
  | vbakMeasure (mv : Nat)
  /-- CLK_CAPTURE (R417): CLK_CAP_CMD.CAPTURE latches the calendar and local state into the source's bank. -/
  | clkCapture (w : Who)
  /-- CLK_LOAD_ARM (R418): CLK_LOAD_CTRL.ARM arms a calendar load at the next second boundary. -/
  | clkLoadArm (w : Who) (sec : Nat)
  /-- CALENDAR_ARMED_LOAD (R418): At the first second boundary after commit, the calendar takes LOAD_SEC, as a step where it differs. -/
  | calendarArmedLoad
  /-- CLK_LOAD_STEP (R418): CLK_LOAD_CTRL.STEP loads the calendar at the commit boundary. -/
  | clkLoadStep (w : Who) (sec sub : Nat)
  /-- TEMPERATURE_TRIM (R423): The crystal sensor is read, every 1 s or 60 s, and the temperature term is updated. -/
  | temperatureTrim (temp : Int)
  /-- MAINS_WINDOW (R424): A mains reference window of WINDOW_S ends and updates R when valid. -/
  | mainsWindow
  /-- PTP_REFERENCE_COMPARE (R425): At a second boundary the calendar is compared with PTP; R is updated over the window and a step is due beyond STEP_MS. -/
  | ptpReferenceCompare
  /-- AUTOMATIC_STEP (R425): The calendar is stepped to the PTP reference at the next second boundary. -/
  | automaticStep
  /-- REFERENCE_TIMEOUT (R426): 24 h without a valid window set R to 0 and REF_LOST. -/
  | referenceTimeout
  /-- DST_TRANSITION (R422): Daylight saving begins or ends and the local offset changes, without a step. -/
  | dstTransition
  /-- ALARM_FIRE (R428): At the second boundary reaching an armed alarm's instant, the alarm fires, pulses its tag and may assert ALARM_N. -/
  | alarmFire (n : Nat)
  /-- ALARM_ARM (R430): CLK_ALM_CMD ARM arms an alarm at its next instant. -/
  | alarmArm (w : Who) (n : Nat)
  /-- ALARM_DISARM (R430): CLK_ALM_CMD DISARM disarms an alarm. -/
  | alarmDisarm (w : Who) (n : Nat)
  /-- ALARM_FIRED_CLEAR (R428): Clearing a CLK_ALM_FIRED bit releases ALARM_N for that alarm. -/
  | alarmFiredClear (w : Who) (map : Word)
  /-- TAMPER_ACTIVATION (R462): A tamper input is sampled low twice; it is stamped, and while armed the backup bytes are cleared and the state response applies. -/
  | tamperActivation (n : Nat)
  /-- PROVISION (R447): Signed command PROVISION binds the module to an Owner and enters PROVISIONED. -/
  | provision (w : Who) (c : SignedCmd)
  /-- ENROL (R447): Signed command ENROL unwraps a key under the KEK and installs it atomically. -/
  | enrol (w : Who) (c : SignedCmd)
  /-- ENROL_PUB (R447): Signed command ENROL_PUB installs the Service debug public key. -/
  | enrolPub (w : Who) (c : SignedCmd)
  /-- REVOKE (R447): Signed command REVOKE empties a slot. -/
  | revoke (w : Who) (c : SignedCmd)
  /-- DEPLOY (R447): Signed command DEPLOY moves PROVISIONED to DEPLOYED. -/
  | deploy (w : Who) (c : SignedCmd)
  /-- RETURN (R447): Signed command RETURN erases the Owner material and enters RETURNED and SAFEHOLD. -/
  | returnModule (w : Who) (c : SignedCmd)
  /-- SCRAP (R447): Signed command SCRAP destroys the root secret helper data and enters SCRAPPED. -/
  | scrap (w : Who) (c : SignedCmd)
  /-- SETTINGS (R447): Signed command SETTINGS replaces LEGACY, TAMPER_RUN and PARTIAL_DBG. -/
  | secSettings (w : Who) (c : SignedCmd)
  /-- TAMPER_ACK (R467): Signed command TAMPER_ACK clears the tamper latch, opens held material or forces a warm reset. -/
  | tamperAck (w : Who) (c : SignedCmd)
  /-- FORCE_CLAIM (R508): Signed command FORCE_CLAIM through YML pre-empts the update lock from YRA or the debug port. -/
  | forceClaim (w : Who) (c : SignedCmd)
  /-- DEBUG_UNLOCK (R456): Signed command DEBUG_UNLOCK grants PARTIAL now, or OPEN for the next run. -/
  | debugUnlock (w : Who) (c : SignedCmd)
  /-- REQ (R456): SEC_DBG_CMD.REQ through the debug port draws a debug challenge. -/
  | dbgReq (w : Who)
  /-- LOCK (R456): SEC_DBG_CMD.LOCK ends PARTIAL. -/
  | dbgLock (w : Who)
  /-- OPEN_NEXT (R456): SEC_DBG_CMD.OPEN_NEXT in MANUFACTURE grants OPEN for the next run. -/
  | dbgOpenNext (w : Who)
  /-- CHALLENGE_EXPIRY (R456): A debug challenge becomes invalid 300 s after it was drawn. -/
  | challengeExpiry
  /-- PARTIAL_TIMEOUT (R456): After 3,600 s without a burst, PARTIAL ends. -/
  | partialTimeout
  /-- BURST_OPEN (R454): The debug instruction BURST_OPEN opens a register access burst as one transaction. -/
  | burstOpen (as : List Access)
  /-- BURST_CLOSE (R454): BURST_CLOSE closes the burst and its staged writes are queued for commit. -/
  | burstClose
  /-- BURST_TIMEOUT (R454): A burst closes 1 ms after its last access. -/
  | burstTimeout
  /-- GO (R458): SEC_ATT_CMD.GO computes the attestation MAC over the measurements and the challenge at the commit epoch. -/
  | attGo (w : Who) (chal : List Word)
  /-- DRBG_RESEED (R445): After 2^20 requests, the random bit generator is reseeded. -/
  | drbgReseed
  /-- POWER_ON_RESET (R469): An internal rail leaves regulation; the module enters BACKUP with the backup domain on VBAK. -/
  | powerOnReset
  /-- POWER_ON_RELEASE (R469): 2 ms after VSUP exceeds 4.6 V with rails in regulation, the power-on reset source is released. -/
  | powerOnRelease (vsupMv : Nat)
  /-- PF_WARNING (R470): VSUP stays below V_PF for 5 µs; the watchdog fires, metering saves and the journal closes. -/
  | pfWarning (vsupMv : Nat)
  /-- PF_WARNING_END (R470): VSUP stays above V_PF + 0.3 V for 10 ms and the warning ends. -/
  | pfWarningEnd (vsupMv : Nat)
  /-- PF_WARM_RESET (R473): In a pair, a warm reset with cause WATCHDOG is asserted 10 ms after a warning ends without a power-on reset. -/
  | pfWarmReset
  /-- RESET_N_REQUEST (R483): RESET_N is low for 1 µs and the RESET_N source is asserted. -/
  | resetNRequest
  /-- RESET_N_RELEASE (R483): 200 ns after RESET_N rises, its source is released. -/
  | resetNRelease
  /-- RST_WARM (R484): RST_CMD.MODULE 1 requests a warm module reset. -/
  | rstWarm (w : Who)
  /-- RST_COLD (R484): RST_CMD.MODULE 2 requests a cold module reset. -/
  | rstCold (w : Who)
  /-- MODULE_RESET_EXECUTE (R484): 1 ms after the response, or the burst close, the commanded module reset is asserted. -/
  | moduleResetExecute
  /-- BLOCK_RESET_CP (R485): RST_BLOCK bit 0 requests a reset of the control processor. -/
  | blockResetCp (w : Who)
  /-- BLOCK_RESET_SOLVER (R485): RST_BLOCK bit 1 requests a reset of the solver array. -/
  | blockResetSolver (w : Who)
  /-- BLOCK_RESET_ASM (R485): RST_BLOCK bit 2 requests a reset of the assembler. -/
  | blockResetAsm (w : Who)
  /-- BLOCK_RESET_ETH (R485): RST_BLOCK bit 3 requests a reset of the network block. -/
  | blockResetEth (w : Who)
  /-- BLOCK_RESET_CAN (R485): RST_BLOCK bit 4 requests a reset of the CAN controllers. -/
  | blockResetCan (w : Who)
  /-- BLOCK_RESET_MGT (R485): RST_BLOCK bit 5 requests a reset of the management controller. -/
  | blockResetMgt (w : Who)
  /-- BLOCK_RESET_EXECUTE (R485): 1 ms after the response, or the burst close, the requested blocks are reset together and journalled. -/
  | blockResetExecute (cpOk mgtOk : Bool)
  /-- LOCKSTEP_MISMATCH (R486): The two D4 cores disagree; the CP block resets after its image check. -/
  | lockstepMismatch (imageOk : Bool)
  /-- CP_FIRMWARE_WATCHDOG (R486): The 100 ms control-processor watchdog expires and the CP block resets. -/
  | cpFirmwareWatchdog (imageOk : Bool)
  /-- MODE_COMMISSION (R494): PWR_MODE_CMD 1 moves ACTIVE or DEGRADED to COMMISSION. -/
  | modeCommission (w : Who)
  /-- MODE_RUN (R494): PWR_MODE_CMD 2 leaves COMMISSION or TUNE for the run mode. -/
  | modeRun (w : Who)
  /-- MODE_TUNE (R494): PWR_MODE_CMD 3 enters TUNE. -/
  | modeTune (w : Who)
  /-- MODE_SAFEHOLD (R490): PWR_MODE_CMD 4 enters SAFEHOLD with the casting's profile. -/
  | modeSafehold (w : Who)
  /-- START_MODE (R493): A write of PWR_START.START_MODE stores the start mode in the settings for the next LOAD. -/
  | startMode (w : Who) (commission : Bool)
  /-- OFFER (R506): UPD_CTRL.OFFER: the header is checked at commit and the lock granted or refused. -/
  | updOffer (w : Who) (words : List Word)
  /-- CHUNK (R505): UPD_CTRL.CHUNK stages the holder's next 512 bytes in order. -/
  | updChunk (w : Who) (ofs : Nat) (words : List Word)
  /-- END (R510): UPD_CTRL.END starts the payload checks. -/
  | endOffer (w : Who)
  /-- ABORT (R509): UPD_CTRL.ABORT from the holder releases the lock with ABORTED. -/
  | updAbort (w : Who)
  /-- LOCK_TIMEOUT (R509): 60 s without a chunk before END release the lock with ABORTED. -/
  | lockTimeout
  /-- INSTALLATION (R511): After the checks pass, the sprue writes the components or the casting slot. -/
  | installation (bad : Nat)
  /-- SWAP_POINT (R514): After SWAP_WAIT, or on release of a hold, the module passes through a warm reset to the new images. -/
  | swapPoint
  /-- SWAP (R514): UPD_CTRL.SWAP releases a held swap point. -/
  | updSwap (w : Who)
  /-- CONFIRM (R518): UPD_CTRL.CONFIRM gives the host confirmation of a trial. -/
  | updConfirm (w : Who)
  /-- TRIAL_CONFIRMED (R518): All health conditions hold; the shadow settings become current and the trial ends CONFIRMED. -/
  | trialConfirmed
  /-- REVERT (R519): UPD_CTRL.REVERT ends the trial by revert. -/
  | updRevert (w : Who)
  /-- TRIAL_FAILURE (R519): Expiry of TRIAL_S or a third reset makes the sprue restore the fallback images and warm-reset. -/
  | trialFailure
  /-- FLOOR (R520): UPD_CTRL.FLOOR from OWNER raises both version floors. -/
  | updFloor (w : Who)
  /-- MGT_HELLO (R533): YML HELLO returns serial, version, node and speed. -/
  | mgtHello (ctr : Nat)
  /-- MGT_OPEN (R530): YML OPEN starts a management session, or is refused. -/
  | mgtOpen (role : Nat) (hostNonce : Bytes) (ctr : Nat)
  /-- MGT_PROVE (R530): YML PROVE completes a session opening. -/
  | mgtProve (session : Nat) (mac : Bytes) (ctr : Nat)
  /-- MGT_CLOSE (R530): YML CLOSE closes the session. -/
  | mgtClose (session ctr : Nat) (tagOk : Bool)
  /-- MGT_HEALTH (R536): YML HEALTH returns the 64-byte health report. -/
  | mgtHealth (session ctr : Nat) (tagOk : Bool)
  /-- MGT_JOURNAL (R539): YML JOURNAL returns journal records from FROM_SEQ. -/
  | mgtJournal (session ctr : Nat) (tagOk : Bool) (fromSeq count : Nat)
  /-- MGT_REGS (R533): YML REGS executes one register transaction. -/
  | mgtRegs (session ctr : Nat) (tagOk : Bool) (as : List Access) (dur : Nat)
  /-- MGT_RESET (R533): YML RESET requests module or block resets. -/
  | mgtReset (session ctr : Nat) (tagOk : Bool) (module blocks : Nat)
  /-- MGT_FRAME_DISCARD (R529): A management frame with wrong framing, CRC, SYNC or node is discarded without response. -/
  | mgtFrameDiscard (why : Nat)
  /-- MGT_SESSION_TIMEOUT (R530): A YML session closes after 120 s without a valid request. -/
  | mgtSessionTimeout (session : Nat)
  /-- SPEED_CHANGE (R527): 10 ms after a committed MGT_CFG.SPEED, the new port speed takes effect. -/
  | speedChange
  /-- CLOSE_ALL (R531): MGT_CTRL.CLOSE_ALL closes every YML session. -/
  | closeAll (w : Who)
  /-- MGT_CLR_STATS (R529): MGT_CTRL.CLR_STATS clears MGT_FRAMES, MGT_ERR and MGT_AUTH_FAIL. -/
  | mgtClrStats (w : Who)
  /-- DRAM_UNCORRECTABLE (R544): An uncorrectable DRAM error retires the row, ends a running solve or discards a frame. -/
  | dramUncorrectable (row reader len : Nat)
  /-- DRAM_CORRECTED (R544): A corrected DRAM error is counted, and the eighth on a row retires it. -/
  | dramCorrected (row : Nat)
  /-- OVERTEMP_CHANGE (R545): The module temperature crosses 95 °C upwards or 90 °C downwards and OVERTEMP changes. -/
  | overtempChange (temp : Int)
  /-- SYS_CLR_STATS (R543): SYS_CTRL.CLR_STATS clears SYS_WERR, SYS_WERR_AT and SYS_DRAM.CE. -/
  | sysClrStats (w : Who)
  /-- TAMPER_INPUT_INACTIVE (R431): A tamper input that was active is sampled high again, and SEC_TAMPER.ACTIVE clears for it. -/
  | tamperInputInactive (n : Nat)
  /-- BACKUP_DOMAIN_LOSS (R412): The backup domain loses both supplies and its contents, so that it restarts with reset values and CLK_STATUS.INVALID at the next power-up. -/
  | backupDomainLoss
  /-- PULSE_EDGE (R259): A rising edge on a PULSE input is counted in FCH_COUNT and time-stamped for frequency, tachometer and heat-meter use. -/
  | pulseEdge (n : Nat)
  /-- DIN_SAMPLE (R259): A DIN input is sampled at 10 kHz and its debounced, inverted value is updated. -/
  | dinSample (n : Nat) (level : Bool)
  /-- PWM_PERIOD_START (R276): A PWM period begins; a new duty takes effect and, for a stretched supply switch, a stretched on-phase and measurement window may begin. -/
  | pwmPeriodStart (n : Nat)
  /-- BUS_INTEGRATION (R409): A CAN controller that is integrating sees the bus idle sequence and becomes error active. -/
  | busIntegration (c : Nat)
  /-- BUS_OFF_RECOVERY_COMPLETE (R402): Bus-off recovery completes under ISO 11898-1 and the pending requests are sent. -/
  | busOffRecoveryComplete (c : Nat)
  /-- SELFTEST_FRAME (R358): The partner's SELFTEST frame arrives with its self-test result, so that both results may become known for the divergence decision. -/
  | selftestFrame (ok passed : Bool)
  /-- SELFTEST_COMPLETE (R360): A requested full self-test completes within 20 ms, sets the health bits and sends its result to the partner. -/
  | selftestComplete (loop logic sram gate : Bool)
  /-- BULK_FRAME (R342): A BULK frame of the resynchronisation image arrives, and the joining module installs the image once it is complete. -/
  | bulkFrame (ok : Bool) (image : Option BulkImage)
  /-- SECURITY_COMMAND_END (R449): A running signed command completes its verification or its Owner material replacement and ends with its result. -/
  | securityCommandEnd
  /-- ATTESTATION_COMPLETE (R458): The attestation MAC computation completes and its result is staged for the next pour. -/
  | attestationComplete
  /-- TAKING_ACTIVE_CODE (R351): 10 µs after it accepted NONE in a planned handover, the taking unit raises its generation and drives ACTIVE_x. -/
  | takingActiveCode
deriving DecidableEq, Repr

end Sys2Proof
end

