-- ==== Sys2Proof/Config.lean ====
section
/-! DEFINITION. What an implementation or a cited standard fixes and the spec leaves open: constants without a body, of
which nothing can be proved, and the numbers of this device. Free values are applied to a counter of the state. -/

namespace Sys2Proof.Config

open Sys2Proof

/-- Random numbers drawn from the enclave's generator (R445), the n-th draw. -/
opaque random : Nat → Nat

/-- Free values: what the spec does not state, the n-th use. -/
opaque freeNat : Nat → Nat
opaque freeWord : Nat → Word
opaque freeInt : Nat → Int
opaque freeBool : Nat → Bool

/-- SHA-384 and SHA-256 (cited standards): 48 and 32 bytes. -/
opaque sha384 : Bytes → Bytes
opaque sha256 : Bytes → Bytes

/-- HMAC-SHA-256 under a key (cited standard): 32 bytes. -/
opaque hmac : (key msg : Bytes) → Bytes

/-- ECDSA P-256 verification: public key (64 bytes), message representative (32 bytes), signature r then s (64 bytes). -/
opaque ecdsaVerify : (pub msg sig : Bytes) → Bool

/-- AES-256-GCM opening: key, nonce, additional data, ciphertext, tag; none where the tag fails. -/
opaque gcmOpen : (key nonce aad ct tag : Bytes) → Option Bytes

/-- AES-256-GCM sealing: key, nonce, additional data, plaintext; ciphertext followed by the tag. -/
opaque gcmSeal : (key nonce aad pt : Bytes) → Bytes

/-- The boot ROM version that MR0 measures (R438). -/
opaque romVersion : Nat

/-- The root secret that the start-up values and the helper data give (R437), as a byte string. -/
opaque rootSecret : Bytes

/-- R152: the local-store bytes of an entry's working set (kind and dimensions) and the DRAM bytes of a casting's
optimiser (its dimensions), which the device computes by rules the spec does not give. -/
opaque workingSet : (kind : Nat) → (dims : List Nat) → Nat
opaque dramNeed : (dims : List Nat) → Nat

/-- The gain of the recursive least squares of R120, in units of 2^-32, and its covariance after a step, from the covariance, the
regressors (dyadic values: mantissa and exponent) and FORGET: the spec gives neither the covariance at the start nor a number format. -/
opaque rlsGain : (cov : List Int) → (phi : List (Int × Int)) → (forget : Word) → List Int
opaque rlsCov : (cov : List Int) → (phi : List (Int × Int)) → (forget : Word) → List Int

/-- The coupling load of a casting in Mbit/s (R338), from the dimensions the rule names; its frame overheads are not stated. -/
opaque couplingLoad : (dims : List Nat) → Nat

/-- The nominal slice gain in V per LSB (R268) and the value of a channel's internal path reference by type and range
(R265), which the spec names without a value: singles. -/
opaque sliceGain : Word
opaque pathReference : (type range : Nat) → Word

/-- The gain of an IIN or RES path with the nominal shunt or excitation (R251), by type and range: a single without a stated value. -/
opaque nominalGain : (type range : Nat) → Word

/-- The natural logarithm in binary64 (R257), which the spec does not state to the last bit. -/
opaque ln64 : Nat → Nat

/-- Specific enthalpy in kJ/kg and density in kg/m³ of water by IAPWS-IF97 region 1 in binary64 (R309), from the temperature in °C
and the pressure in bar absolute; arguments and results are codes of binary64. -/
opaque enthalpy64 : (temperature pressure : Nat) → Nat
opaque density64 : (temperature pressure : Nat) → Nat

/-- The verification of the logic bytecode (R232) and its worst-case cycle time in µs (R226): the instruction set belongs to
the Planner and its costs are not stated. -/
opaque codeOk : (segments : List Bytes) → (networks : Nat) → (tags : List Bytes) → Bool
opaque codeUs : (segments : List Bytes) → (maps : Nat) → Nat

end Sys2Proof.Config
end

