-- ==== Sys2Proof/Machine/Operands.lean ====
section
/-! DEFINITION. Operand forms: bit fields of register words, little-endian fields of frames and castings (R9), saturating
counters, and the reading of signed fields. -/

namespace Sys2Proof.Machine

open Sys2Proof

/-- The field [hi:lo] of a register word, as a number. -/
def field (w : Word) (hi lo : Nat) : Nat := (w.toNat >>> lo) % 2 ^ (hi - lo + 1)

/-- One bit of a register word. -/
def bit (w : Word) (i : Nat) : Bool := w.toNat.testBit i

/-- A register word from its fields (lowest bit, width, value); bits no field names are 0 (R6). -/
def pack (fs : List (Nat × Nat × Nat)) : Word :=
  BitVec.ofNat 32 (fs.foldl (fun a f => a + (f.2.2 % 2 ^ f.2.1) * 2 ^ f.1) 0)

/-- A number as a register word, its low 32 bits. -/
def word (n : Nat) : Word := BitVec.ofNat 32 n

/-- A signed number as a register word, two's complement. -/
def wordInt (n : Int) : Word := BitVec.ofInt 32 n

/-- The low and the high register of a 64-bit quantity (R5). -/
def lo32 (n : Nat) : Word := BitVec.ofNat 32 n
def hi32 (n : Nat) : Word := BitVec.ofNat 32 (n / 2 ^ 32)

/-- A signed field of `w` bits from its two's-complement code. -/
def signed (w n : Nat) : Int := if n % 2 ^ w < 2 ^ (w - 1) then (n % 2 ^ w : Nat) else ((n % 2 ^ w : Nat) : Int) - 2 ^ w

/-- The two's-complement code of a signed number in `w` bits. -/
def unsigned (w : Nat) (i : Int) : Nat := (i % (2 ^ w : Nat)).toNat

/-- A counter of `w` bits after `k` more events: it saturates at all ones. -/
def satAdd (w n k : Nat) : Nat := min (n + k) (2 ^ w - 1)

/-- A counter of 32 bits after one more event. -/
def sat32 (n : Nat) : Nat := satAdd 32 n 1

/-- The number a run of bytes spells, least significant byte first (R9). -/
def leNat : Bytes → Nat
  | [] => 0
  | b :: bs => b.toNat + 256 * leNat bs

/-- `k` bytes of a number, least significant byte first. -/
def leBytes : Nat → Nat → Bytes
  | 0, _ => []
  | k + 1, n => BitVec.ofNat 8 n :: leBytes k (n / 256)

/-- Byte `o` of a run of bytes; 0 past its end. -/
def u8 (bs : Bytes) (o : Nat) : Nat := (bs.getD o 0).toNat

/-- `n` bytes from offset `o`. -/
def slice (bs : Bytes) (o n : Nat) : Bytes := (bs.drop o).take n

/-- Fields of 2, 4 and 8 bytes at offset `o`. -/
def u16 (bs : Bytes) (o : Nat) : Nat := leNat (slice bs o 2)
def u32 (bs : Bytes) (o : Nat) : Nat := leNat (slice bs o 4)
def u64 (bs : Bytes) (o : Nat) : Nat := leNat (slice bs o 8)

/-- A signed field of 4 bytes at offset `o`. -/
def s32 (bs : Bytes) (o : Nat) : Int := signed 32 (u32 bs o)

/-- A signed field of 1 byte and of 2 bytes. -/
def s8 (bs : Bytes) (o : Nat) : Int := signed 8 (u8 bs o)
def s16 (bs : Bytes) (o : Nat) : Int := signed 16 (u16 bs o)

/-- The register words that a run of bytes fills, byte 4w in bits [7:0] of word w. -/
def wordAt (bs : Bytes) (w : Nat) : Word := BitVec.ofNat 32 (u32 bs (4 * w))

/-- The bytes of a run of words, byte 4w in bits [7:0] of word w. -/
def bytesOfWords : List Word → Bytes
  | [] => []
  | w :: ws => leBytes 4 w.toNat ++ bytesOfWords ws

/-- Whether every byte is 0 (reserved bytes, padding). -/
def allZero (bs : Bytes) : Bool := bs.all (· == 0)

/-- ASCII text as bytes. -/
def ascii (t : String) : Bytes := t.toList.map fun c => BitVec.ofNat 8 c.toNat

/-- Division of integers rounded half to even, for a positive divisor. -/
def divHalfEven (n : Int) (d : Nat) : Int :=
  let q := n.fdiv d
  let r := n - q * d
  if 2 * r < d then q
  else if 2 * r > d then q + 1
  else if q % 2 = 0 then q else q + 1

/-- A number limited to an interval. -/
def clampInt (lo hi v : Int) : Int := if v < lo then lo else if hi < v then hi else v

end Sys2Proof.Machine
end

