-- ==== Sys2Proof/Machine/State.lean ====
section
/-! DEFINITION. The state of the block: everything the spec gives the machine, as plain data. Every field's default is
its value after a cold reset (`State.reset`); where the spec gives none the assumption log names the value. Times are in
ns on the counter `now`; `Nat` tables keyed by a number hold only the entries that differ from the default record. -/

namespace Sys2Proof.Machine

open Sys2Proof

/-- The operating modes of R491, in the order of their codes. -/
inductive Mode where
  | backup | boot | load | commission | active | standby | handover | degraded | island | tune | update | safehold
deriving DecidableEq, Repr

/-- The lifecycle states of R435, in the order of their codes. -/
inductive Lifecycle where
  | manufacture | provisioned | deployed | returned | scrapped
deriving DecidableEq, Repr

/-- The outcomes of a transaction, in the order of the codes of R45. -/
inductive TxnOutcome where
  | ok | partialDrop | stale | full | tooLong | notActive | denied | notServed
deriving DecidableEq, Repr

/-- Why a write was counted in SYS_WERR (the CAUSE codes of SYS_WERR_AT). -/
inductive WerrCause where
  | reserved | readOnly | value | zero | state
deriving DecidableEq, Repr

/-- Who hears the answer of a transaction: nobody (a debug burst has no response), a YRA session or a YML session. -/
inductive ReplyTo where
  | none
  | yra (session : Nat) (ctr : Nat)
  | mgt (session : Nat) (ctr : Nat)
deriving DecidableEq, Repr

/-- One staged register write (R37): which transaction wrote it, from where, when it closed, the epoch it read. -/
structure Staged where
  txn : Nat
  src : Source
  role : Role
  addr : Nat
  val : Word
  readEpoch : Nat
  closedAt : Nat
  /-- The session the transaction belongs to; 0 for the debug port and outside a session. -/
  session : Nat := 0
  /-- It came in the active unit's commit set (R48). -/
  mirror : Bool := false
deriving DecidableEq, Repr

/-- An open transaction (R34, R35): the epoch it sees, the values its reads returned, the writes it will stage at its close
(the immediate ones have acted at their access), the drops and the module reset seen so far. -/
structure Txn where
  id : Nat
  src : Source
  role : Role
  readEpoch : Nat
  acceptedAt : Nat
  lastAccess : Nat
  closeAt : Option Nat
  reply : ReplyTo
  accesses : Nat
  values : List Word
  writes : List (Nat × Word)
  dropped : Nat
  session : Nat := 0
  /-- The accesses of a burst that is open, which act at its close. -/
  held : List Access := []
  moduleReset : Nat := 0
  blockBits : Nat := 0
  /-- Writes of RST_BLOCK bits so far. -/
  blockWrites : Nat := 0
deriving DecidableEq, Repr

/-- What the block puts on its lines during a step (frames, responses). Emptied by the idle step (log entry 3). -/
inductive OutMsg where
  /-- The answer of a register transaction (R44, R45, R384, R534). -/
  | txn (src : Source) (reply : ReplyTo) (outcome : TxnOutcome) (dropped : Nat) (readEpoch : Nat)
      (commitEpoch : Option Nat) (values : List Word)
  /-- A YML response: CMD, SESSION, CTR, STATUS of R534, READ_EPOCH, body after the prefix. -/
  | yml (cmd session ctr status : Nat) (readEpoch : Option Nat) (body : Bytes)
  /-- A YRA response: TYPE, SESSION, CTR, body. -/
  | yra (kind session ctr : Nat) (body : Bytes)
  /-- A frame sent on the Ethernet ports, by kind: 0 PRP supervision, 1 ARP reply, 2 ICMP echo reply, 3 Delay_Req,
  4 YSP SCHEDULE, 5 YSP SYNC, 6 YSP SHED; with its words. -/
  | eth (kind : Nat) (words : List Nat)
  /-- A frame sent on the coupling link, by its TYPE of R338, with its words. -/
  | coupling (type : Nat) (words : List Nat)
  /-- The part of the COMMIT frame of an epoch that carries source values (R101): 0 the snapshot of an opening epoch, 1 the values used at a
  horizon step boundary. -/
  | sources (kind epoch : Nat) (values : List (Nat × Dy × Bool))
  /-- The tag state that the active unit sends in a commit set (R244): every tag with its whole instance. -/
  | tags (epoch : Nat) (tags : List (Nat × TagVal))
  /-- A CAN frame offered by a controller (R401). -/
  | can (controller : Nat) (id : Nat) (extended : Bool) (data : Bytes)
deriving DecidableEq, Repr

/-- Epochs and the coherent view (spec/02): the epoch timer, the counter and the EPC_ registers. -/
structure Epc where
  /-- A run has had its first pour, so register transactions are served (R452). -/
  served : Bool := false
  /-- A casting runs (false in a bare run, R83). -/
  casting : Bool := false
  /-- The 64-bit epoch counter (R31); it never wraps in service. -/
  epoch : Nat := 0
  /-- EPC_PERIOD.PERIOD_MS, in ms (R30). -/
  periodMs : Nat := 0
  /-- EPC_PLAN_P.P, the plan cycle in epochs (R25). -/
  planP : Nat := 0
  /-- EPC_RUN_ID (R33, R46). -/
  runId : Word := 0
  dpAbsent : Bool := false
  pairLock : Bool := false
  refLock : Bool := false
  refLost : Bool := false
  pourLate : Bool := false
  /-- EPC_POUR_MAX in units of 10 ns (R29). -/
  pourMax : Nat := 0
  stgFull : Nat := 0
  overwrite : Nat := 0
  txnLost : Nat := 0
  /-- EPC_COMMIT_YRA, _YML and _DBG: the epoch of the last commit of the source (R44). -/
  commitYra : Nat := 0
  commitYml : Nat := 0
  commitDbg : Nat := 0
  /-- EPC_ALIGN.OFFSET_NS. -/
  alignNs : Int := 0
  /-- The data plane has staged its liveness word for the coming epoch (R17). -/
  liveStaged : Bool := false
  /-- Consecutive epochs without a liveness word (R17). -/
  liveMiss : Nat := 0
  /-- The instant of the last boundary, and whether its pour is still running (R29). -/
  boundaryAt : Nat := 0
  pouring : Bool := false
deriving DecidableEq, Repr

/-- What an attempt recorded (CST_ERRn, CST_ERR_OFSn): code of R86, section type, byte offset. -/
structure CstErr where
  code : Nat := 0
  secType : Nat := 0
  ofs : Nat := 0
deriving DecidableEq, Repr

/-- The casting (spec/03): the flash, the sections in use, and the CST_ registers. -/
structure Cst where
  /-- The two slots of the casting flash (R51); a byte past the end of the list reads 0xFF, as erased flash does (R76). -/
  flash0 : Bytes := []
  flash1 : Bytes := []
  /-- The flash's SFDP answer (R50): 0 no valid signature, 1 without 0xEC, 2 with 0xEC. -/
  sfdp : Nat := 2
  /-- CST_STATUS. -/
  state : Nat := 0
  slot : Nat := 0
  optOff : Bool := false
  islandOff : Bool := false
  legacy : Bool := false
  noOpt : Bool := false
  tried0 : Bool := false
  tried1 : Bool := false
  quad : Bool := false
  err0 : CstErr := {}
  err1 : CstErr := {}
  /-- SEQUENCE, FMT_MAJOR, FMT_MINOR, MIN_FW and DIGEST of the running casting. -/
  seq : Nat := 0
  fmtMajor : Nat := 0
  fmtMinor : Nat := 0
  minFw : Nat := 0
  digest : Bytes := []
  /-- CST_FMT_MAX.MINOR of the running firmware. -/
  fmtMaxMinor : Nat := 0
  seqFloor : Nat := 0
  /-- CST_REJECT. -/
  canOff : Nat := 0
  groupsOff : Nat := 0
  metersOff : Nat := 0
  alarmsOff : Nat := 0
  sectOff : Nat := 0
  loadTimeMs : Nat := 0
  loadAt : Nat := 0
  /-- Slot 28 holds the content key of this attempt (R66, R80). -/
  contentKey : Bool := false
  /-- The sections in use after epoch 0. -/
  sects : List Sect := []
deriving DecidableEq, Repr

/-- A ladle (R117 to R119). The body is kept in words of the sub-blocks. -/
structure Ladle where
  kind : Nat
  scen : Nat
  batch : Nat
  count : Nat
  template : Nat
  flags : Nat
  openEpoch : Nat
  structHash : Nat
  firstSub : Nat
  stride : Nat
  seq : Nat
  castSeq : Nat
  bodyLen : Nat := 0
  crc : Nat := 0
  /-- Per sub-block: substation, PARAM_GEN, flags, words. The hub ladle has one block. -/
  blocks : List (Nat × Nat × Nat × List Word)
deriving DecidableEq, Repr

/-- The problem assembler (spec/04) and the ASM_ registers. -/
structure Asm where
  busy : Bool := false
  noHost : Bool := false
  satSeen : Bool := false
  staleSeen : Bool := false
  identHold : Bool := false
  openEpoch : Nat := 0
  /-- ASM_OPEN: the opening epoch of the last cycle whose ladles are all ready. -/
  regOpen : Nat := 0
  filled : Nat := 0
  filledRefresh : Nat := 0
  first10us : Nat := 0
  lastMs : Nat := 0
  sat : Nat := 0
  srcFault : Nat := 0
  inCollide : Nat := 0
  telStale : Nat := 0
  telNone : Nat := 0
  seriesHost : Nat := 0
  seriesPersist : Nat := 0
  inCode : Nat := 0
  inHseq : Nat := 0
  installed : Nat := 0
  selSub : Nat := 0
  selParam : Nat := 0
  inWin : Table Word := []
  /-- The cycle being assembled: its opening epoch, opening instant, T0, the snapshot (SRC code, value, faulted; R100). -/
  cycle : Option Nat := none
  cycleAt : Nat := 0
  t0 : Nat := 0
  snapshot : List (Nat × Dy × Bool) := []
  /-- The start states of the cycle per substation (R103): value of each state, TEL_STALE, TEL_NONE. -/
  states : Table (List Dy × Bool × Bool) := []
  /-- The hub ladles of this cycle carry the ISL_BOUND rows (R189). -/
  island : Bool := false
  ladles : List Ladle := []
  /-- Ladles of the cycle still to be built, in fill order (R117): kind (1 batch, 2 hub, 3 refresh of one substation, 4 INIT
  refresh of a batch), scenario, object. -/
  todo : List (Nat × Nat × Nat) := []
  /-- What this cycle's ladles have counted so far. -/
  cySat : Nat := 0
  cyStale : List Nat := []
  cyNone : List Nat := []
  cyHost : List Nat := []
  cyPersist : List Nat := []
  cyFaults : List Nat := []
  cyRefresh : Nat := 0
  /-- Host records, histories and day values as they stood at the opening epoch (R25, R100). -/
  snapHost : List HostRec := []
  snapHistory : Table (Table Dy) := []
  snapDays : Table (Table Word) := []
  cyInstalled : Nat := 0
  /-- Stored host records, newest last (R108, R110). -/
  host : List HostRec := []
  /-- Persistence of weather and demand: per series, step averages by step start time, at most 24 h (R112). -/
  history : Table (Table Dy) := []
  /-- Persistence of tariffs and grid limits: per series, last accepted host value per step of the day (R112). -/
  dayValues : Table (Table Word) := []
  /-- Step averages in progress: per series, sum and count of the step now running. -/
  stepAcc : Table (Dy × Nat) := []
  /-- Horizon step boundaries (R120): the start time of the step now running. -/
  stepStart : Nat := 0
  /-- Substations a source of which was faulted at a boundary of the step now running (R120). -/
  stepFaults : List Nat := []
  /-- The boundary at which a following unit saw a step end whose values it waits for (R101). -/
  stepDue : Option Nat := none
  params : Table SubParams := []
  /-- Refresh requests, oldest first, with the epoch of the request (R121, R122). -/
  queue : List (Nat × Nat) := []
  /-- Saved identified sets in the settings (R125): casting digest and sets; the instant of the last save. -/
  savedDigest : Bytes := []
  savedSets : Table (Table Word) := []
  savedAt : Nat := 0
deriving DecidableEq, Repr

/-- The iterates of one substation in one scenario, raw words of their classes (R93): the decision vector, the splitting
variables of the constraint rows, the duals of all rows, the exchange. -/
structure SubIter where
  xi : List Int := []
  zeta : List Int := []
  mu : List Int := []
  y : List Int := []
deriving DecidableEq, Repr

/-- The iterates of one scenario (R93, R143): substations, node quantities (N × 3 words each), hub, and the largest
residual terms seen so far in this round (R144). -/
structure ScenIter where
  subs : Table SubIter := []
  ybar : Table (List Int) := []
  zbar : Table (List Int) := []
  w : Table (List Int) := []
  p : List Int := []
  zetaH : List Int := []
  muH : List Int := []
  /-- Forward-substitution values of the hub, by permuted column. -/
  tmp : Table Int := []
  pri : Nat := 0
  dua : Nat := 0
deriving DecidableEq, Repr

/-- A factor (R134, R139): reciprocal pivots by column, entries of L below the diagonal by row * 8192 + column, the
unscaled entries they came from; the substation parameters it belongs to. -/
structure Factor where
  dinv : Table Int := []
  l : Table Int := []
  u : Table Int := []
  params : Table Word := []
  failed : Bool := false
  /-- An event of R128 occurred in the entry that wrote it. -/
  sat : Bool := false
deriving DecidableEq, Repr

/-- The warm-start store (R153): T0 of its cycle, structure hashes, iterates. -/
structure WarmStore where
  t0 : Nat
  tplHash : Table Nat
  hubHash : Nat
  iters : Table ScenIter
deriving DecidableEq, Repr

/-- A running solve window (R151): the cycle, the pass (1 INIT, 2 REFRESH, 3 ROUND; 0 before the first), per lane the next
entry, lanes with an entry in flight, barriers and how many signals are still to come, rounds complete, work copies. -/
structure SolveRun where
  openEpoch : Nat
  openedAt : Nat
  /-- The window request: the instant the first ladles were ready. -/
  requestedAt : Option Nat := none
  firstEntryAt : Option Nat := none
  t0 : Nat
  katDone : Bool := false
  pass : Nat := 0
  lanePos : Table Nat := []
  flight : List Nat := []
  barriers : Table Nat := []
  rounds : Nat := 0
  prev : Table ScenIter := []
  work : Table ScenIter := []
  initBatches : List Nat := []
  initHub : Bool := false
  initEnded : Bool := false
  refresh : List Nat := []
  sat : Bool := false
  /-- The entry now ending had an event of R128. -/
  entrySat : Bool := false
  ladleSat : Bool := false
  warmHub : Bool := false
  resPri : Nat := 0
  resDua : Nat := 0
deriving DecidableEq, Repr

/-- The solver array (spec/05) and the SLV_ registers. -/
structure Slv where
  phase : Nat := 0
  satSeen : Bool := false
  warmRejSeen : Bool := false
  swapSeen : Bool := false
  factFailSeen : Bool := false
  /-- SLV_OUTCOME and the registers of the cycle it describes. -/
  code : Nat := 0
  cause : Nat := 0
  outSat : Bool := false
  warm : Bool := false
  rounds : Nat := 0
  openEpoch : Nat := 0
  resPri : Nat := 0
  resDua : Nat := 0
  window : Nat := 0
  startUs : Nat := 0
  shiftRun : Nat := 0
  sat : Nat := 0
  warmRej : Nat := 0
  cold : Nat := 0
  factAbort : Nat := 0
  factFail : Nat := 0
  excluded : List Nat := []
  coldNext : Bool := false
  /-- Physical crucibles (R126, R162, R163): retired, logical lane to physical, counters over the module's life. -/
  retired : List Nat := []
  map : Table Nat := []
  ce : Table Nat := []
  katFail : Table Nat := []
  residue : Table Nat := []
  /-- Factors in use and factors completed for the next opening epoch (R136). -/
  inUse : Table Factor := []
  spare : Table Factor := []
  hub : Option Factor := none
  hubSpare : Factor := {}
  store : Option WarmStore := none
  run : Option SolveRun := none
  /-- The iterate of the tested round, staged with the outcome for the plan record (R160). -/
  result : Table ScenIter := []
  resultReady : Bool := false
deriving DecidableEq, Repr

/-- Plans, fallback, ISLAND (spec/06) and the PLN_ registers. -/
structure Pln where
  /-- The published record (R165); the bank of the epoch before holds the previous one. -/
  record : Option PlanRec := none
  /-- PLAN_SEQ of the next record of the run. -/
  nextSeq : Nat := 0
  /-- The last valid plan (R175). -/
  lastValid : Option PlanRec := none
  /-- Causes of R181, and PLN_DEGR.RECOVER. -/
  cShiftRun : Bool := false
  cNoLanes : Bool := false
  cDpAbsent : Bool := false
  cOptOff : Bool := false
  cClock : Bool := false
  recover : Nat := 0
  /-- Last value applied to each point (R174). -/
  applied : Table Word := []
  /-- STEPS of the last block sent to each substation (R180). -/
  sent : Table Nat := []
  /-- The points were set for the HOLD_END of the published record (R179). -/
  holdDone : Bool := true
  /-- The horizon step at which the points were last set (R179). -/
  stepSet : Int := 0
  /-- The boundary of the opening epoch of each cycle whose solve runs or has ended: its calendar counts (R178). -/
  cycleCal : Nat := 0
  /-- ISLAND held, held by command (R192), loss confirmed, restored (R188), GRID_ALARM. -/
  island : Bool := false
  cmdHeld : Bool := false
  gridLost : Bool := false
  gridAlarm : Bool := false
  /-- Entry or leaving waits for the next boundary (R189, R191). -/
  enterDue : Bool := false
  leaveDue : Bool := false
  /-- A record with FLAGS.ISLAND has been poured since the entry (R189). -/
  islandRecord : Bool := false
  /-- Since when each phase (0 to 2) and TRIP_TAG (3) has shown loss, and all detectors health (R188). -/
  lossSince : Table Nat := []
  healthySince : Option Nat := none
  /-- Groups shed, and the instant of the next restoration (R191). -/
  shed : List Nat := []
  restoreAt : Option Nat := none
  entries : Nat := 0
  sheds : Nat := 0
  sat : Nat := 0
  limit : Nat := 0
  /-- PLN_SEL. -/
  selKind : Nat := 0
  selIndex : Nat := 0
  selPage : Nat := 0
deriving DecidableEq, Repr

/-- The loop engine (spec/07) and the LPE_ registers. -/
structure Lpe where
  /-- The number of the next tick, and of the last one completed (R196, R221). -/
  nextTick : Nat := 0
  tick : Nat := 0
  slots : Table Slot := []
  /-- Outputs computed in this tick that the output instant applies (R195): slot and value. -/
  due : Table Word := []
  /-- The instant of the tick whose output instant is to come. -/
  tickAt : Option Nat := none
  nonfin : Nat := 0
  pvFault : Nat := 0
  nonfinSeen : Bool := false
  faultSeen : Bool := false
  injAborted : Bool := false
  evalMax : Nat := 0
  handSel : Nat := 0
  handVal : Word := 0
  /-- LPE_INJ_CFG to LPE_INJ_LEN. -/
  injSlot : Nat := 0
  injType : Nat := 0
  injPoint : Bool := false
  injOrder : Nat := 0
  injClk : Nat := 1
  injDec : Nat := 1
  injAmp : Word := 0
  injBias : Word := 0
  injHyst : Word := 0
  guardLo : Word := 0
  guardHi : Word := 0
  injLen : Nat := 0
  injPre : Nat := 0
  /-- LPE_INJ_STATUS. -/
  injState : Nat := 0
  injCause : Nat := 0
  /-- Evaluations of the injected slot since ARM, and injected evaluations. -/
  injEvals : Nat := 0
  injDone : Nat := 0
  /-- y_s of R216, the level of a relay, the shift register of a PRBS. -/
  injBase : Word := 0
  relayHigh : Bool := false
  lfsr : Nat := 0
  capture : List (Word × Word) := []
  capPage : Nat := 0
deriving DecidableEq, Repr

/-- The logic engine (spec/08) and the LGC_ registers. -/
structure Lgc where
  halted : Bool := false
  overrunSeen : Bool := false
  rterrSeen : Bool := false
  /-- The logic clock in ns, and the instant up to which it was counted (R224). -/
  clock : Nat := 0
  clockAt : Nat := 0
  /-- The instant the last cycle ended (R223). -/
  lastEnd : Option Nat := none
  lastUs : Nat := 0
  maxUs : Nat := 0
  cycles : Nat := 0
  overrun : Nat := 0
  rterr : Nat := 0
  rterrNet : Nat := 0
  rterrCode : Nat := 0
  forceLost : Nat := 0
  collide : Nat := 0
  changeCount : Nat := 0
  changeResult : Nat := 0
  changeEpoch : Nat := 0
  /-- Tag values by tag slot: in use, and as staged by the last completed cycle (R223). -/
  tags : Table TagVal := []
  /-- Values loop slots write to REAL tags, waiting for the next input phase, by tag identifier (R212). -/
  loopTags : Table Word := []
  /-- Values the plan sets, waiting for the next input phase, by tag identifier (R179). -/
  planTags : Table Word := []
  /-- Those of the epoch before the present one that no input phase has taken yet: plan values, host tag writes (R223). -/
  planOld : Table Word := []
  hostOld : List (Nat × Word) := []
  /-- Tags that alarms pulse at the next input phase, and those that were pulsed in the last one (R428). -/
  pulseTags : List Nat := []
  pulsed : List Nat := []
  /-- Shed values of logic tags (R187), by identifier. -/
  shedTags : Table Word := []
  /-- Forces in the order in which they took effect, and those committed for the next input phase (R235). -/
  forces : List Force := []
  /-- Force commands that wait for the input phase of a cycle that starts after the pour of their commit epoch: that epoch,
  command, tag, value, role (R235). -/
  forceCmds : List (Nat × Nat × Nat × Word × Role) := []
  /-- A force command committed at the change epoch, to be evaluated against the new program (R243): command, source, role. -/
  forceHeld : Option (Nat × Source × Role) := none
  /-- FORCE_N is driven low (R238). -/
  forceN : Bool := false
  /-- A logic-only casting installed in the other slot is offered as an on-line change at the next boundary (R514, R239). -/
  offered : Bool := false
  /-- LGC_FORCE_TAG, _VAL, _RES. -/
  forceTag : Nat := 0
  forceVal : Word := 0
  resCode : Nat := 0
  resTag : Nat := 0
  /-- LGC_TWR pairs, and committed host tag writes for the next input phase: tag and value. -/
  twrId : Table Word := []
  twrSrc : Table Source := []
  twrVal : Table Word := []
  hostWrites : List (Nat × Word) := []
  tagBase : Nat := 0
  /-- An accepted on-line change: E_c, the new casting's sections, SEQUENCE, digest (R239, R240). -/
  change : Option (Nat × List Sect × Nat × Bytes) := none
  /-- A commit set's tag state that the standby adopts at its next input phase (R244). -/
  adopt : Option (Table TagVal) := none
deriving DecidableEq, Repr

/-- A conversion entry (R255): its channel, its kind (0 sequence, 1 requested, 2 path check shorted, 3 path check on the
reference), the sum of its codes and whether the excitation is at compliance where the environment gave them, its start
and its end in ns. -/
structure Entry_ where
  ch : Nat
  kind : Nat := 0
  sum : Option (Int × Bool) := none
  urgent : Bool := false
  startAt : Nat := 0
  endAt : Nat := 0
deriving DecidableEq, Repr

/-- A channel group (R260 to R264): its slice, next pass and its due time, the running entry, what is left of the pass,
pending requests (channel, urgent), and whether the next pass is the first after a handover. -/
structure Grp where
  slice : Option Nat := none
  pass : Nat := 0
  dueAt : Nat := 0
  inPass : Bool := false
  running : Option Entry_ := none
  rest : List Entry_ := []
  requests : List (Nat × Bool) := []
  checks : Bool := false
  noSlice : Bool := false
deriving DecidableEq, Repr

/-- A SAR slice (R264, R268, R269): coefficients as singles, life record, since when it idles as a calibration slice. -/
structure Slice where
  ofs : Word := 0
  gain : Word := 0
  retired : Bool := false
  visiting : Bool := false
  idleSince : Option Nat := none
  visits : Nat := 0
  stuck : Nat := 0
  drift : Nat := 0
deriving DecidableEq, Repr

/-- A stored system calibration (R266, R267). -/
structure SysCal where
  ofs : Word
  gain : Word
  type : Nat
  range : Nat
  date : Nat
deriving DecidableEq, Repr

/-- A field channel (spec/09). -/
structure Chan where
  /-- Engineering value, electrical value, averaged code, PULSE edges. -/
  val : Word := 0
  raw : Word := 0
  code : Int := 0
  count : Nat := 0
  /-- Rising edges of the last 2 s, newest first, in ns; the frequency of the latest ms (R259). -/
  edges : List Nat := []
  freq : Word := 0
  /-- A rising edge whose level has not been stable for DEBOUNCE yet (R253). -/
  edge : Option Nat := none
  /-- Active conditions of R271 and the consecutive results for and against each (codes 1 to 4, 7, 10). -/
  conds : List Nat := []
  bad : Table Nat := []
  good : Table Nat := []
  results : Nat := 0
  lastAt : Option Nat := none
  /-- The filter has a value to move from (R258). -/
  filtered : Bool := false
  lastGood : Option Word := none
  slice : Nat := 31
  faultSeen : Bool := false
  reqDropped : Bool := false
  fltCount : Nat := 0
  trips : Nat := 0
  /-- FCH_REQ_STAT. -/
  reqState : Nat := 0
  reqUrgent : Bool := false
  reqMerged : Bool := false
  reqDone : Nat := 0
  /-- A DIN input: level sampled, since when it has been stable, value before INVERT. -/
  level : Bool := false
  stableAt : Nat := 0
  din : Bool := false
  /-- Rising edges of the DIN value, and whether FAULT was set since the mains window began (R424). -/
  rises : Nat := 0
  winFault : Bool := false
  /-- Outputs (R274): the writer's value, shed value, hand, applied u and e. -/
  writer : Option Word := none
  shed : Option Word := none
  hand : Bool := false
  handVal : Word := 0
  applied : Word := 0
  elec : Word := 0
  /-- The PWM duty (electrical value) that the running period uses (R276). -/
  duty : Word := 0
  held : Bool := false
  /-- The value held through a warm reset (R280). -/
  heldVal : Word := 0
  safe : Bool := false
  /-- High-impedance by the safe profile (R489). -/
  hiz : Bool := false
  /-- The channel drives or is configured at all since epoch 0 (R280). -/
  live : Bool := false
  /-- Trips (R273): instants of the last ones, off until, latched; readback value. -/
  tripAt : List Nat := []
  offUntil : Option Nat := none
  tripLatch : Bool := false
  readback : Word := 0
  /-- The instant the IIN shunt opened (R249). -/
  shuntAt : Option Nat := none
  /-- Calibration (R265, R266): state, result, references, sum and count of the average, measured values, candidate. -/
  calState : Nat := 0
  calResult : Nat := 0
  refZ : Word := 0
  refS : Word := 0
  calSum : Dy := {}
  calN : Nat := 0
  mz : Option Word := none
  ms : Option Word := none
  newOfs : Option Word := none
  newGain : Word := 0
  stored : Option SysCal := none
  /-- Coefficients accepted at the last CAL_ACCEPT take effect at the next boundary. -/
  storedDue : Option SysCal := none
  /-- Factory path coefficients and background coefficients once measured. -/
  facOfs : Word := 0
  facGain : Word := 0x3F800000
  bg : Option (Word × Word) := none
  zp : Option Word := none
  pathOfs : Word := 0
  pathGain : Word := 0
  pathBad : Bool := false
deriving DecidableEq, Repr

/-- Field channels and slices (spec/09). -/
structure Fch where
  chans : Table Chan := []
  groups : Table Grp := []
  slices : Table Slice := []
  rotNext : Nat := 0
  rotAt : Nat := 0
  handovers : Nat := 0
  passSkip : Nat := 0
  reqDrop : Nat := 0
  noRot : Bool := false
  swapSeen : Bool := false
  vfldLow : Bool := false
  /-- Epoch 0 of this run configured the channels (R280). -/
  configured : Bool := false
  /-- Channels that ran before a warm reset hold until epoch 0 (R280). -/
  holding : Bool := false
deriving DecidableEq, Repr

/-- Fans and pumps (spec/10) and the FAN_ registers. -/
structure Fan where
  drivers : Table FanDrv := []
  stallSeen : Bool := false
  tachSeen : Bool := false
deriving DecidableEq, Repr

/-- The running totals of an open interval (R313, R315, R316). -/
structure Interval where
  startS : Nat := 0
  openEpoch : Nat := 0
  meteredNs : Nat := 0
  flags : Nat := 0
  fwd : Nat := 0
  rev : Nat := 0
  aux1 : Nat := 0
  aux2 : Nat := 0
  firstRev : Option Nat := none
  reversals : Nat := 0
  faultNs : Nat := 0
  seams : Nat := 0
  /-- The second at which the interval closes. -/
  endS : Nat := 0
deriving DecidableEq, Repr

/-- An interval record (R315); its CRC is computed where it is read. -/
structure IRec where
  seq : Nat
  kind : Nat
  unit : Nat
  runId : Word
  closeEpoch : Nat
  iv : Interval
deriving DecidableEq, Repr

/-- A current input of a group: gain code, instant of the last change, peaks of the last two periods in µV (R306). -/
structure CurIn where
  gain : Nat := 0
  changedAt : Nat := 0
  peak1 : Nat := 0
  peak2 : Nat := 0
deriving DecidableEq, Repr

/-- A metering group (R299 to R307): values of R312, reference, validity, neutral watch. -/
structure Meter where
  vals : Table Word := []
  valid : Bool := false
  noRef : Bool := false
  refPhase : Nat := 0
  /-- Consecutive valid periods of VA while the reference is elsewhere. -/
  vaPeriods : Nat := 0
  neutral : Bool := false
  neutralBad : Nat := 0
  neutralGood : Nat := 0
  seams : Nat := 0
  inputs : Table CurIn := []
  /-- Sign of the last E that was not 0. -/
  lastSign : Option Bool := none
  /-- The instant at which the open period began. -/
  periodAt : Nat := 0
  iv : Option Interval := none
deriving DecidableEq, Repr

/-- A virtual heat meter (R308 to R312). -/
structure Heat where
  lastCount : Nat := 0
  lastAt : Option Nat := none
  /-- The number of the loop tick of the last sample on the grid. -/
  lastTick : Option Nat := none
  /-- The last 10 samples: power in kW, flow in m3/h (singles), span in ns. -/
  samples : List (Word × Word × Nat) := []
  thF : Word := 0
  thR : Word := 0
  coeff : Word := 0
  dtLow : Bool := false
  reverse : Bool := false
  lastSign : Option Bool := none
  reversals : Nat := 0
  iv : Option Interval := none
deriving DecidableEq, Repr

/-- A copy of the accumulator file in an FRAM slot (R316). -/
structure AccFile where
  accs : Table Nat := []
  increase : Table Nat := []
  groups : Table Interval := []
  meters : Table Interval := []
  runId : Word := 0
  epoch : Nat := 0
  counts : Nat := 0
  seq : Nat := 0
  closed : Bool := false
  /-- The spacing of the last two captures in ns, which their times in the two slots give, and the epoch period of the run in ms. -/
  spacingNs : Nat := 0
  periodMs : Nat := 0
deriving DecidableEq, Repr

/-- The unsaved interval of R321. -/
structure Unsaved where
  startEpoch : Nat := 0
  endEpoch : Nat := 0
  runId : Word := 0
  ms : Nat := 0
  timeS : Nat := 0
  noTime : Bool := false
  clamped : Bool := false
deriving DecidableEq, Repr

/-- Energy accounting (spec/11) and the NRG_ registers. -/
structure Nrg where
  /-- Accumulating (R298). -/
  run : Bool := false
  /-- The 384 accumulators, 80 bits each (R295), and the estimates of R321. -/
  accs : Table Nat := []
  estimates : Table Nat := []
  groups : Table Meter := []
  heats : Table Heat := []
  /-- FRAM: the two slots, slots abandoned, spare pages, the ring of interval records, the next IREC_SEQ. -/
  slot0 : Option AccFile := none
  slot1 : Option AccFile := none
  single : Option Nat := none
  spares : Nat := 16
  ring : List IRec := []
  nextSeq : Nat := 1
  /-- Closed intervals that wait for the next save. -/
  closedRecs : List IRec := []
  /-- The last capture: its instant, its accumulators, its epoch. -/
  capturedAt : Nat := 0
  capturedAccs : Table Nat := []
  saveEpoch : Nat := 0
  /-- A clear of this epoch calls for a save at its boundary (R323). -/
  saveDue : Bool := false
  saveFail : Nat := 0
  lastUs : Nat := 0
  maxUs : Nat := 0
  framInit : Bool := false
  seamSeen : Bool := false
  neutralSeen : Bool := false
  failSeen : Bool := false
  clearedSeen : Bool := false
  clearGen : Nat := 0
  unsaved : Option Unsaved := none
  accBase : Nat := 0
  accBank : Bool := false
  irecSel : Nat := 0
  hmSel : Nat := 0
deriving DecidableEq, Repr
/-- The pair (spec/12) and the PAR_ registers. -/
structure Par where
  /-- Pair state of R339, own claim code (R326), accepted partner code and the instant it was accepted (R327). -/
  pstate : Nat := 0
  code : Nat := 0
  pcode : Nat := 0
  pcodeAt : Nat := 0
  /-- The claim gate is open (R328); since when the comparison holds; the gate keeps its state under R329. -/
  gate : Bool := false
  compareSince : Option Nat := none
  keepGate : Bool := false
  /-- Paths (R336), the partner declared failed. -/
  hbOk : Bool := false
  linkOk : Bool := false
  partnerFailed : Bool := false
  killOut : Bool := false
  killOutAt : Nat := 0
  killIn : Bool := false
  stale : Bool := false
  barredWhy : Nat := 0
  /-- PAR_ALARM. -/
  aPathHb : Bool := false
  aPathLink : Bool := false
  aPartnerFail : Bool := false
  aTakeover : Bool := false
  aClaimPin : Bool := false
  aDivergence : Bool := false
  aBothFail : Bool := false
  aConflict : Bool := false
  /-- Results of the tests of R360. -/
  loopKat : Bool := false
  logicKat : Bool := false
  sramUe : Bool := false
  gateTest : Bool := false
  /-- The claim generation of R332, in FRAM. -/
  gen : Nat := 0
  /-- The partner's last heartbeat frame, and since when its code differs from the accepted one (R327). -/
  partner : Heartbeat := { nclaim := 0, pstate := 0, mode := 0, health := 0, stale := false }
  heard : Bool := false
  diffSince : Option Nat := none
  /-- The present difference of the two codes has been noted as a fault (R327). -/
  diffNoted : Bool := false
  /-- The partner's coupling protocol version (PAR_VER), and whether it is an IRS-4800 (R354), from its JOIN frame. -/
  pMinor : Nat := 0
  pMajor : Nat := 0
  p4800 : Bool := false
  /-- The partner's casting sequence, from its JOIN frame (R521). -/
  pSeq : Nat := 0
  /-- The watchdog (R334): fired, its cause, the instant; its late-tick and late-pour causes are active. -/
  wdFired : Bool := false
  wdCause : Nat := 0
  wdAt : Nat := 0
  wdArmed : Bool := false
  /-- Mode of the former holder in its last heartbeat frame, and whether it showed SAFE, at the entry into TAKING (R350). -/
  takenMode : Nat := 0
  takenSafe : Bool := false
  takeovers : Nat := 0
  handovers : Nat := 0
  lastEpoch : Nat := 0
  lastCause : Nat := 0
  lastGap : Nat := 0
  /-- Cause of the change of claim holder in progress. -/
  cause : Nat := 0
  divKind : Nat := 0
  divIndex : Nat := 0
  divCount : Nat := 0
  pathLoss : Nat := 0
  crcErr : Nat := 0
  /-- Entry into WAIT, or epoch 0 (R340). -/
  waitAt : Nat := 0
  /-- The instant since which the partner has shown NONE with its HB path up (R348), and READY for take-back (R352). -/
  noneSince : Option Nat := none
  holdoffSince : Option Nat := none
  /-- A named handover: E_h and the cause (R351); planned; boundaries left of HANDOVER (R350). -/
  handover : Option (Nat × Nat) := none
  planned : Bool := false
  hoLeft : Nat := 0
  cutover : Bool := false
  /-- The first EPOCH frame after the JOIN exchange has been taken (R46). -/
  adopted : Bool := false
  /-- Epoch of the last commit set received (R48), and of the last tag state. -/
  commitEpoch : Nat := 0
  tagsEpoch : Nat := 0
  /-- The bulk image has been installed (R342). -/
  imageIn : Bool := false
  /-- Values of the active unit for a horizon step boundary and for the snapshot (R101): SRC code, value, faulted. -/
  snapIn : Option (Nat × List (Nat × Dy × Bool)) := none
  stepIn : Option (Nat × List (Nat × Dy × Bool)) := none
  /-- Immediate writes forwarded, for the next tick (R355). -/
  immediate : List (Source × Nat × Word) := []
  /-- Consecutive mismatches by kind * 1000 + number, items excluded, the first epoch compared (R356, R357). -/
  mismatch : Table Nat := []
  excluded : List Nat := []
  cmpFrom : Nat := 0
  /-- Self-test: running since, own and partner's result of a divergence, its instant, values; the standby failed one (R358). -/
  testSince : Option Nat := none
  divAt : Option Nat := none
  divOwn : Option Bool := none
  divPartner : Option Bool := none
  divVals : Word × Word := (0, 0)
  barredByTest : Bool := false
  /-- This standby takes the claim because the active unit failed its self-test (R358). -/
  divTake : Bool := false
deriving DecidableEq, Repr

/-- An Ethernet port (R363, R366). -/
structure Port where
  up : Bool := false
  gig : Bool := false
  rx : Nat := 0
  drop : Nat := 0
  tx : Nat := 0
  err : Nat := 0
  /-- Bytes waiting in the receive buffer: PTP frames and others. -/
  bufPtp : Nat := 0
  bufOther : Nat := 0
  /-- Bytes waiting in the transmit buffer at the instant `txAt` (R366). -/
  txFill : Nat := 0
  txAt : Nat := 0
  /-- Transmit time-stamp queue (R378): sequenceId, slot, message type, MDI time-stamp in ns. -/
  tsq : List (Nat × Nat × Nat × Int) := []
  ovf : Bool := false
deriving DecidableEq, Repr

/-- What the device knows of a substation on YSP (R385 to R389). -/
structure YspSub where
  /-- Source address of the latest accepted frame. -/
  addr : Option Nat := none
  /-- FCNT of the last frame accepted in this run, and of the last one sent under the present NCLAIM. -/
  rxCnt : Nat := 0
  txCnt : Nat := 0
  state : Nat := 0
  lastAt : Option Nat := none
  echo : Nat := 0xFFFFFFFF
  /-- Telemetry fields: value (Q16.16), QUAL, acceptance epoch. -/
  fields : Table (Word × Bool × Nat) := []
  /-- A SYNC is to be sent (R388); one was already caused by a rejection in this plan cycle; the address was learned and the
  SYNC of the first opening epoch is still to come. -/
  syncDue : Bool := false
  rejSync : Bool := false
  fresh : Bool := false
  /-- SHED frames with FRACTION 1.0 still to be sent after a restoration (R388). -/
  unshed : Nat := 0
  /-- Frames sent in this plan cycle, SYNC apart. -/
  sent : Nat := 0
deriving DecidableEq, Repr

/-- An open session of YRA or YML (R382, R530): role, enclave slot of its key, highest counter accepted, the last answer
kept for a repeated counter, the instant of the last valid request. -/
structure Session where
  id : Nat
  role : Role
  slot : Nat
  ctr : Option Nat := none
  lastReply : Option OutMsg := none
  lastAt : Nat := 0
deriving DecidableEq, Repr

/-- An OPEN that was answered and waits for its PROVE (R382). -/
structure Opening where
  session : Nat
  role : Role
  slot : Nat
  hostNonce : Bytes
  nonce : Bytes
  openedAt : Nat
deriving DecidableEq, Repr

/-- Ethernet, PRP, YRA and YSP (spec/13) and the ETH_ registers. -/
structure Eth where
  port0 : Port := {}
  port1 : Port := {}
  /-- PRP: the duplicate table (source address, sequence number, instant), own sequence number, last supervision frame. -/
  dups : List (Nat × Nat × Nat) := []
  prpSeq : Nat := 0
  supAt : Option Nat := none
  prpDup : Nat := 0
  prpErr : Nat := 0
  /-- Reassembly buffers: datagram and start (R367). -/
  reasm : List (Nat × Nat) := []
  sessions : List Session := []
  opening : List Opening := []
  authFail : Nat := 0
  yspRx : Nat := 0
  yspTx : Nat := 0
  yspRej : Nat := 0
  yspLast : Nat := 0
  sel : Nat := 0
  subs : Table YspSub := []
  /-- The NCLAIM under which frames are sent now. -/
  nclaim : Nat := 0
deriving DecidableEq, Repr

/-- A domain slot of network time (R372 to R380). Clocks count 2^-28 ns. -/
structure PtpSlot where
  /-- Clock value at `at_`, and the addend it advances by per control-plane cycle. -/
  clk : Nat := 0
  at_ : Nat := 0
  addend : Nat := 0xA0000000
  servoOff : Bool := false
  /-- Best master: port and data set (R374). -/
  master : Option (Nat × List Nat) := none
  /-- The instant of the master's last Announce. -/
  heardAt : Nat := 0
  /-- currentUtcOffset of the master's Announce messages, in s (R425). -/
  utcOfs : Int := 0
  locked : Bool := false
  /-- The slot has been locked in this run; since when it is locked. -/
  wasLocked : Bool := false
  lockedAt : Nat := 0
  /-- Consecutive offsets below 1 us; an offset has been taken since acquisition; the last Sync's instant, t1 and t2. -/
  small : Nat := 0
  acquired : Bool := false
  syncAt : Nat := 0
  t1 : Int := 0
  t2 : Int := 0
  theta : Int := 0
  /-- Filtered mean path delay and the integral I, exact. -/
  delta : Option Dy := none
  integral : Dy := {}
  /-- An armed load: the instant it was committed and the seconds (R380). -/
  armed : Option (Nat × Nat) := none
  dseq : Nat := 0
deriving DecidableEq, Repr

/-- Network time (spec/13) and the PTP_ registers. -/
structure Ptp where
  slot0 : PtpSlot := {}
  slot1 : PtpSlot := {}
  use : Nat := 0
  /-- The offset O in 10^-8 * 2^-28 ns at `ofsAt` (R377). -/
  ofs : Int := 0
  ofsAt : Nat := 0
  stepped : Bool := false
  switchSeen : Bool := false
  tsqDrop : Nat := 0
  /-- Capture banks by source code * 3 + clock: seconds and nanoseconds (R379). -/
  banks : Table (Nat × Nat) := []
  /-- The transaction in which each source's last capture was taken (R379). -/
  capTxn : Table Nat := []
  loadSl : Word := 0
  loadSh : Word := 0
  loadNs : Word := 0
  loadClock : Nat := 0
deriving DecidableEq, Repr

/-- A receive object (R399, R400, R405). -/
structure CanObj where
  data : Bytes := []
  fd : Bool := false
  brs : Bool := false
  esi : Bool := false
  lost : Bool := false
  stored : Bool := false
  frames : Nat := 0
  lastAt : Option Nat := none
  /-- Epoch of receipt. -/
  epoch : Nat := 0
  stale : Bool := true
  quar : Bool := false
  clashes : Nat := 0
  /-- Consecutive frames without error. -/
  good : Nat := 0
deriving DecidableEq, Repr

/-- A mailbox (R401, R403): state 0 IDLE, 1 PENDING, 2 ACTIVE; a further request held; a cancel that came while ACTIVE. -/
structure CanMb where
  state : Nat := 0
  held : Bool := false
  cancel : Bool := false
  result : Nat := 0
  data : Bytes := []
  /-- Data of the last pour, for change requests. -/
  last : Bytes := []
deriving DecidableEq, Repr

/-- A CAN controller. -/
structure CanCtl where
  /-- 0 off; 1 integrating; 2 error active; 3 error passive; 4 bus-off; 5 asleep; 6 bus monitoring. -/
  state : Nat := 0
  tec : Nat := 0
  rec_ : Nat := 0
  lastErr : Nat := 0
  boff : Nat := 0
  boffAt : Nat := 0
  recovering : Bool := false
  sleepDue : Bool := false
  rx : Nat := 0
  tx : Nat := 0
  lostN : Nat := 0
  clash : Nat := 0
  ign : Nat := 0
  wakes : Nat := 0
  wakeCause : Nat := 0
  wakeSeen : Bool := false
  lostSeen : Bool := false
  clashSeen : Bool := false
  boffSeen : Bool := false
deriving DecidableEq, Repr

/-- CAN FD (spec/14) and the CAN_ registers. Objects by controller * 2048 + identifier, mailboxes by controller * 64 + number. -/
structure Can where
  ctls : Table CanCtl := []
  objs : Table CanObj := []
  mbs : Table CanMb := []
  objCtrl : Nat := 0
  objId : Nat := 0
  mbCtrl : Nat := 0
  mbNo : Nat := 0
  collide : Nat := 0
deriving DecidableEq, Repr


/-- A time stamp of the backup domain: sub-second counts since 1970 (seconds * 32768 + sub), absent or present. -/
abbrev Stamp := Option Nat

/-- An alarm of the backup domain (R427 to R430). -/
structure Alarm where
  conf : Bool := false
  periodic : Bool := false
  wake : Bool := false
  at_ : Nat := 0
  period : Nat := 0
  tag : Nat := 0
  armed : Bool := false
  /-- The next instant, in seconds, and the latest instant fired. -/
  next : Nat := 0
  lastFired : Option Nat := none
  /-- Fired in BACKUP: journal entry and tag pulse follow at the next epoch 0 (R428). -/
  owed : Bool := false
  /-- The next firing carries LATE (a one-shot armed after its instant, R430). -/
  late : Bool := false
deriving DecidableEq, Repr

/-- What a CLK capture latched (R417): counts, local offset in minutes, DST, weekday, minute of the day. -/
structure ClkCapture where
  counts : Nat := 0
  valid : Bool := false
  ofsMin : Int := 0
  dst : Bool := false
  wday : Nat := 0
  minute : Nat := 0
deriving DecidableEq, Repr

/-- Calendar and backup domain (spec/15) and the CLK_ registers. -/
structure Clk where
  /-- The calendar: seconds * 32768 + sub-second count (R414). -/
  counts : Nat := 0
  /-- Part of the next backup-clock cycle that has run, in ns * 32768 (below 10^9). -/
  phase : Nat := 0
  /-- The trim accumulator in 2^-24 counts (R423). -/
  trimAcc : Int := 0
  invalid : Bool := true
  battLow : Bool := false
  refLost : Bool := false
  stepSeen : Bool := false
  /-- Temperature term and R in Q16.16 ppm, temperature in Q16.16 degrees C. -/
  trimT : Int := 0
  trimR : Int := 0
  temp : Int := 0
  vbakMv : Nat := 0
  onVbak : Bool := false
  /-- The move to VBAK is still to be journalled (R538 code 8). -/
  owedLoss : Bool := false
  curve : List Int := [0, 0, 0, 0, 0, 0, 0, 0, 0]
  /-- Capture banks of YRA, YML and the debug port. -/
  capYra : ClkCapture := {}
  capYml : ClkCapture := {}
  capDbg : ClkCapture := {}
  /-- The transaction in which each source captured last (R417). -/
  capTxn : Table Nat := []
  /-- Load bank and a pending ARM (seconds). -/
  loadSl : Word := 0
  loadSh : Word := 0
  loadSub : Word := 0
  armed : Option Nat := none
  /-- A step due at the next second boundary: to the PTP reference (R425), or by a difference in counts to the active unit
  (R416). -/
  autoStep : Bool := false
  pairStep : Option Int := none
  /-- The counts at which ARM was committed, and at which each of these steps was asked for: the second boundary comes after. -/
  armedAt : Nat := 0
  autoAt : Nat := 0
  pairAt : Nat := 0
  bound : Stamp := none
  loss : Stamp := none
  ret : Stamp := none
  tamp : Stamp := none
  tampSrc : Nat := 0
  /-- Tamper inputs: samples low in succession (at most 2), active now (R431). -/
  low0 : Nat := 0
  low1 : Nat := 0
  active0 : Bool := false
  active1 : Bool := false
  fired : Nat := 0
  late : Nat := 0
  rep : Nat := 0
  alarms : Table Alarm := []
  bkp : Table Word := []
  /-- Reference window (R424, R425): which reference, its start in calendar seconds, the channel's edge count and
  the difference to PTP in counts at its start. -/
  winRef : Nat := 0
  winStart : Nat := 0
  winBase : Nat := 0
  winDiff : Int := 0
  /-- Calendar second of the last valid window (R426), and whether its 24 h have passed. -/
  lastValid : Nat := 0
  timedOut : Bool := false
  /-- The active unit's latched value for the coming pour, in a pair (R416). -/
  pairValue : Option Nat := none
  /-- The local offset was with daylight saving at the last look (R422). -/
  dst : Bool := false
deriving DecidableEq, Repr

/-- A key slot (R442): class, use bits, sealed, replacements since PROVISION, contents. -/
structure KeySlot where
  cls : Nat := 0
  use : Nat := 0
  held : Bool := false
  gen : Nat := 0
  key : Bytes := []
deriving DecidableEq, Repr

/-- The Owner material (R441): KEK, slots 2 to 8 and 13, Owner settings, generation, the sealing identity it was sealed
under. -/
structure OwnerMaterial where
  kek : Bytes
  keys : Table Bytes
  legacy : Bool := false
  tamperRun : Nat := 0
  partialDbg : Bool := true
  generation : Nat := 1
  sealedUnder : Bytes
deriving DecidableEq, Repr

/-- A running signed command (R446, R449): its bytes and where it came from. -/
structure SecRun where
  bytes : Bytes
  src : Source
  role : Role
  startedAt : Nat
  session : Nat := 0
deriving DecidableEq, Repr

/-- The Zhev enclave (spec/16): lifecycle, slots, measurements, commands, debug, tamper, and the SEC_ registers. -/
structure Sec where
  lifecycle : Lifecycle := .manufacture
  serial : Nat := 0
  /-- Owner records of OTP, oldest first, at most four (R435): OWNER_ID and public key. -/
  ownerRecords : List (Bytes × Bytes) := []
  /-- The owner record in force is the last one, when set. -/
  ownerInForce : Bool := false
  /-- The root-secret helper data is intact (it is overwritten at SCRAP, R436). -/
  helperOk : Bool := true
  vendorSecret : Bytes := []
  /-- OTP: digests of the Vendor production and test firmware keys, the Vendor debug key (R435, R439). -/
  fwProd : Bytes := []
  fwTest : Bytes := []
  dbgPub : Bytes := []
  slots : Table KeySlot := []
  slotGen : Table Nat := []
  material : Option OwnerMaterial := none
  ownerOpen : Bool := false
  /-- The Owner material is kept unopened after an activation in BACKUP or during LOAD (R464, R81). -/
  ownerHeld : Bool := false
  keysOk : Bool := false
  bootFail : Bool := false
  failCause : Nat := 0
  /-- Slots were never filled or were cleared by tamper (R463, ZEROISE), so TAMPER_ACK passes through a reset (R467). -/
  slotsLost : Bool := false
  /-- MR0 to MR6, 48 bytes each, once extended in this BOOT (R438). -/
  mr : List Bytes := []
  sid : Bytes := []
  /-- Debug (R455, R456). -/
  debug : Nat := 0
  openNext : Bool := false
  challenge : Option (Bytes × Nat) := none
  chalShown : Bool := false
  dbgFails : Nat := 0
  lockout : Bool := false
  lastBurst : Nat := 0
  /-- Tamper bits of SEC_TAMPER, in the backup domain (R462 to R467). -/
  tStart : Bool := false
  tLoad : Bool := false
  tSleep : Bool := false
  tRun : Bool := false
  tKeyop : Bool := false
  ackPending : Bool := false
  tamperCount : Nat := 0
  /-- Activations in BACKUP whose journal record follows at the next epoch 0 (R462): inputs. -/
  owedTamper : List Nat := []
  locked : Bool := false
  armedCopy : Bool := false
  /-- Signed commands. -/
  cmdSeq : Nat := 0
  cmdWin : Table Word := []
  cmdState : Nat := 0
  cmdResult : Nat := 0
  cmdCode : Nat := 0
  cmdResSeq : Nat := 0
  running : Option SecRun := none
  /-- Attestation (R458); `attRun` holds the commit epoch of a request under way, its message and the instant of GO. -/
  attChal : Table Word := []
  attState : Nat := 0
  attEpoch : Nat := 0
  attMac : List Word := []
  attRun : Option (Nat × Bytes × Nat) := none
  slotSel : Nat := 0
  mrSel : Nat := 0
  cmdFail : Nat := 0
  denied : Nat := 0
  collide : Nat := 0
  useDeny : Nat := 0
  /-- Requests drawn from the random bit generator since it was reseeded (R445). -/
  drbgRequests : Nat := 0
  /-- Slot-cache use order for slots 32 to 63, least recently used first (R461). -/
  cacheOrder : List Nat := []
deriving DecidableEq, Repr

/-- The sources of a module reset (R477), in the order of their codes 1 to 5. -/
inductive ResetSource where
  | warmSw | watchdog | resetN | coldSw | powerOn
deriving DecidableEq, Repr

/-- A reset that was commanded and waits for its execution (R484, R485). -/
structure PendingReset where
  /-- 1 warm, 2 cold; 0 for a block reset. -/
  module : Nat := 0
  /-- Bits of R485. -/
  blocks : Nat := 0
  /-- RST_CAUSE.DETAIL: 0 register command, 1 YML command. -/
  detail : Nat := 0
  /-- The instant of execution. -/
  due : Nat := 0
deriving DecidableEq, Repr

/-- Power, reset and modes (spec/17): the PWR_ and RST_ registers, the supplies, the reset controller, the mode. -/
structure Pwr where
  /-- PWR_MODE.MODE; 1 (BOOT) after reset. -/
  mode : Mode := .boot
  /-- The mode that the last reset ended, journalled when BOOT starts (R538 code 6); BACKUP before the first start. -/
  lastMode : Mode := .backup
  /-- PWR_MODE.SAFE_CAUSE. -/
  safeCause : Nat := 0
  /-- The mode UPDATE was entered from (R495). -/
  beforeUpdate : Mode := .active
  /-- PWR_START.START_MODE, kept in the settings. -/
  startMode : Bool := false
  /-- The START_MODE read at the last LOAD is still in force (until the first RUN command, R493). -/
  startCommission : Bool := false
  /-- A mode command committed at the last boundary and its source, with the arbitration of R496 still to come. -/
  modeCmd : Option (Nat × Source) := none
  /-- Supplies in mV, and V_avg of R470 in mV. -/
  vsupMv : Nat := 0
  vfldMv : Nat := 0
  vAvgMv : Nat := 0
  vfldOk : Bool := false
  /-- The module is powered: VSUP present and rails in regulation (R469). -/
  powered : Bool := true
  /-- The power-fail warning (R470): in force, seen, end of the last one. -/
  pfw : Bool := false
  pfwSeen : Bool := false
  pfwEndAt : Option Nat := none
  /-- The instant of the warning; the journal is closed 4 ms later (R471). -/
  pfwAt : Nat := 0
  holdNone : Bool := false
  pfwCount : Nat := 0
  pfwRecovered : Nat := 0
  /-- PWR_STRAP: code, validity, ratio in per mille (R474 to R476). -/
  strapCode : Nat := 2
  strapValid : Bool := false
  strapRatio : Nat := 0
  /-- The code of the latest conversion of the STRAP pin is read at BOOT_START only. -/
  strapRead : Bool := false
  /-- The sources asserted now, and those seen during the reset in progress or the last one (R480). -/
  active : List ResetSource := []
  sources : List ResetSource := [.powerOn]
  /-- RST_CAUSE.DETAIL. -/
  detail : Nat := 0
  /-- A module reset is held; its reach is cold; outputs are held (R481). -/
  inReset : Bool := false
  resetCold : Bool := true
  /-- The instant of the last release, when BOOT has not started yet (R479). -/
  releasedAt : Option Nat := some 0
  bootStarted : Bool := false
  bootAt : Nat := 0
  pendModule : Option PendingReset := none
  pendBlocks : List PendingReset := []
  /-- RST_BLK_CNT0 F0 to F3 and RST_BLK_CNT1 F0 to F3. -/
  blkCp : Nat := 0
  blkLockstep : Nat := 0
  blkFwWatchdog : Nat := 0
  blkSolver : Nat := 0
  blkAsm : Nat := 0
  blkEth : Nat := 0
  blkCan : Nat := 0
  blkMgt : Nat := 0
  warmCount : Nat := 0
  coldCount : Nat := 0
  /-- The control processor runs (it restarts about 120 ms after a CP reset). -/
  cpRunning : Bool := true
deriving DecidableEq, Repr

/-- The per-source bank of the update registers (R505): stream offset, window, the last reply to this source. -/
structure UpdBank where
  ofs : Nat := 0
  win : Table Word := []
  result : Nat := 0
  holder : Nat := 0
  role : Nat := 0
  kind : Nat := 0
  stage : Nat := 0
  version : Nat := 0
deriving DecidableEq, Repr

/-- The held update (R506 to R516). `stage` has the codes of UPD_STATUS.STAGE. -/
structure UpdLock where
  src : Source
  session : Nat := 0
  role : Role
  kind : Nat
  version : Nat
  header : Bytes
  area : Nat := 0
  received : Bytes := []
  stage : Nat := 2
  lastChunkAt : Nat := 0
  swapHeld : Bool := false
  /-- What holds the swap point beside HOLD_SWAP: 0 nothing, 1 ISLAND (R516), 2 a TAKING of this module (R522). -/
  hold : Nat := 0
  /-- Components of a bundle still to be installed, in the order of R511. -/
  todo : List Nat := []
  /-- Components already installed. -/
  done : List Nat := []
  /-- The running image of the component being written is no longer the old one (R511 step 2, R513). -/
  erased : Option Nat := none
deriving DecidableEq, Repr

/-- What the settings regions of the NOR hold (R497, R441, every register whose Reset is "settings" but those of FRAM). Retirements stand
apart from them (R478). -/
structure Settings where
  material : Option OwnerMaterial := none
  slotGen : Table Nat := []
  cmdSeq : Nat := 0
  tamperCount : Nat := 0
  fwFloor : Nat := 0
  seqFloor : Nat := 0
  startMode : Bool := false
  cfgSpeed : Nat := 0
  pfwCount : Nat := 0
  pfwRecovered : Nat := 0
  warmCount : Nat := 0
  coldCount : Nat := 0
  savedDigest : Bytes := []
  savedSets : Table (Table Word) := []
  ce : Table Nat := []
  katFail : Table Nat := []
  residue : Table Nat := []
  /-- System calibrations of the channels, life records of the slices: visits, stuck, drift. -/
  cals : Table SysCal := []
  slices : Table (Nat × Nat × Nat) := []
deriving DecidableEq, Repr

/-- A trial (R517 to R519). -/
structure Trial where
  trialS : Nat
  hostConfirm : Bool
  confirmed : Bool := false
  comps : List Nat
  /-- The reset of the swap is still to come; the end of the first BOOT, from which the trial counts. -/
  fresh : Bool := true
  since : Option Nat := none
  resets : Nat := 0
  selftestPassed : Bool := false
  shadowOk : Bool := false
  version : Nat := 0
  /-- The settings as the trial found them; its own changes go to the shadow area alone (R518). -/
  old : Settings := {}
deriving DecidableEq, Repr

/-- Firmware and casting update (spec/18): regions of the NOR, the lock, the trial, the UPD_ registers. -/
structure Upd where
  bankYra : UpdBank := {}
  bankYml : UpdBank := {}
  bankDbg : UpdBank := {}
  lock : Option UpdLock := none
  /-- UPD_STATUS.LAST, UPD_DETAIL. -/
  last : Nat := 0
  detailCode : Nat := 0
  detailComp : Nat := 0
  trial : Option Trial := none
  collide : Nat := 0
  /-- Running and fallback images of the components 0 MGT, 1 LMC, 2 CP, 3 PHY (R497), and the sprue image. -/
  runImg : Table Bytes := []
  fbImg : Table Bytes := []
  sprue : Bytes := []
  /-- Coupling protocol version of the running firmware and of its fallback, major in [15:8], minor in [7:0] (R341, CPL_VER of R500). -/
  cplVer : Nat := 256
  fbCplVer : Nat := 256
  fwFloor : Nat := 0
  /-- Spare NOR sectors of 4 KiB left of 3.2 MiB (R497, R498). -/
  spareSectors : Nat := 819
  /-- A component update whose installation a reset interrupted (the install record, R513). -/
  installRec : Option UpdLock := none
deriving DecidableEq, Repr

/-- A record of the event journal (R537). `epoch` none stands for all ones. -/
structure JRec where
  jseq : Nat
  runId : Word
  epoch : Option Nat
  sec : Nat
  sub : Nat
  timeValid : Bool
  event : Nat
  incomplete : Bool := false
  alarm : Bool := false
  data : Bytes
deriving DecidableEq, Repr

/-- The management controller (spec/19): port, sessions, journal, and the MGT_ registers. -/
structure Mgt where
  sessions : List Session := []
  opening : List Opening := []
  /-- MGT_STATUS.SPEED in use; MGT_CFG.SPEED in the settings; a change waiting its 10 ms (R527). -/
  speed : Nat := 0
  cfgSpeed : Nat := 0
  speedDue : Option Nat := none
  rx : Nat := 0
  tx : Nat := 0
  crcErr : Nat := 0
  framingErr : Nat := 0
  jfail : Nat := 0
  authFail : Nat := 0
  jsel : Word := 0
  /-- The journal, oldest record first, at most 2,048; the JSEQ of the next record (R537). -/
  journal : List JRec := []
  jnext : Nat := 1
  /-- The instant the management controller started (MGT_UP_S of R536). -/
  startedAt : Nat := 0
deriving DecidableEq, Repr

/-- SYS_WERR_AT (R543): address, source (0 internal, 1 YRA, 2 YML, 3 debug port), cause. -/
structure WerrAt where
  addr : Nat := 0
  source : Nat := 0
  cause : Nat := 0
  /-- Its place in the commit order (R41): the closing instant, then the source. -/
  order : Nat := 0
deriving DecidableEq, Repr

/-- Clocks, write errors, temperature and DRAM rows (spec/01, spec/20): the SYS_ registers. -/
structure Sys where
  stepping : Nat := 0
  werr : Nat := 0
  werrAt : WerrAt := {}
  werrSeen : Bool := false
  /-- SYS_CLK (R20 to R23). -/
  xtalOk : Bool := false
  reserveOsc : Bool := false
  cruRun : Bool := false
  eth0Clk : Bool := false
  eth1Clk : Bool := false
  canClk : Bool := false
  cplClk : Bool := false
  dramSr : Bool := false
  /-- The last module reset release, for SYS_UPTIME. -/
  releaseAt : Nat := 0
  /-- Temperatures in 0.1 degree C (R545). -/
  tempModule : Int := 0
  tempDie : Int := 0
  overtemp : Bool := false
  /-- SYS_DRAM and the rows behind it (R544): corrected errors per row over the module's life, rows retired. -/
  dramCe : Nat := 0
  dramSpares : Nat := 64
  dramRetired : Nat := 0
  dramRowCe : Table Nat := []
  dramRows : List Nat := []
  dramWaiting : List Nat := []
  dramNoSpare : Bool := false
  dramSwapSeen : Bool := false
deriving DecidableEq, Repr

/-- All blocks of the device as they run. A pour copies it into a bank. -/
structure Core where
  /-- Clocks, write errors, DRAM rows (spec/01, spec/20). -/
  sys : Sys := {}
  /-- Epochs (spec/02). -/
  epc : Epc := {}
  /-- The casting (spec/03). -/
  cst : Cst := {}
  /-- The assembler (spec/04). -/
  asm : Asm := {}
  /-- The solver array (spec/05). -/
  slv : Slv := {}
  /-- Plans, fallback, ISLAND (spec/06). -/
  pln : Pln := {}
  /-- The loop engine (spec/07). -/
  lpe : Lpe := {}
  /-- The logic engine (spec/08). -/
  lgc : Lgc := {}
  /-- Field channels (spec/09). -/
  fch : Fch := {}
  /-- Fan and pump drivers (spec/10). -/
  fan : Fan := {}
  /-- Energy accounting (spec/11). -/
  nrg : Nrg := {}
  /-- The pair (spec/12). -/
  par : Par := {}
  /-- Ethernet, PRP, YRA, YSP (spec/13). -/
  eth : Eth := {}
  /-- Network time (spec/13). -/
  ptp : Ptp := {}
  /-- CAN FD (spec/14). -/
  can : Can := {}
  /-- Calendar and backup domain (spec/15). -/
  clk : Clk := {}
  /-- The enclave (spec/16). -/
  sec : Sec := {}
  /-- Power, reset, modes (spec/17). -/
  pwr : Pwr := {}
  /-- Update (spec/18). -/
  upd : Upd := {}
  /-- Management (spec/19). -/
  mgt : Mgt := {}
deriving DecidableEq, Repr

/-- A bank of the coherent state store (R28): the epoch it carries and every block as it was poured. -/
structure Bank where
  epoch : Nat
  core : Core
deriving DecidableEq, Repr

/-- The whole machine. -/
structure State where
  /-- Commands that wait, first in, first out (the host's interface; the step takes the front). -/
  pending : List Instr := []
  /-- What the block has put on its lines since the last idle step, oldest first (log entry 3). -/
  out : List OutMsg := []
  /-- Time in ns since an arbitrary origin; an idle step adds one 100 MHz cycle (log entry 2). -/
  now : Nat := 0
  /-- THE MODEL'S OWN: how many free values have been used; the n-th is an opaque constant applied to n (log entry 4). -/
  freeCtr : Nat := 0
  /-- The published bank (R28); none before the first pour of a run (R452). -/
  pub : Option Bank := none
  /-- The bank being prepared, between a boundary and the end of its pour (R29). -/
  prep : Option Bank := none
  /-- The bank of the epoch before, intact until it is reclaimed (R35). -/
  prev : Option Bank := none
  /-- Open transactions (R34). -/
  txns : List Txn := []
  /-- The number the next transaction gets. -/
  nextTxn : Nat := 1
  /-- Writes staged for the coming epoch, in the order of commit (R37, R41). -/
  staged : List Staged := []
  /-- The blocks, live. -/
  live : Core := {}
deriving DecidableEq, Repr

/-- Why the block stops with a fault. No command of this block does: every condition the spec calls a fault is an effect
on the state. -/
inductive Fault where
  /-- Raised by nobody; the spec describes no condition that stops the block. Safe. -/
  | never
deriving DecidableEq, Repr

/-- Why a command is refused. -/
inductive Refusal where
  /-- Answered by a dispatch arm whose command has no meaning yet. Safe: nothing is claimed of it. -/
  | notModelled (mnemonic : String)
deriving DecidableEq, Repr

/-- The machine right after a cold reset whose last source, the power-on reset, has just been released (R469, R479): BOOT
starts 50 us later. No command waits, no bank is published, every register holds its reset value. -/
def State.reset : State := {}

end Sys2Proof.Machine
end

