-- ==== Sys2Proof/Machine/Ops.lean ====
section
/-! DEFINITION. The named operations the meanings are written over: tables, changes of one block, free values, frames
sent, the journal, counted writes, codes of modes and roles. -/

namespace Sys2Proof.Machine

open Sys2Proof

/-! Tables keyed by number, kept in rising order of key. -/

/-- The record of a key, if it is listed. -/
def tfind {α : Type} : Table α → Nat → Option α
  | [], _ => none
  | (k, v) :: t, n => if k = n then some v else tfind t n

/-- The record of a key, the default where it is not listed. -/
def tget {α : Type} (t : Table α) (n : Nat) (d : α) : α := (tfind t n).getD d

/-- A record set, the keys staying in rising order. -/
def tset {α : Type} : Table α → Nat → α → Table α
  | [], n, v => [(n, v)]
  | (k, w) :: t, n, v => if n < k then (n, v) :: (k, w) :: t else if n = k then (n, v) :: t else (k, w) :: tset t n v

/-- A record removed. -/
def tdel {α : Type} (t : Table α) (n : Nat) : Table α := t.filter fun p => p.1 ≠ n

/-- A list sorted, equal elements keeping their order. -/
def insertBy {α : Type} (le : α → α → Bool) (x : α) : List α → List α
  | [] => [x]
  | y :: ys => if le x y then x :: y :: ys else y :: insertBy le x ys
def sortBy {α : Type} (le : α → α → Bool) (l : List α) : List α := l.foldr (insertBy le) []

/-- A record changed. -/
def tmod {α : Type} (t : Table α) (n : Nat) (d : α) (f : α → α) : Table α := tset t n (f (tget t n d))


/-- The state with block sys changed. -/
def State.modSys (s : State) (f : Sys → Sys) : State :=
  { s with live := { s.live with sys := f s.live.sys } }

/-- The state with block epc changed. -/
def State.modEpc (s : State) (f : Epc → Epc) : State :=
  { s with live := { s.live with epc := f s.live.epc } }

/-- The state with block cst changed. -/
def State.modCst (s : State) (f : Cst → Cst) : State :=
  { s with live := { s.live with cst := f s.live.cst } }

/-- The state with block asm changed. -/
def State.modAsm (s : State) (f : Asm → Asm) : State :=
  { s with live := { s.live with asm := f s.live.asm } }

/-- The state with block slv changed. -/
def State.modSlv (s : State) (f : Slv → Slv) : State :=
  { s with live := { s.live with slv := f s.live.slv } }

/-- The state with block pln changed. -/
def State.modPln (s : State) (f : Pln → Pln) : State :=
  { s with live := { s.live with pln := f s.live.pln } }

/-- The state with block lpe changed. -/
def State.modLpe (s : State) (f : Lpe → Lpe) : State :=
  { s with live := { s.live with lpe := f s.live.lpe } }

/-- The state with block lgc changed. -/
def State.modLgc (s : State) (f : Lgc → Lgc) : State :=
  { s with live := { s.live with lgc := f s.live.lgc } }

/-- The state with block fch changed. -/
def State.modFch (s : State) (f : Fch → Fch) : State :=
  { s with live := { s.live with fch := f s.live.fch } }

/-- The state with block fan changed. -/
def State.modFan (s : State) (f : Fan → Fan) : State :=
  { s with live := { s.live with fan := f s.live.fan } }

/-- The state with block nrg changed. -/
def State.modNrg (s : State) (f : Nrg → Nrg) : State :=
  { s with live := { s.live with nrg := f s.live.nrg } }

/-- The state with block par changed. -/
def State.modPar (s : State) (f : Par → Par) : State :=
  { s with live := { s.live with par := f s.live.par } }

/-- The state with block eth changed. -/
def State.modEth (s : State) (f : Eth → Eth) : State :=
  { s with live := { s.live with eth := f s.live.eth } }

/-- The state with block ptp changed. -/
def State.modPtp (s : State) (f : Ptp → Ptp) : State :=
  { s with live := { s.live with ptp := f s.live.ptp } }

/-- The state with block can changed. -/
def State.modCan (s : State) (f : Can → Can) : State :=
  { s with live := { s.live with can := f s.live.can } }

/-- The state with block clk changed. -/
def State.modClk (s : State) (f : Clk → Clk) : State :=
  { s with live := { s.live with clk := f s.live.clk } }

/-- The state with block sec changed. -/
def State.modSec (s : State) (f : Sec → Sec) : State :=
  { s with live := { s.live with sec := f s.live.sec } }

/-- The state with block pwr changed. -/
def State.modPwr (s : State) (f : Pwr → Pwr) : State :=
  { s with live := { s.live with pwr := f s.live.pwr } }

/-- The state with block upd changed. -/
def State.modUpd (s : State) (f : Upd → Upd) : State :=
  { s with live := { s.live with upd := f s.live.upd } }

/-- The state with block mgt changed. -/
def State.modMgt (s : State) (f : Mgt → Mgt) : State :=
  { s with live := { s.live with mgt := f s.live.mgt } }

/-! Free values, random numbers, frames, the journal. -/

/-- The number of the next free value, and the state after it was used (log entry 4). -/
def State.draw (s : State) : Nat × State := (s.freeCtr, { s with freeCtr := s.freeCtr + 1 })

/-- A number below `2 ^ w` from the enclave's random bit generator (R445), and the state after the request. -/
def State.random (s : State) (w : Nat) : Nat × State :=
  (Config.random s.freeCtr % 2 ^ w,
    { (s.modSec fun x => { x with drbgRequests := x.drbgRequests + 1 }) with freeCtr := s.freeCtr + 1 })

/-- A message put on the block's lines. -/
def State.send (s : State) (m : OutMsg) : State := { s with out := s.out ++ [m] }

/-- Whether `d` ns have passed since the instant `t`. -/
def State.elapsed (s : State) (t d : Nat) : Bool := decide (t + d ≤ s.now)

/-- The calendar second and sub-second count (R414). -/
def State.calSec (s : State) : Nat := s.live.clk.counts / 32768
def State.calSub (s : State) : Nat := s.live.clk.counts % 32768

/-- The most records the journal ring holds (R537). -/
def journalMax : Nat := 2048

/-- A record appended to the event journal (R537, R538): run identifier and epoch at writing, calendar time, event, data. -/
def State.journal (s : State) (event : Nat) (data : Bytes) (alarm : Bool := false) : State :=
  let r : JRec := {
    jseq := s.live.mgt.jnext
    runId := if s.live.epc.served then s.live.epc.runId else 0
    epoch := if s.live.epc.served then some s.live.epc.epoch else none
    sec := s.calSec
    sub := s.calSub
    timeValid := !s.live.clk.invalid
    event := event
    alarm := alarm
    data := data.take 16 ++ List.replicate (16 - data.length) 0 }
  s.modMgt fun m => { m with
    jnext := m.jnext + 1
    journal := (m.journal ++ [r]).drop (m.journal.length + 1 - journalMax) }

/-! Codes. -/

/-- The mode codes of R491. -/
def Mode.code : Mode → Nat
  | .backup => 0 | .boot => 1 | .load => 2 | .commission => 3 | .active => 4 | .standby => 5 | .handover => 6
  | .degraded => 7 | .island => 8 | .tune => 9 | .update => 10 | .safehold => 11

/-- The lifecycle codes of R435. -/
def Lifecycle.code : Lifecycle → Nat
  | .manufacture => 0 | .provisioned => 1 | .deployed => 2 | .returned => 3 | .scrapped => 4

/-- The role codes of R433. -/
def roleCode : Role → Nat
  | .nobody => 0 | .owner => 1 | .integrator => 2 | .operator => 3 | .service => 4 | .vendor => 5

/-- The role of a code of R433; NONE where there is none. -/
def roleOfCode : Nat → Role
  | 1 => .owner | 2 => .integrator | 3 => .operator | 4 => .service | 5 => .vendor | _ => .nobody

/-- The SOURCE codes of SYS_WERR_AT, which are also the HOLDER codes of UPD_STATUS. -/
def srcCode : Source → Nat
  | .dp => 0 | .yra => 1 | .yml => 2 | .dbg => 3

/-- The CAUSE codes of SYS_WERR_AT. -/
def WerrCause.code : WerrCause → Nat
  | .reserved => 1 | .readOnly => 2 | .value => 3 | .zero => 4 | .state => 5

/-- The outcome codes of R45. -/
def TxnOutcome.code : TxnOutcome → Nat
  | .ok => 0 | .partialDrop => 1 | .stale => 2 | .full => 3 | .tooLong => 4 | .notActive => 5 | .denied => 6
  | .notServed => 7

/-- The codes of R477. -/
def ResetSource.code : ResetSource → Nat
  | .warmSw => 1 | .watchdog => 2 | .resetN => 3 | .coldSw => 4 | .powerOn => 5

/-- A write that is ignored or dropped, counted (R543): SYS_WERR, SYS_WERR_AT, WERR_SEEN. -/
def State.werr (s : State) (addr : Nat) (src : Source) (cause : WerrCause) : State :=
  s.modSys fun x => { x with
    werr := sat32 x.werr
    werrAt := { addr := addr, source := srcCode src, cause := cause.code, order := s.now * 4 + srcCode src }
    werrSeen := true }

/-! Modes. -/

/-- HAND may be set (R214, R277): in COMMISSION; in a standby whose active unit reports COMMISSION, for what it forwards (R355). -/
def Core.handMode (k : Core) : Bool :=
  k.pwr.mode = .commission || (k.pwr.mode = .standby && k.par.pstate ≠ 0 && k.par.partner.mode = 3)

/-- The modes in which a casting runs and register transactions follow the RUN rows of R453. -/
def Mode.running : Mode → Bool
  | .commission | .active | .standby | .handover | .degraded | .island | .tune | .update => true
  | _ => false

/-- The modes in which the optimiser runs (R492). -/
def Mode.optimises : Mode → Bool
  | .active | .standby | .handover | .degraded | .island | .tune | .update => true
  | _ => false

/-- A mode entered, and journalled with the old and the new code (R538 code 6). -/
def State.enterMode (s : State) (m : Mode) : State :=
  if s.live.pwr.mode = m then s
  else (s.journal 6 [BitVec.ofNat 8 s.live.pwr.mode.code, BitVec.ofNat 8 m.code]).modPwr fun p => { p with mode := m }

/-! The running casting: sections and records (R54, R56). -/

/-- The records of a section of the running casting, none where it is absent. -/
def Cst.recs (c : Cst) (stype : Nat) : List Rec :=
  match c.sects.find? (fun x => x.stype = stype) with
  | some x => x.recs
  | none => []

/-- The body of the record of a type and index in a section of the running casting. -/
def Cst.rec? (c : Cst) (stype rtype index : Nat) : Option Bytes :=
  ((c.recs stype).find? fun r => r.rtype = rtype ∧ r.index = index).map Rec.body

/-- The SYSTEM record's body (R60); empty before a casting runs, so that its fields read 0. -/
def Cst.system (c : Cst) : Bytes := (c.rec? 0x10 0x101 0).getD []

/-- PAIR_MODE, SCENARIOS, HORIZON_N, STEP_MIN and the other fields of SYSTEM (R60). -/
def Cst.pairMode (c : Cst) : Nat := u8 c.system 2
def Cst.epochRef (c : Cst) : Nat := u8 c.system 3
def Cst.deadline (c : Cst) : Nat := u32 c.system 8
def Cst.stepMin (c : Cst) : Nat := u16 c.system 12
def Cst.horizon (c : Cst) : Nat := u8 c.system 14
def Cst.scenarios (c : Cst) : Nat := u8 c.system 15
def Cst.substations (c : Cst) : Nat := u16 c.system 16
def Cst.iterMax (c : Cst) : Nat := u16 c.system 18
def Cst.selfRefresh (c : Cst) : Bool := (u32 c.system 24).testBit 0
def Cst.hostForecast (c : Cst) : Bool := (u32 c.system 24).testBit 1

end Sys2Proof.Machine
end

