-- ==== Sys2Proof/Machine/Casting.lean ====
section
/-! DEFINITION. The casting's container (spec/03): slot choice, steps 1 to 5 of R79 on the bytes of a slot, the framing of
records (R56), and the table-driven check of a record body that every chapter's layouts use (R85). -/

namespace Sys2Proof.Machine

open Sys2Proof

/-- What LOAD knows of the module when it judges a casting (R63, R65, R66, R68, R71, R75, R77). -/
structure LoadEnv where
  lifecycle : Lifecycle
  legacyOn : Bool
  /-- OWNER_ID and public key of the owner record in force. -/
  owner : Option (Bytes × Bytes)
  /-- The Vendor firmware public key of slot 11. -/
  vendorPub : Bytes
  /-- The Owner casting key of slot 2, when it can be used. -/
  castKey : Option Bytes
  fw : Nat
  floor : Nat
  maxMinor : Nat
deriving DecidableEq, Repr

/-- An entry of the section table (R54), with its place. -/
structure Entry where
  idx : Nat
  ty : Nat
  recVer : Nat
  ofs : Nat
  len : Nat
  count : Nat
  tag : Bytes
  at_ : Nat
deriving DecidableEq, Repr

/-- A casting whose container passed steps 1 to 5: header values, entries with their clear bodies. -/
structure Container where
  legacy : Bool
  fmtMajor : Nat
  fmtMinor : Nat
  seq : Nat
  minFw : Nat
  digest : Bytes
  strict : Bool
  bodies : List (Entry × Bytes)
deriving DecidableEq, Repr

/-- The error codes of R86. -/
def cNoFlash := 1
def cEmpty := 2
def cHeader := 3
def cFormat := 4
def cDevice := 5
def cTable := 6
def cSignature := 7
def cKey := 8
def cTag := 9
def cUnknown := 10
def cDuplicate := 11
def cMissing := 12
def cRecord := 13
def cZero := 14
def cRange := 15
def cRollback := 16
def cFirmware := 17
def cDelegation := 18
def cEncRequired := 19
def cLegacyOff := 20
def cSealedHold := 21

/-- Bytes of a slot; what the list does not hold reads 0xFF, as erased flash does (R76). -/
def flashRead (slot : Bytes) (o n : Nat) : Bytes :=
  let p := slice slot o n
  p ++ List.replicate (n - p.length) 0xFF

/-- R76: a slot is empty when its MAGIC is wrong or its SEQUENCE is 0. -/
def slotEmpty (slot : Bytes) : Bool :=
  u32 (flashRead slot 0 128) 0 ≠ 0x54534359 || u32 (flashRead slot 0 128) 20 = 0

/-- A check: the error where it fails. -/
def need (ok : Bool) (code secType ofs : Nat) : Except CstErr Unit :=
  if ok then .ok () else .error { code := code, secType := secType, ofs := ofs }

/-- The code of a length field: ZERO_FIELD where it holds 0 (R73), HEADER otherwise (log entry 10). -/
def lenCode (v : Nat) : Nat := if v = 0 then cZero else cHeader

/-- Step 1 of R79 for a format 2 header. -/
def checkHeader2 (e : LoadEnv) (h : Bytes) : Except CstErr Unit := do
  need (u16 h 8 = 128) (lenCode (u16 h 8)) 0 8
  need (u32 h 28 = 0x9600) cDevice 0 28
  need (u32 h 16 ≤ 0x800000 ∧ u32 h 16 % 16 = 0 ∧ u32 h 16 ≠ 0) (lenCode (u32 h 16)) 0 16
  need (e.floor ≤ u32 h 20) cRollback 0 20
  need (u32 h 24 ≤ e.fw) cFirmware 0 24
  need (slice h 32 16 = (e.owner.map Prod.fst).getD (List.replicate 16 0)) cDevice 0 32
  need ((u32 h 12).testBit 0 || e.lifecycle = .manufacture) cEncRequired 0 12
  if u16 h 6 ≤ e.maxMinor then do
    need (u32 h 12 / 4 = 0) cHeader 0 12
    need (allZero (slice h 68 60)) cHeader 0 68

/-- Step 1 of R79 for a format 1 header (R75). -/
def checkHeader1 (e : LoadEnv) (h : Bytes) : Except CstErr Unit := do
  need ((e.lifecycle = .provisioned || e.lifecycle = .deployed) && e.legacyOn) cLegacyOff 0 4
  need (u16 h 8 = 64) (lenCode (u16 h 8)) 0 8
  need (u32 h 16 ≤ 0x800000 ∧ u32 h 16 % 16 = 0 ∧ u32 h 16 ≠ 0) (lenCode (u32 h 16)) 0 16
  need (e.floor ≤ u32 h 20) cRollback 0 20
  need (u32 h 12 = 0) cHeader 0 12
  need (allZero (slice h 24 40)) cHeader 0 24

/-- The section types a format 2 and a format 1 casting may hold (R57, R75). -/
def knownSect (legacy : Bool) (ty : Nat) : Bool :=
  if legacy then [0x10, 0x11, 0x30, 0x31, 0x40, 0x41, 0x60, 0x71].contains ty
  else [0x1, 0x10, 0x11, 0x20, 0x21, 0x22, 0x23, 0x24, 0x30, 0x31, 0x40, 0x41, 0x50, 0x60, 0x61, 0x62, 0x70, 0x71,
    0x90].contains ty

/-- Entry `i` of the section table. -/
def entryAt (slot : Bytes) (legacy : Bool) (i : Nat) : Entry :=
  let at_ := if legacy then 64 + 16 * i else 128 + 32 * i
  let b := flashRead slot at_ (if legacy then 16 else 32)
  { idx := i, ty := u16 b 0, recVer := u16 b 2, ofs := u32 b 4, len := u32 b 8, count := u32 b 12
    tag := slice b 16 16, at_ := at_ }

/-- Step 2 of R79, entry by entry: type (R59, also for the skippable types of a format 1 casting: log entry 76), uniqueness, OFFSET and LENGTH (R55). `low` is where the next body may
start, `high` where the signature block starts. -/
def checkEntries (legacy : Bool) (high : Nat) : List Entry → List Nat → Nat → Except CstErr Unit
  | [], _, _ => .ok ()
  | x :: xs, seen, low => do
    need (knownSect legacy x.ty || x.ty.testBit 15) cUnknown x.ty x.at_
    need (!seen.contains x.ty) cDuplicate x.ty x.at_
    need (x.ofs % 16 = 0 ∧ low ≤ x.ofs) cTable x.ty (x.at_ + 4)
    need (x.ofs + x.len ≤ high) cTable x.ty (x.at_ + 8)
    checkEntries legacy high xs (x.ty :: seen) (x.ofs + x.len)

/-- R56: the records of a section body, none where the framing breaks. `fuel` bounds the number of records. -/
def parseRecs : Nat → Bytes → Nat → Option (List Rec)
  | 0, _, _ => none
  | fuel + 1, b, o =>
    if b = [] then some []
    else if b.length < 12 ∨ u32 b 4 % 4 ≠ 0 ∨ b.length < 12 + u32 b 4 then none
    else
      let r : Rec := { rtype := u16 b 0, index := u16 b 2, flags := u32 b 8, body := slice b 12 (u32 b 4), ofs := o }
      (parseRecs fuel (b.drop (12 + u32 b 4)) (o + 12 + u32 b 4)).map (r :: ·)

/-- R62, R63, R70: step 3 of R79 on the clear body of DELEGATION; the Integrator key where it is valid. -/
def checkDelegation (e : LoadEnv) (strict : Bool) (seq : Nat) (ownerId : Bytes) (x : Entry) (b : Bytes) : Except CstErr Bytes :=
  if x.recVer ≠ 1 then .error { code := cFormat, secType := 1, ofs := x.at_ + 2 } else
  match parseRecs (b.length / 12 + 2) b x.ofs with
  | some [r] => do
    need (r.rtype = 1 ∧ r.index = 0 ∧ r.body.length = 140 ∧ x.count = 1 ∧ (!strict ∨ u32 r.body 72 = 0)) cRecord 1 x.ofs
    match e.owner with
    | none => .error { code := cDelegation, secType := 1, ofs := r.ofs + 12 }
    | some (oid, pub) => do
      need (Config.ecdsaVerify pub ((Config.sha384 (slice r.body 0 76)).take 32) (slice r.body 76 64)) cDelegation 1
        (r.ofs + 12 + 76)
      need (u32 r.body 64 ≤ seq ∧ seq ≤ u32 r.body 68) cDelegation 1 (r.ofs + 12 + 64)
      need (oid = ownerId) cDelegation 1 (r.ofs + 12)
      .ok (slice r.body 0 64)
  | _ => .error { code := cRecord, secType := 1, ofs := x.ofs }

/-- The content key of R66. -/
def contentKey (castKey : Bytes) (seq : Nat) (salt : Bytes) : Bytes :=
  Config.hmac castKey (ascii "YCST-CK" ++ leBytes 4 seq ++ salt)

/-- Step 4 of R79: padding and bodies in the order of the stream. -/
def streamBodies (slot : Bytes) (hdr : Bytes) (encrypted : Bool) (castKey : Option Bytes) (high : Nat) :
    List Entry → Nat → Except CstErr (List (Entry × Bytes))
  | [], low => do
    need (allZero (flashRead slot low (high - low))) cTable 0 low
    .ok []
  | x :: xs, low => do
    need (allZero (flashRead slot low (x.ofs - low))) cTable x.ty low
    let raw := flashRead slot x.ofs x.len
    let body ←
      if encrypted && x.ty ≠ 1 then
        match castKey with
        | none => .error { code := cKey, secType := x.ty, ofs := x.ofs }
        | some k =>
          let salt := slice hdr 48 8
          match Config.gcmOpen (contentKey k (u32 hdr 20) salt) (salt.take 6 ++ leBytes 2 x.idx ++ leBytes 4 (u32 hdr 20))
              (hdr ++ flashRead slot x.at_ 16) raw x.tag with
          | none => .error { code := cTag, secType := x.ty, ofs := x.ofs }
          | some p => .ok p
      else .ok raw
    let rest ← streamBodies slot hdr encrypted castKey high xs (x.ofs + x.len)
    .ok ((x, body) :: rest)

/-- Steps 1 to 5 of R79 on a slot's bytes. The reserved bytes of the signature block are checked whatever FMT_MINOR is (log entry 77). -/
def openContainer (e : LoadEnv) (slot : Bytes) : Except CstErr Container := do
  let hdr := flashRead slot 0 128
  need (u32 hdr 0 = 0x54534359) cHeader 0 0
  need (u16 hdr 4 = 2 || u16 hdr 4 = 1) cFormat 0 4
  let legacy : Bool := u16 hdr 4 = 1
  if legacy then checkHeader1 e hdr else checkHeader2 e hdr
  let total := u32 hdr 16
  let sigLen := if legacy then 104 else 128
  let high := total - sigLen
  let n := u16 hdr 10
  need (n ≤ 64) cTable 0 10
  let tableEnd := if legacy then 64 + 16 * n else 128 + 32 * n
  need (tableEnd + sigLen ≤ total) cTable 0 16
  let entries := (List.range n).map (entryAt slot legacy)
  checkEntries legacy high entries [] tableEnd
  let delegated : Bool := !legacy && (u32 hdr 12).testBit 1
  let has := fun t => entries.any fun x => x.ty = t
  need (!delegated || has 1) cMissing 1 0
  need (delegated || !has 1) cTable 1 0
  need (has 0x10) cMissing 0x10 0
  need (has 0x40) cMissing 0x40 0
  need (has 0x71) cMissing 0x71 0
  let intKey ←
    match delegated, entries.find? (fun x => x.ty = 1) with
    | true, some x => checkDelegation e (u16 hdr 6 ≤ e.maxMinor) (u32 hdr 20) (slice hdr 32 16) x (flashRead slot x.ofs x.len)
    | _, _ => .ok []
  let encrypted : Bool := !legacy && (u32 hdr 12).testBit 0
  let bodies ← streamBodies slot hdr encrypted e.castKey high entries tableEnd
  let sig := flashRead slot high sigLen
  let ownKey := (e.owner.map Prod.snd).getD e.vendorPub
  if legacy then do
    let digest := Config.sha256 (flashRead slot 0 high)
    need (u32 sig 0 = 0x47495359 && u32 sig 4 = 0 && slice sig 8 32 = digest
      && Config.ecdsaVerify ownKey digest (slice sig 40 64)) cSignature 0 high
    .ok { legacy := true, fmtMajor := 1, fmtMinor := u16 hdr 6, seq := u32 hdr 20, minFw := 0, digest := digest
          strict := true, bodies := bodies }
  else do
    let digest := Config.sha384 (flashRead slot 0 high)
    let kindOk := (u16 sig 4 = 1 && !delegated) || (u16 sig 4 = 2 && delegated)
    let key := if u16 sig 4 = 2 then intKey else ownKey
    need (u32 sig 0 = 0x47495359 && kindOk && u16 sig 6 = 0 && slice sig 8 48 = digest && u64 sig 120 = 0
      && Config.ecdsaVerify key (digest.take 32) (slice sig 56 64)) cSignature 0 high
    .ok { legacy := false, fmtMajor := 2, fmtMinor := u16 hdr 6, seq := u32 hdr 20, minFw := u32 hdr 24, digest := digest
          strict := u16 hdr 6 ≤ e.maxMinor, bodies := bodies }

/-! Record bodies by table. -/

/-- One rule about a record body: reserved bytes, a field that must not be 0, a range, reserved bits of a field, or a
finite IEEE single. `lo` and `hi` bound the unsigned value of `len` bytes at `ofs`, or the signed one. -/
inductive FieldRule where
  | zeros (ofs len : Nat)
  | zbits (ofs len : Nat) (mask : Nat)
  | nonzero (ofs len : Nat)
  | range (ofs len lo hi : Nat)
  | srange (ofs len : Nat) (lo hi : Int)
  | oneOf (ofs len : Nat) (vals : List Nat)
  | finite (ofs : Nat)
deriving DecidableEq, Repr

/-- The value of a field of `len` bytes. -/
def uN (b : Bytes) (o len : Nat) : Nat := leNat (slice b o len)

/-- Whether an IEEE single code is finite. -/
def finite32 (n : Nat) : Bool := (n / 2 ^ 23) % 256 ≠ 255

/-- Whether a rule fails, and with which code, in the order of R85: reserved bytes and bits before zeros before ranges.
`pass` selects the kind of rule: 0 reserved, 1 zero, 2 range. -/
def FieldRule.fails (strict : Bool) (b : Bytes) (pass : Nat) : FieldRule → Option (Nat × Nat)
  | .zeros o n => if pass = 0 && strict && !allZero (slice b o n) then some (cRecord, o) else none
  | .zbits o n m => if pass = 0 && strict && (uN b o n &&& m) ≠ 0 then some (cRecord, o) else none
  | .nonzero o n => if pass = 1 && uN b o n = 0 then some (cZero, o) else none
  | .range o n lo hi => if pass = 2 && (uN b o n < lo || hi < uN b o n) then some (cRange, o) else none
  | .srange o n lo hi =>
    if pass = 2 && (signed (8 * n) (uN b o n) < lo || hi < signed (8 * n) (uN b o n)) then some (cRange, o) else none
  | .oneOf o n vs => if pass = 2 && !vs.contains (uN b o n) then some (cRange, o) else none
  | .finite o => if pass = 2 && !finite32 (uN b o 4) then some (cRange, o) else none

/-- The first rule of a list that fails: all reserved rules first, then zeros, then ranges (R85). -/
def checkRules (strict : Bool) (b : Bytes) (rules : List FieldRule) : Option (Nat × Nat) :=
  (rules.findSome? (FieldRule.fails strict b 0)).or
    ((rules.findSome? (FieldRule.fails strict b 1)).or (rules.findSome? (FieldRule.fails strict b 2)))

/-- A record type of a section: its REC_TYPE, the highest INDEX, its REC_LEN (none: judged by `extra`), whether REC_LEN 0
is its empty form, the rules of its body, and the checks that rules cannot say (code and body offset). -/
structure RecLayout where
  rtype : Nat
  idxMax : Nat
  len : Option Nat
  emptyForm : Bool := false
  rules : List FieldRule := []

/-- The check of one record against its layout, in the order of R85. No record type of the spec defines a bit of REC_FLAGS (R56), and no
failure is stated for one, so REC_FLAGS may hold any value (log entry 76). -/
def checkRec (strict : Bool) (l : RecLayout) (extra : Rec → Option (Nat × Nat)) (r : Rec) : Option (Nat × Nat) :=
  if r.body = [] then
    if !l.emptyForm then some (cRecord, 4) else if l.idxMax < r.index then some (cRange, 2) else none
  else if l.len.any (fun n => n ≠ r.body.length) then some (cRecord, 4)
  else if l.idxMax < r.index then some (cRange, 2)
  else
    match checkRules strict r.body l.rules with
    | some (c, o) => some (c, o + 12)
    | none => (extra r).map fun p => (p.1, p.2 + 12)

/-- Whether a record of this type and index stands earlier in the section (DUPLICATE, R85). -/
def duplicateRec (before : List Rec) (r : Rec) : Bool :=
  before.any fun x => x.rtype = r.rtype ∧ x.index = r.index

end Sys2Proof.Machine
end

