-- ==== Sys2Proof/Machine/Fixed.lean ====
section
/-! DEFINITION. Fixed-point arithmetic of the solver and the assembler (R115, R127, R128): exact products, 72-bit and
Q32.32 accumulators with saturation, writes that round half to even, saturate and clamp. -/

namespace Sys2Proof.Machine

open Sys2Proof

/-- A fixed-point value raw / 2^frac with its declared fraction width (R127). -/
structure Q where
  raw : Int
  frac : Nat
deriving DecidableEq, Repr

/-- The exact product of two words (R127). -/
def Q.mul (a b : Q) : Q := { raw := a.raw * b.raw, frac := a.frac + b.frac }

/-- The negative of a value. -/
def Q.neg (a : Q) : Q := { a with raw := -a.raw }

/-- A Q16.16 word. -/
def q16 (w : Word) : Q := { raw := w.toInt, frac := 16 }

/-- An accumulator's content and whether it ever saturated (R127). -/
structure Acc where
  v : Q
  sat : Bool
deriving DecidableEq, Repr

/-- The limits of the 72-bit accumulator. -/
def sat72 (i : Int) : Int × Bool :=
  if i < -(2 ^ 71) then (-(2 ^ 71), true) else if 2 ^ 71 - 1 < i then (2 ^ 71 - 1, true) else (i, false)

/-- One accumulation (R127): terms aligned to the largest fraction width among them, added in order with saturation. -/
def accumulate (terms : List Q) : Acc :=
  let f := terms.foldl (fun a t => max a t.frac) 0
  terms.foldl (fun a t =>
    let r := sat72 (a.v.raw + t.raw * 2 ^ (f - t.frac))
    { v := { raw := r.1, frac := f }, sat := a.sat || r.2 }) { v := { raw := 0, frac := f }, sat := false }

/-- A format class (R131): fraction bits and bounds as raw words. -/
structure Cls where
  frac : Nat
  lo : Int
  hi : Int
deriving DecidableEq, Repr

/-- R128 stages 2 and 3 on a rounded value: the word written and whether the write was an event. -/
def clampWrite (c : Cls) (v : Int) : Int × Bool :=
  let s := clampInt (-(2 ^ 31)) (2 ^ 31 - 1) v
  let b := clampInt c.lo c.hi s
  (b, b ≠ v)

/-- R128: a write of num / den · 2^-frac to a class: rounded half to even to the class's format, saturated, clamped. -/
def writeFrac (c : Cls) (num : Int) (frac den : Nat) : Int × Bool :=
  clampWrite c (divHalfEven (num * 2 ^ c.frac) (den * 2 ^ frac))

/-- R128: a write from the accumulator. -/
def writeAcc (c : Cls) (a : Acc) : Int × Bool :=
  let r := writeFrac c a.v.raw a.v.frac 1
  (r.1, r.2 || a.sat)

/-- The Q32.32 limits of the assembler's accumulators (R115). -/
def sat64 (i : Int) : Int × Bool :=
  if i < -(2 ^ 63) then (-(2 ^ 63), true) else if 2 ^ 63 - 1 < i then (2 ^ 63 - 1, true) else (i, false)

/-! Dyadic values of sources. -/

/-- The value m · 2^e scaled to `f` fraction bits, rounded half to even. -/
def Dy.toFixed (d : Dy) (f : Nat) : Int :=
  let k : Int := d.e + (f : Int)
  if 0 ≤ k then d.m * 2 ^ k.toNat else divHalfEven d.m (2 ^ (-k).toNat)

/-- The exact product and sum of dyadic values. -/
def Dy.mul (a b : Dy) : Dy := { m := a.m * b.m, e := a.e + b.e }
def Dy.add (a b : Dy) : Dy :=
  if a.e ≤ b.e then { m := a.m + b.m * 2 ^ (b.e - a.e).toNat, e := a.e }
  else { m := a.m * 2 ^ (a.e - b.e).toNat + b.m, e := b.e }
def Dy.ofQ16 (w : Word) : Dy := { m := w.toInt, e := -16 }
def Dy.le (a b : Dy) : Bool :=
  if a.e ≤ b.e then decide (a.m ≤ b.m * 2 ^ (b.e - a.e).toNat) else decide (a.m * 2 ^ (a.e - b.e).toNat ≤ b.m)

/-- A dyadic value as the nearest Q16.16 word, saturated. -/
def Dy.toQ16 (d : Dy) : Word := BitVec.ofInt 32 (clampInt (-(2 ^ 31)) (2 ^ 31 - 1) (d.toFixed 16))

/-- The exact value of a finite IEEE single code; none for NaN and the infinities. -/
def Dy.ofSingle (c : Nat) : Option Dy :=
  let ex : Nat := c / 2 ^ 23 % 256
  let fr : Int := Int.ofNat (c % 2 ^ 23)
  let sgn : Int := if c / 2 ^ 31 % 2 = 1 then -1 else 1
  if ex = 255 then none
  else if ex = 0 then some { m := sgn * fr, e := -149 }
  else some { m := sgn * (fr + 2 ^ 23), e := (ex : Int) - 150 }

/-- CRC-32 of IEEE 802.3 (R118): one bit, one byte, a run of bytes. -/
def crcBit : Nat → Nat → Nat
  | 0, c => c
  | k + 1, c => crcBit k (if c % 2 = 1 then (c / 2) ^^^ 0xEDB88320 else c / 2)
def crcByte (c : Nat) (b : Byte) : Nat := crcBit 8 (c ^^^ b.toNat)
def crc32 (bs : Bytes) : Nat := (bs.foldl crcByte 0xFFFFFFFF) ^^^ 0xFFFFFFFF

end Sys2Proof.Machine
end

