-- ==== Sys2Proof/Machine/Model.lean ====
section
/-! DEFINITION. The quarter model and the solver's static data, read from the running casting's records: templates,
substations, nodes, hub (R95 to R98), format classes (R130 to R133), batches and timetable (R147 to R150), structure. -/

namespace Sys2Proof.Machine

open Sys2Proof

/-- Whether the casting configures an optimiser that LOAD accepted (R84, R88). -/
def Cst.optimiser (c : Cst) : Bool := decide (0 < c.scenarios) && !c.optOff && !c.legacy

/-! Dimensions of a template (R96). -/

structure Dims where
  nx : Nat
  nu : Nat
  ny : Nat
  nc : Nat
  nd : Nat
  n : Nat
deriving DecidableEq, Repr

/-- The body of TEMPLATE τ (R96), of SUBSTATION i (R97), of NODE j (R98), of the HUB (R98). -/
def Cst.tpl (c : Cst) (t : Nat) : Bytes := (c.rec? 0x24 0x240 t).getD []
def Cst.sub (c : Cst) (i : Nat) : Bytes := (c.rec? 0x24 0x241 i).getD []
def Cst.node (c : Cst) (j : Nat) : Bytes := (c.rec? 0x24 0x242 j).getD []
def Cst.hubRec (c : Cst) : Bytes := (c.rec? 0x24 0x243 0).getD []
def Cst.series (c : Cst) (k : Nat) : Option Bytes := c.rec? 0x24 0x244 k
def Cst.scenario (c : Cst) (s : Nat) : Bytes := (c.rec? 0x24 0x245 s).getD []
def Cst.modelGlobal (c : Cst) : Bytes := (c.rec? 0x24 0x246 0).getD []

def Cst.dims (c : Cst) (t : Nat) : Dims :=
  let b := c.tpl t
  { nx := u8 b 0, nu := u8 b 1, ny := u8 b 2, nc := u8 b 3, nd := u8 b 4, n := c.horizon }

/-- Template and node of a substation (R97). -/
def Cst.subTpl (c : Cst) (i : Nat) : Nat := u8 (c.sub i) 0
def Cst.subNode (c : Cst) (i : Nat) : Nat := u8 (c.sub i) 1

/-- The casting's parameter word `k` of substation `i` (R97). -/
def Cst.param (c : Cst) (i k : Nat) : Word := BitVec.ofNat 32 (u32 (c.sub i) (8 + 4 * k))

/-- The number of parameter words of a template (R97). -/
def Dims.paramLen (d : Dims) : Nat :=
  d.nx * d.nx + d.nx * d.nu + d.nx * d.nd + d.nx + d.nu + d.ny * d.nu + d.ny * d.nx + d.nc * d.nx + d.nc * d.nu

/-- Where each matrix starts among the parameter words (R97). -/
def Dims.oB (d : Dims) : Nat := d.nx * d.nx
def Dims.oE (d : Dims) : Nat := d.oB + d.nx * d.nu
def Dims.oQ (d : Dims) : Nat := d.oE + d.nx * d.nd
def Dims.oR (d : Dims) : Nat := d.oQ + d.nx
def Dims.oG (d : Dims) : Nat := d.oR + d.nu
def Dims.oH (d : Dims) : Nat := d.oG + d.ny * d.nu
def Dims.oF (d : Dims) : Nat := d.oH + d.ny * d.nx
def Dims.oL (d : Dims) : Nat := d.oF + d.nc * d.nx

/-- Block size, factor words, work words, step words and sub-block stride (R134, R140, R119). -/
def Dims.b (d : Dims) : Nat := d.nu + d.nx
def Dims.factWords (d : Dims) : Nat := d.n * (d.b * (d.b + 1) / 2) + (d.n - 1) * d.b * d.nx
def Dims.workWords (d : Dims) : Nat := d.n * (d.nu + d.nx) + d.n * d.nc + d.n * (d.nx + d.nc) + d.n * d.ny
def Dims.stepWords (d : Dims) : Nat := 3 * d.nx + d.nu + 2 * d.nc
def Dims.stride (d : Dims) : Nat := 8 + 4 * d.n * d.stepWords

/-- A parameter set: the casting's words with the words of a table in their place (R123). -/
def Cst.paramIn (c : Cst) (t : Table Word) (i k : Nat) : Word := tget t k (c.param i k)

/-- The nodes that have a record, and the substations on a node in ascending order (R93). -/
def Cst.nodes (c : Cst) : List Nat := ((c.recs 0x24).filter fun r => r.rtype = 0x242).map Rec.index
def Cst.members (c : Cst) (j : Nat) : List Nat := (List.range c.substations).filter fun i => c.subNode i = j

/-- ρ of a template and of a node (R92), ρ_c (R96), σ (R132), the loss factor (R98), as words. -/
def Cst.rho (c : Cst) (t : Nat) : Word := BitVec.ofNat 32 (u32 (c.tpl t) 8)
def Cst.rhoC (c : Cst) (t : Nat) : Word := BitVec.ofNat 32 (u32 (c.tpl t) 12)
def Cst.rhoNode (c : Cst) (j : Nat) : Word :=
  match c.members j with
  | [] => 0
  | i :: _ => c.rho (c.subTpl i)

/-! FORMATS (R130 to R133). -/

/-- The format class of an index. -/
def Cst.cls (c : Cst) (k : Nat) : Cls :=
  let b := (c.rec? 0x21 0x210 k).getD []
  { frac := 32 - u8 b 0, lo := s32 b 4, hi := s32 b 8 }

def Cst.tplFmt (c : Cst) (t : Nat) : Bytes := (c.rec? 0x21 0x211 t).getD []
def Cst.hubFmt (c : Cst) : Bytes := (c.rec? 0x21 0x212 0).getD []
def Cst.stop (c : Cst) : Bytes := (c.rec? 0x21 0x213 0).getD []
/-- The class of item `k` of TPL_FMT: 0 ξ, 1 ζ, 2 μ, 3 y, 4 L, 5 1/d, 6 temporary. -/
def Cst.tplCls (c : Cst) (t k : Nat) : Cls := c.cls (u8 (c.tplFmt t) k)
/-- The class of item `k` of HUB_FMT: 0 p, 1 ζ, 2 μ, 3 node, 4 L, 5 1/d, 6 temporary. -/
def Cst.hubCls (c : Cst) (k : Nat) : Cls := c.cls (u8 c.hubFmt k)
def Cst.sigma (c : Cst) (t : Nat) : Word := BitVec.ofNat 32 (u32 (c.tplFmt t) 8)
def Cst.sigmaH (c : Cst) : Word := BitVec.ofNat 32 (u32 c.hubFmt 8)
def Cst.rhoH (c : Cst) : Word := BitVec.ofNat 32 (u32 c.hubFmt 12)

/-! The HUB record (R98): sizes, the two matrices in compressed-column form, the node map. -/

def pad4 (n : Nat) : Nat := (n + 3) / 4 * 4

def Cst.hubN (c : Cst) : Nat := u16 c.hubRec 0
def Cst.hubRows (c : Cst) : Nat := u16 c.hubRec 2
def Cst.hubNnzP (c : Cst) : Nat := u32 c.hubRec 4
def Cst.hubNnzA (c : Cst) : Nat := u32 c.hubRec 8
def Cst.hvecWords (c : Cst) : Nat := u32 c.hubRec 12

/-- The length of a compressed-column matrix with values: column pointers, row indices padded, values. -/
def cscLen (nvar nnz : Nat) : Nat := 4 * (nvar + 1) + pad4 (2 * nnz) + 4 * nnz

/-- The entries (row, column, value word) of a compressed-column matrix at offset `o` of a body. -/
def cscEntries (b : Bytes) (o nvar nnz : Nat) : List (Nat × Nat × Word) :=
  (List.range nvar).flatMap fun j =>
    let a := u32 b (o + 4 * j)
    let z := u32 b (o + 4 * (j + 1))
    (List.range (z - a)).map fun k =>
      (u16 b (o + 4 * (nvar + 1) + 2 * (a + k)), j,
        BitVec.ofNat 32 (u32 b (o + 4 * (nvar + 1) + pad4 (2 * nnz) + 4 * (a + k))))

def Cst.hubPOfs : Nat := 16
def Cst.hubAOfs (c : Cst) : Nat := 16 + cscLen c.hubN c.hubNnzP
def Cst.hubMapOfs (c : Cst) : Nat := c.hubAOfs + cscLen c.hubN c.hubNnzA
def Cst.hubP (c : Cst) : List (Nat × Nat × Word) := cscEntries c.hubRec 16 c.hubN c.hubNnzP
def Cst.hubA (c : Cst) : List (Nat × Nat × Word) := cscEntries c.hubRec c.hubAOfs c.hubN c.hubNnzA

/-- The hub variable of node j, step k, carrier q; 0xFFFF where there is none (R98). -/
def Cst.nodeVar (c : Cst) (j k q : Nat) : Nat := u16 c.hubRec (c.hubMapOfs + 2 * ((j * 48 + k) * 3 + q))

/-! STRUCT_HUB (R141) and the hashes (R142). -/

def Cst.structHub (c : Cst) : Bytes := (c.rec? 0x20 0x201 0).getD []
/-- The first permuted column of a part, and the column after its last. -/
def Cst.partLo (c : Cst) (p : Nat) : Nat := if p = 0 then 0 else u16 c.structHub (2 * p)
def Cst.partHi (c : Cst) (p : Nat) : Nat := if p < 3 then u16 c.structHub (2 * (p + 1)) else c.hubN
/-- The variable eliminated at permuted column `k`. -/
def Cst.perm (c : Cst) (k : Nat) : Nat := u16 c.structHub (24 + 2 * k)

/-- The 8 bytes of a structure hash as a number (R142). -/
def hashOf (descriptor : Bytes) : Nat := leNat ((Config.sha384 descriptor).take 8)

/-- The template descriptor (R142). -/
def Cst.tplDescriptor (c : Cst) (t : Nat) : Bytes :=
  let d := c.dims t
  ascii "YSTH" ++ [1, BitVec.ofNat 8 d.nx, BitVec.ofNat 8 d.nu, BitVec.ofNat 8 d.ny, BitVec.ofNat 8 d.nc,
    BitVec.ofNat 8 d.nd, BitVec.ofNat 8 d.n, 0]
  ++ (List.range 7).map (fun k => BitVec.ofNat 8 (32 - (c.tplCls t k).frac)) ++ [0]
  ++ leBytes 4 d.factWords ++ leBytes 4 d.workWords ++ [0, 0, 0, 0]

/-- The pointers and row indices of a matrix as stored. -/
def cscShape (b : Bytes) (o nvar nnz : Nat) : Bytes := slice b o (4 * (nvar + 1) + 2 * nnz)

/-- The hub descriptor (R142). -/
def Cst.hubDescriptor (c : Cst) : Bytes :=
  let n := c.hubN
  let nnzL := u32 c.structHub 8
  let lOfs := 24 + pad4 (2 * n)
  ascii "YSTH" ++ [2, BitVec.ofNat 8 c.horizon] ++ leBytes 2 n ++ leBytes 2 c.hubRows
  ++ (List.range 7).map (fun k => BitVec.ofNat 8 (32 - (c.hubCls k).frac)) ++ [0, 0, 0]
  ++ leBytes 4 nnzL ++ slice c.structHub 24 (2 * n) ++ cscShape c.structHub lOfs n nnzL
  ++ cscShape c.hubRec 16 n c.hubNnzP ++ cscShape c.hubRec c.hubAOfs n c.hubNnzA

/-! TIMETABLE (R147 to R150). -/

def Cst.batch (c : Cst) (k : Nat) : Bytes := (c.rec? 0x22 0x220 k).getD []
def Cst.batches (c : Cst) : Nat := ((c.recs 0x22).filter fun r => r.rtype = 0x220).length
def Cst.batchSubs (c : Cst) (k : Nat) : List Nat :=
  (List.range (u8 (c.batch k) 2)).map fun x => u16 (c.batch k) 0 + x
def Cst.lanes (c : Cst) : Nat := u8 ((c.rec? 0x22 0x221 0).getD []) 0
def Cst.lane (c : Cst) (l : Nat) : Bytes := (c.rec? 0x22 0x222 l).getD []

/-- A timetable entry (R149). -/
structure TtEntry where
  kind : Nat
  scen : Nat
  wait : Nat
  signal : Nat
  obj : Nat
  count : Nat
  lsOfs : Nat
  reserved : Nat
deriving DecidableEq, Repr

/-- The entries of a lane in a pass: 1 INIT, 2 REFRESH, 3 ROUND (R149). -/
def Cst.laneList (c : Cst) (l pass : Nat) : List TtEntry :=
  let b := c.lane l
  let ni := u16 b 0
  let nr := u16 b 2
  let no := u16 b 4
  let start := if pass = 1 then 0 else if pass = 2 then ni else ni + nr
  let n := if pass = 1 then ni else if pass = 2 then nr else no
  (List.range n).map fun k =>
    let o := 8 + 16 * (start + k)
    { kind := u8 b o, scen := u8 b (o + 1), wait := u8 b (o + 2), signal := u8 b (o + 3), obj := u16 b (o + 4)
      count := u16 b (o + 6), lsOfs := u32 b (o + 8), reserved := u32 b (o + 12) }

/-- The highest number of any barrier, and the objects of a refresh pass. -/
def Cst.refreshMax (c : Cst) : Nat := u16 c.modelGlobal 0
def Cst.saveMin (c : Cst) : Nat := u16 c.modelGlobal 2

/-- The SRC codes that recipes and SERIES records name, REL resolved per substation (R100, R102). -/
def Cst.namedSources (c : Cst) : List Nat :=
  let ops := fun (b : Bytes) => (List.range (b.length / 20)).map fun i => u32 b (20 * i + 8)
  let plain := fun (src : Nat) => decide (src / 2 ^ 28 ≠ 0 ∧ src / 2 ^ 28 ≠ 5 ∧ src / 2 ^ 28 ≠ 8)
  let rel := fun (i src : Nat) =>
    if src / 2 ^ 27 % 2 = 1 then (if src / 2 ^ 28 = 2 then 2 ^ 29 + i * 65536 + src % 256 else src - 2 ^ 27) else src
  let subs := (List.range c.substations).flatMap fun i =>
    ((ops ((c.rec? 0x23 0x231 (c.subTpl i)).getD [])).filter plain).map (rel i)
  let hub := (ops ((c.rec? 0x23 0x232 0).getD [])).filter plain
  let ser := (((c.recs 0x24).filter fun r => r.rtype = 0x244).map fun r => u32 r.body 4).filter plain
  (subs ++ hub ++ ser).eraseDups

end Sys2Proof.Machine
end

