-- ==== Sys2Proof/Machine/Assembler.lean ====
section
/-! DEFINITION. The problem assembler (spec/04): series values, recipes, ladles, host records, overrides, refresh requests. -/

namespace Sys2Proof.Machine

open Sys2Proof

/-- The horizon step in seconds. -/
def Cst.stepS (c : Cst) : Nat := c.stepMin * 60

/-- T0 of R106: a calendar second rounded down to a multiple of the step. -/
def Cst.t0 (c : Cst) (sec : Nat) : Nat := if c.stepS = 0 then sec else sec / c.stepS * c.stepS

/-- The parameters of a substation (defaults where nothing differs from the casting). -/
def Asm.sub (a : Asm) (i : Nat) : SubParams := tget a.params i {}
def Asm.setSub (a : Asm) (i : Nat) (f : SubParams → SubParams) : Asm := { a with params := tmod a.params i {} f }

/-! Series (R110 to R112). -/

/-- A host record covers step k: the value it gives (R110: past its end the last value is held). -/
def HostRec.at? (h : HostRec) (stepS t0 k : Nat) : Option Word :=
  let m : Int := (k : Int) + ((t0 : Int) - (h.start : Int)) / (stepS : Int)
  if h.values = [] ∨ m < 0 then none
  else some (h.values.getD (min m.toNat (h.values.length - 1)) 0)

/-- A host record is not older than MAX_AGE_MIN at the opening epoch (R110). -/
def HostRec.fresh (h : HostRec) (openEpoch periodMs maxAgeMin : Nat) : Bool :=
  decide ((openEpoch - h.commitEpoch) * periodMs ≤ maxAgeMin * 60000)

/-- R110 step 1: the most recently committed stored record that applies, is fresh and covers the step. -/
def hostValue (a : Asm) (c : Cst) (periodMs maxAgeMin scen ser k : Nat) : Option (Word × Bool) :=
  a.snapHost.reverse.findSome? fun h =>
    if h.series = ser ∧ (h.scen = none ∨ h.scen = some scen) ∧ h.fresh a.openEpoch periodMs maxAgeMin = true then
      (h.at? c.stepS a.t0 k).map fun v => (v, h.scen.isNone)
    else none

/-- R112: the persistence value of a step; none where DEFAULT applies. -/
def persistValue (a : Asm) (c : Cst) (ser cls k : Nat) : Option Dy :=
  if cls ≤ 2 then
    let h := tget a.snapHistory ser []
    match tfind h (a.t0 + k * c.stepS - 86400) with
    | some v => some v
    | none => (h.getLast?).map Prod.snd
  else (tfind (tget a.snapDays ser []) ((a.t0 + k * c.stepS) % 86400 / max c.stepS 1)).map Dy.ofQ16

/-- R111: a value as scenario `s` sees it, limited to MIN to MAX. -/
def perturb (c : Cst) (scen cls : Nat) (lo hi v : Dy) : Dy :=
  let b := c.scenario scen
  let w := fun o => Dy.ofQ16 (BitVec.ofNat 32 (u32 b o))
  let x := match cls with
    | 1 => v.add (w 4)
    | 2 => v.mul (w 8)
    | 3 => v.mul (w 12)
    | _ => v
  if x.le lo then lo else if hi.le x then hi else x

/-- The value of a series in scenario `s` at step `k`, and whether a host record gave it (R110). A step at or past the
horizon takes the value of the last step (R114). -/
def seriesValue (a : Asm) (c : Cst) (periodMs scen ser k : Nat) : Dy × Bool :=
  match c.series ser with
  | none => ({}, false)
  | some b =>
    let kk := min k (c.horizon - 1)
    let cls := u8 b 0
    let w := fun o => Dy.ofQ16 (BitVec.ofNat 32 (u32 b o))
    match hostValue a c periodMs (u16 b 2) scen ser kk with
    | some (v, true) => (perturb c scen cls (w 12) (w 16) (Dy.ofQ16 v), true)
    | some (v, false) => (Dy.ofQ16 v, true)
    | none => (perturb c scen cls (w 12) (w 16) ((persistValue a c ser cls kk).getD (w 8)), false)

/-- Whether a value of a series in the cycle comes from a host record, and whether one comes from persistence or DEFAULT (R110). -/
def seriesFrom (a : Asm) (c : Cst) (periodMs ser : Nat) : Bool × Bool :=
  let from_ := (List.range c.scenarios).flatMap fun s => (List.range c.horizon).map fun k => (seriesValue a c periodMs s ser k).2
  (from_.any id, from_.any fun h => !h)

/-- The declared series by where their values come from in this cycle (R110). -/
def Asm.sortSeries (a : Asm) (c : Cst) (periodMs : Nat) : Asm :=
  let all := ((c.recs 0x24).filter fun r => r.rtype = 0x244).map Rec.index
  { a with cyHost := all.filter fun n => (seriesFrom a c periodMs n).1, cyPersist := all.filter fun n => (seriesFrom a c periodMs n).2 }

/-! Recipes (R113 to R116). -/

/-- A destination word while a recipe runs: the Q32.32 accumulator, an infinity it was set to, its class. -/
structure DstWord where
  v : Int := 0
  inf : Option Bool := none
  fmt : Nat := 0
deriving DecidableEq, Repr

/-- What a recipe has produced: words, saturations, flags SRC_FAULT, TEL_STALE, PERSIST, TEL_NONE, faulted sources. -/
structure RecipeRun where
  dst : Table DstWord := []
  sats : Nat := 0
  srcFault : Bool := false
  telStale : Bool := false
  persist : Bool := false
  telNone : Bool := false
  faults : List Nat := []
deriving DecidableEq, Repr

/-- A set kept as a list without repeats. -/
def addOnce (l : List Nat) (x : Nat) : List Nat := if l.contains x then l else x :: l

/-- A source as an operation reads it at step `k` (R102 to R104, R114), with the marks it leaves. REL is of TELEMETRY and STATE; in another class
the bit is ignored (log entry 77). -/
def recipeSource (a : Asm) (c : Cst) (periodMs scen sub src k : Nat) (r : RecipeRun) : Dy × RecipeRun :=
  let cl := src / 2 ^ 28
  let rel := (src / 2 ^ 27) % 2 = 1
  if cl = 0 then ({}, r)
  else if cl = 5 then
    let ser := src % 65536
    ((seriesValue a c periodMs scen ser (src / 65536 % 256 + k)).1, { r with persist := r.persist || a.cyPersist.contains ser })
  else if cl = 8 then
    let st := tget a.states sub ([], false, false)
    (st.1.getD (src % 8) {}, { r with telStale := r.telStale || st.2.1, telNone := r.telNone || st.2.2 })
  else
    let code := if rel ∧ cl = 2 then cl * 2 ^ 28 + sub * 65536 + src % 256 else src - (if rel then 2 ^ 27 else 0)
    match a.snapshot.find? fun x => x.1 = code with
    | some x => (x.2.1, if x.2.2 then { r with srcFault := true, faults := addOnce r.faults code } else r)
    | none => ({}, r)

/-- One step of one operation (R114, R115): the word written or added. -/
def recipeStep (a : Asm) (c : Cst) (periodMs scen sub : Nat) (param : Nat → Word) (op : Bytes) (r : RecipeRun) (k : Nat) :
    RecipeRun :=
  let code := u8 op 0 % 128
  let add := u8 op 0 / 128 = 1
  let d := u16 op 4 + k * u8 op 3
  let old := tget r.dst d {}
  let fa := Dy.ofQ16 (BitVec.ofNat 32 (u32 op 12))
  let fb := Dy.ofQ16 (BitVec.ofNat 32 (u32 op 16))
  let p := Dy.ofQ16 (param (u16 op 6))
  if code = 6 then
    if add ∧ old.inf ≠ none then r else { r with dst := tset r.dst d { old with inf := some (decide (s32 op 12 < 0)), fmt := u8 op 1 } }
  else
    let sv := if code = 5 then (({} : Dy), r) else
      recipeSource a c periodMs scen sub (u32 op 8) (if code = 1 ∨ code = 3 then k else 0) r
    let prod := if code = 5 then ({} : Dy) else if code ≤ 2 then fa.mul sv.1 else (fa.mul p).mul sv.1
    let x := prod.toFixed 32 + fb.toFixed 32
    let base := if add then old.v else 0
    let t := sat64 (base + x)
    let w : DstWord := if add ∧ old.inf ≠ none then old else { v := t.1, inf := none, fmt := u8 op 1 }
    { sv.2 with dst := tset sv.2.dst d w, sats := sv.2.sats + t.2.toNat }

/-- A whole recipe body in record order (R113). -/
def runRecipe (a : Asm) (c : Cst) (periodMs scen sub : Nat) (param : Nat → Word) (body : Bytes) : RecipeRun :=
  (List.range (body.length / 20)).foldl (fun r i =>
    let op := slice body (20 * i) 20
    (List.range (u8 op 2)).foldl (recipeStep a c periodMs scen sub param op) r) {}

/-- The words of a run, 0 where no operation wrote, and the events of R116. -/
def finishWords (c : Cst) (r : RecipeRun) (n : Nat) : List Word × Nat :=
  (List.range n).foldl (fun acc i =>
    match tfind r.dst i with
    | none => (acc.1 ++ [0], acc.2)
    | some w =>
      match w.inf with
      | some neg => (acc.1 ++ [if neg then 0x80000000 else 0x7FFFFFFF], acc.2)
      | none =>
        let x := clampWrite (c.cls w.fmt) (divHalfEven (w.v * 2 ^ (c.cls w.fmt).frac) (2 ^ 32))
        (acc.1 ++ [BitVec.ofInt 32 x.1], acc.2 + x.2.toNat)) ([], r.sats)

/-- Flag bits of a sub-block or hub ladle (R118). -/
def ladleFlags (r : RecipeRun) (sats : Nat) : Nat :=
  (decide (0 < sats)).toNat + 2 * r.srcFault.toNat + 4 * r.telStale.toNat + 8 * r.persist.toNat + 16 * r.telNone.toNat

/-- What building one block counts, in the cycle and, as it occurs, in ASM_SAT and ASM_SRC_FAULT: a source once a cycle (R104, R116). -/
def Asm.absorb (a : Asm) (r : RecipeRun) (sats sub : Nat) : Asm :=
  let faults := r.faults.foldl addOnce a.cyFaults
  { a with
    cySat := a.cySat + sats
    sat := satAdd 32 a.sat sats, satSeen := a.satSeen || decide (0 < sats)
    cyStale := if r.telStale then addOnce a.cyStale sub else a.cyStale
    cyNone := if r.telNone then addOnce a.cyNone sub else a.cyNone
    cyFaults := faults
    srcFault := satAdd 32 a.srcFault (faults.length - a.cyFaults.length) }

/-- The parameter words of a substation with a table of changed words. -/
def Cst.paramWords (c : Cst) (t : Table Word) (i : Nat) : List Word :=
  (List.range (c.dims (c.subTpl i)).paramLen).map (c.paramIn t i)

/-- One sub-block of a batch ladle (R119), from the parameter set whose factor is in use (R123). -/
def buildSub (c : Cst) (periodMs scen sub : Nat) (a : Asm) : Asm × (Nat × Nat × Nat × List Word) :=
  let t := c.subTpl sub
  let d := c.dims t
  let sp := a.sub sub
  let body := (c.rec? 0x23 0x231 t).getD []
  let r := runRecipe a c periodMs scen sub (c.paramIn sp.inUse sub) body
  let w := finishWords c r (d.n * d.stepWords)
  (a.absorb r w.2 sub, (sub, sp.gen, ladleFlags r w.2, w.1))

/-- The blocks of a batch in ascending substation order. -/
def buildSubs (c : Cst) (periodMs scen : Nat) : List Nat → Asm → Asm × List (Nat × Nat × Nat × List Word)
  | [], a => (a, [])
  | i :: is, a =>
    let x := buildSub c periodMs scen i a
    let y := buildSubs c periodMs scen is x.1
    (y.1, x.2 :: y.2)

/-- The OR of block flags. -/
def orFlags (bs : List (Nat × Nat × Nat × List Word)) : Nat := bs.foldl (fun f b => f ||| b.2.2.1) 0

/-- A hub recipe's parameter words are the values of P_h (R113). -/
def Cst.hubParam (c : Cst) (k : Nat) : Word := ((c.hubP.getD k (0, 0, 0)).2).2

/-- R185: the words of a hub ladle (q, l, h) with the bounds of ISL_BOUND in their rows. -/
def Cst.islandWords (c : Cst) (w : List Word) : List Word :=
  ((c.recs 0x70).filter fun r => r.rtype = 0x701).foldl (fun w r =>
    (List.range (u16 r.body 2)).foldl (fun w k =>
      let row := u16 r.body 0 + k
      (w.set (c.hubN + row) (BitVec.ofNat 32 (u32 r.body 4))).set (c.hubN + c.hubRows + row)
        (BitVec.ofNat 32 (u32 r.body 8))) w) w

/-- The body of a ladle (R119): sub-header and words of each sub-block; a hub ladle's words alone. -/
def Ladle.body (l : Ladle) : Bytes :=
  l.blocks.flatMap fun b =>
    (if l.kind = 2 then [] else leBytes 2 b.1 ++ leBytes 2 b.2.1 ++ leBytes 1 b.2.2.1 ++ leBytes 3 0) ++ bytesOfWords b.2.2.2

/-- The header of a ladle without its CRC (R118). -/
def Ladle.head (l : Ladle) : Bytes :=
  leBytes 1 l.kind ++ leBytes 1 l.scen ++ leBytes 1 l.count ++ leBytes 1 l.template ++ leBytes 4 l.flags ++ leBytes 8 l.openEpoch
    ++ leBytes 8 l.structHash ++ leBytes 2 l.firstSub ++ leBytes 2 l.stride ++ leBytes 4 l.bodyLen ++ leBytes 4 l.seq
    ++ leBytes 4 l.castSeq ++ leBytes 20 0

/-- A ladle complete: its BODY_LEN and its CRC over the header before it and the body (R118). -/
def Ladle.seal (l : Ladle) : Ladle :=
  let l := { l with bodyLen := l.body.length }
  { l with crc := crc32 (l.head ++ l.body) }

/-- A ladle as it stands in DRAM: header, body, zeros to a multiple of 64 bytes (R118). -/
def Ladle.image (l : Ladle) : Bytes :=
  let b := l.head ++ leBytes 4 l.crc ++ l.body
  b ++ List.replicate ((64 - b.length % 64) % 64) 0

/-- R117 to R119: the next ladle of the fill order, built from the snapshot. -/
def buildLadle (c : Cst) (periodMs : Nat) (a : Asm) : Asm :=
  match a.todo with
  | [] => a
  | (kind, scen, obj) :: rest =>
    let blank : Ladle := { kind := kind, scen := scen, batch := obj, count := 0, template := 0, flags := 0
                           openEpoch := a.openEpoch, structHash := 0, firstSub := 0, stride := 0, seq := a.ladles.length
                           castSeq := c.seq, blocks := [] }
    let x : Asm × Ladle :=
      if kind = 1 then
        let t := u8 (c.batch obj) 3
        let y := buildSubs c periodMs scen (c.batchSubs obj) a
        (y.1, { blank with count := u8 (c.batch obj) 2, template := t, flags := orFlags y.2
                           structHash := hashOf (c.tplDescriptor t), firstSub := u16 (c.batch obj) 0
                           stride := (c.dims t).stride, blocks := y.2 })
      else if kind = 2 then
        let r := runRecipe a c periodMs scen 0 c.hubParam ((c.rec? 0x23 0x232 0).getD [])
        let w := finishWords c r c.hvecWords
        (a.absorb r w.2 0, { blank with flags := ladleFlags r w.2, structHash := hashOf c.hubDescriptor
                                        blocks := [(0, 0, ladleFlags r w.2, if a.island then c.islandWords w.1 else w.1)] })
      else
        let subs := if kind = 3 then [obj] else c.batchSubs obj
        let t := c.subTpl (subs.headD 0)
        let set := fun i => if kind = 3 then (a.sub i).building.getD (a.sub i).inUse else (a.sub i).inUse
        (a, { blank with kind := 3, scen := 0, count := subs.length, template := t
                         structHash := hashOf (c.tplDescriptor t), firstSub := subs.headD 0
                         stride := 8 + 4 * (c.dims t).paramLen
                         blocks := subs.map fun i => (i, (a.sub i).gen, 0, c.paramWords (set i) i) })
    { x.1 with todo := rest, ladles := x.1.ladles ++ [x.2.seal], cyRefresh := x.1.cyRefresh + (if kind ≥ 3 then 1 else 0) }

/-- Positions of the timetable's ROUND entries in the order in which lanes reach them: by position, then by lane. -/
def Cst.roundOrder (c : Cst) : List TtEntry :=
  let longest := (List.range c.lanes).foldl (fun m l => max m (c.laneList l 3).length) 0
  (List.range longest).flatMap fun p => (List.range c.lanes).filterMap fun l => (c.laneList l 3)[p]?

/-- The fill order of the batch and hub ladles (R117): the order in which the timetable first calls for them. -/
def Cst.fillOrder (c : Cst) : List (Nat × Nat × Nat) :=
  (c.roundOrder.foldl (fun acc e =>
    if e.kind = 1 ∧ !acc.contains (1, e.scen, e.obj) then (1, e.scen, e.obj) :: acc
    else if e.kind = 3 ∧ !acc.contains (2, e.scen, 0) then (2, e.scen, 0) :: acc
    else acc) []).reverse

/-! Refresh requests (R121 to R123). -/

/-- R121: a request of a substation with a parameter set; a newer set keeps the place in the queue. -/
def Asm.request (a : Asm) (sub : Nat) (set : Table Word) (epoch : Nat) : Asm :=
  let a := a.setSub sub fun p => { p with pending := some set }
  if a.queue.any (fun q => q.1 = sub) then a else { a with queue := a.queue ++ [(sub, epoch)] }

/-- R121: ASM_CTRL.REFRESH_ALL requests a refresh of every substation, with its present estimates and overrides. -/
def Asm.refreshAll (a : Asm) (c : Cst) (epoch : Nat) : Asm :=
  (List.range c.substations).foldl (fun a i =>
    let p := a.sub i
    a.request i (p.overrides.foldl (fun t o => tset t o.1 o.2) (p.est.foldl (fun t o => tset t o.1 o.2) p.inUse)) epoch) a

/-- R122: the substations of a cycle's refresh ladles: oldest request first, lower index first at equal age. -/
def Asm.dueRefresh (a : Asm) (n : Nat) : List Nat :=
  ((sortBy (fun x y => decide (x.2 < y.2) || (x.2 = y.2 && decide (x.1 ≤ y.1))) a.queue).take n).map Prod.fst

/-- R124: an override of a parameter: the value in use and the estimate take it, identification is held, a refresh is
requested. -/
def Asm.override (a : Asm) (sub k : Nat) (v : Word) (epoch : Nat) : Asm :=
  let a := a.setSub sub fun p => { p with overrides := tset p.overrides k v, est := tset p.est k v }
  let p := a.sub sub
  a.request sub (p.overrides.foldl (fun t o => tset t o.1 o.2) p.inUse) epoch

/-- R121, R124: RELEASE lifts every override of a substation and requests a refresh. The parameters that were overridden go back to the
casting's values and their estimates are dropped (log entry 79); without an override there is nothing to release. -/
def Asm.release (a : Asm) (sub epoch : Nat) : Asm :=
  let p := a.sub sub
  if p.overrides = [] then a
  else
    let set := p.overrides.foldl (fun t o => tdel t o.1) p.inUse
    (a.setSub sub fun p => { p with overrides := [], est := p.overrides.foldl (fun t o => tdel t o.1) p.est }).request sub set epoch

/-- The band of R120 and R124 around the casting value: v lies within value × (1 ± IDENT_BAND). -/
def inBand (v cast band : Word) : Bool :=
  let d := (v.toInt - cast.toInt).natAbs * 65536
  decide (d ≤ cast.toInt.natAbs * band.toNat)

/-- A value limited to the band. -/
def toBand (v cast band : Word) : Word :=
  let w : Int := ((cast.toInt.natAbs * band.toNat / 65536 : Nat) : Int)
  BitVec.ofInt 32 (clampInt (cast.toInt - w) (cast.toInt + w) v.toInt)

/-- R121: an estimate differs from the value in use by more than DRIFT times the value in use. -/
def drifted (est use drift : Word) : Bool :=
  decide (use.toInt.natAbs * drift.toNat < (est.toInt - use.toInt).natAbs * 65536)

/-! Host records (R107 to R109). -/

/-- The outcome of a submission (R108): its code, and the store after it. Of several failures the first shows, in the order NO_OPT, CLASS,
ALIGN, SCENARIO, COUNT, RANGE (log entry 77). -/
def Asm.submit (a : Asm) (c : Cst) (win : Nat → Word) (epoch now : Nat) : Nat × Asm :=
  let w0 := win 0
  let ser := field w0 15 0
  let n := field w0 31 24
  let start := (win 1).toNat + (win 2).toNat * 2 ^ 32
  let all := bit w0 23
  let scen := field w0 22 20
  let vals := (List.range n).map fun k => win (4 + k)
  if !c.optimiser then (7, a)
  else
    match c.series ser with
    | none => (1, a)
    | some b =>
      if field w0 19 16 ≠ u8 b 0 then (1, a)
      else if start % c.stepS ≠ 0 then (2, a)
      else if !all ∧ c.scenarios ≤ scen then (3, a)
      else if 48 < n then (4, a)
      else if vals.any fun v => v.toInt < s32 b 12 || s32 b 16 < v.toInt then (5, a)
      else
        let rest := a.host.filter fun h => ¬(h.series = ser ∧ (all = true ∨ h.scen = some scen))
        if n = 0 then (0, { a with host := rest })
        else
          let key := if all then none else some scen
          let keep := a.host.filter fun h => ¬(h.series = ser ∧ h.scen = key)
          let h : HostRec := { series := ser, scen := key, start := start, hseq := field (win 3) 15 0, values := vals
                               commitEpoch := epoch, commitNs := now }
          let day := if u8 b 0 ≤ 2 then a.dayValues else
            tset a.dayValues ser ((List.range n).foldl (fun t k =>
              tset t ((start + k * c.stepS) % 86400 / c.stepS) (vals.getD k 0)) (tget a.dayValues ser []))
          (0, { a with host := keep ++ [h], dayValues := day })

end Sys2Proof.Machine
end

