-- ==== Sys2Proof/Machine/Kernel.lean ====
section
/-! DEFINITION. The arithmetic of the crucibles (spec/05): the rows of a substation problem, factorisation, the kernels of
a round, residuals, starting iterates. Every value is a raw word of its class; every write goes through R128. -/

namespace Sys2Proof.Machine

open Sys2Proof

/-- A row of a matrix: column and coefficient. -/
abbrev Row := List (Nat × Q)

/-- The coefficient 1. -/
def qOne : Q := { raw := 1, frac := 0 }

/-- A parameter word as a coefficient. -/
def coef (p : Nat → Word) (k : Nat) : Q := q16 (p k)

/-- The rows of C of step k in storage order: nx dynamics rows, nc constraint rows; ξ holds u_k, x_{k+1} step by step. -/
def cRowsStep (d : Dims) (p : Nat → Word) (k : Nat) : List Row :=
  let u := fun j => k * d.b + j
  let x := fun j => k * d.b + d.nu + j
  let xp := fun j => (k - 1) * d.b + d.nu + j
  ((List.range d.nx).map fun r =>
    (if k = 0 then [] else (List.range d.nx).map fun j => (xp j, (coef p (r * d.nx + j)).neg))
    ++ ((List.range d.nu).map fun j => (u j, (coef p (d.oB + r * d.nu + j)).neg))
    ++ [(x r, qOne)])
  ++ (List.range d.nc).map fun r =>
    ((List.range d.nu).map fun j => (u j, coef p (d.oL + r * d.nu + j)))
    ++ (List.range d.nx).map fun j => (x j, coef p (d.oF + r * d.nx + j))

/-- The rows of C, and of D (y = D ξ), over the horizon. -/
def cRows (d : Dims) (p : Nat → Word) : List Row := (List.range d.n).flatMap (cRowsStep d p)
def dRows (d : Dims) (p : Nat → Word) : List Row :=
  (List.range d.n).flatMap fun k => (List.range d.ny).map fun r =>
    ((List.range d.nu).map fun j => (k * d.b + j, coef p (d.oG + r * d.nu + j)))
    ++ (List.range d.nx).map fun j => (k * d.b + d.nu + j, coef p (d.oH + r * d.nx + j))

/-- The products of a row with a vector of words of fraction width `f`. -/
def rowTerms (row : Row) (v : Nat → Int) (f : Nat) : List Q := row.map fun e => e.2.mul { raw := v e.1, frac := f }

/-- The coefficient of column `i` in a row. -/
def rowAt (row : Row) (i : Nat) : List Q := (row.filter fun e => e.1 = i).map Prod.snd

/-! Factorisation (R134, R135, R139). -/

/-- The key of an entry below the diagonal. -/
def lKey (i j : Nat) : Nat := i * 8192 + j

/-- One row of LDLᵀ: the terms of K's row are given by column; earlier rows are in the factor. The unscaled entries are
written in CL_TMP, the entries of L in CL_L, the reciprocal pivot in CL_DINV (log entry 12). -/
def factorRow (clL clD clT : Cls) (k : Nat → List Q) (cols : List Nat) (i : Nat) (f : Factor) : Factor :=
  let g := cols.foldl (fun (g : Factor) j =>
    let a := accumulate (k j ++ (cols.filter fun m => decide (m < j)).map fun m =>
      (Q.mul { raw := tget g.u (lKey i m) 0, frac := clT.frac } { raw := tget g.l (lKey j m) 0, frac := clL.frac }).neg)
    let uw := writeAcc clT a
    let u := uw.1
    let l := writeFrac clL (u * tget g.dinv j 0) (clT.frac + clD.frac) 1
    let g := { g with sat := g.sat || uw.2 || l.2 }
    if u = 0 then g else { g with u := tset g.u (lKey i j) u, l := tset g.l (lKey i j) l.1 }) f
  let d := accumulate (k i ++ cols.map fun m =>
    (Q.mul { raw := tget g.u (lKey i m) 0, frac := clT.frac } { raw := tget g.l (lKey i m) 0, frac := clL.frac }).neg)
  let g := { g with sat := g.sat || d.sat }
  if d.v.raw ≤ 0 then { g with failed := true }
  else
    let r := writeFrac clD (2 ^ d.v.frac) 0 d.v.raw.toNat
    if r.2 then { g with failed := true, sat := true } else { g with dinv := tset g.dinv i r.1 }

/-- The terms of entry (i, j) of K_i = P + σI + ρ_c CᵀC + ρ_j DᵀD. -/
def subKTerms (d : Dims) (p : Nat → Word) (sigma rhoC rho : Word) (cs ds : List Row) (i j : Nat) : List Q :=
  let r := i % d.b
  (if i = j then [coef p (if r < d.nu then d.oR + r else d.oQ + (r - d.nu)), q16 sigma] else [])
  ++ cs.flatMap (fun row => (rowAt row i).flatMap fun a => (rowAt row j).map fun b => (q16 rhoC).mul (a.mul b))
  ++ ds.flatMap (fun row => (rowAt row i).flatMap fun a => (rowAt row j).map fun b => (q16 rho).mul (a.mul b))

/-- The factor of a substation from a parameter set (R134, R135). -/
def factorSub (c : Cst) (sub : Nat) (set : Table Word) : Factor :=
  let t := c.subTpl sub
  let d := c.dims t
  let p := c.paramIn set sub
  let cs := cRows d p
  let ds := dRows d p
  (List.range (d.n * d.b)).foldl (fun f i =>
    let stage := i / d.b
    let cols := (List.range i).filter fun j =>
      decide (j / d.b = stage) || (decide (j / d.b + 1 = stage) && decide (d.nu ≤ j % d.b))
    if f.failed then f
    else factorRow (c.tplCls t 4) (c.tplCls t 5) (c.tplCls t 6)
      (subKTerms d p (c.sigma t) (c.rhoC t) (c.rho t) cs ds i) cols i f) { params := set }

/-- n_j ρ_j at a hub variable of the node map, nothing elsewhere (Ω of R139). -/
def omegaTerms (c : Cst) (v : Nat) : List Q :=
  c.nodes.flatMap fun j => (List.range c.horizon).flatMap fun k => (List.range 3).filterMap fun q =>
    if c.nodeVar j k q = v then some ((q16 (c.rhoNode j)).mul { raw := ((c.members j).length : Int), frac := 0 })
    else none

/-- The terms of entry (v, w) of K_h (R139), v and w hub variables. -/
def hubKTerms (c : Cst) (v w : Nat) : List Q :=
  ((c.hubP.filter fun e => decide (e.1 = v ∧ e.2.1 = w) || decide (v ≠ w ∧ e.1 = w ∧ e.2.1 = v)).map
    fun e => q16 e.2.2).take 1
  ++ (if v = w then [q16 c.sigmaH] else [])
  ++ (List.range c.hubRows).flatMap (fun r =>
    (c.hubA.filter fun e => decide (e.1 = r ∧ e.2.1 = v)).flatMap fun a =>
      (c.hubA.filter fun e => decide (e.1 = r ∧ e.2.1 = w)).map fun b =>
        (q16 c.rhoH).mul ((q16 a.2.2).mul (q16 b.2.2)))
  ++ (if v = w then omegaTerms c v else [])

/-- The hub factor after one of its four parts (R139, R141). -/
def factorHubPart (c : Cst) (part : Nat) (f : Factor) : Factor :=
  ((List.range (c.partHi part)).filter fun i => decide (c.partLo part ≤ i)).foldl (fun f i =>
    if f.failed then f
    else factorRow (c.hubCls 4) (c.hubCls 5) (c.hubCls 6) (fun j => hubKTerms c (c.perm i) (c.perm j))
      (List.range i) i f) { f with sat := false }

/-! Ladle words as the kernels read them. -/

/-- The class of a destination word of a recipe; class 0 where no operation writes it (its value is then 0). -/
def dstFmt (body : Bytes) (w : Nat) : Nat :=
  ((List.range (body.length / 20)).findSome? fun i =>
    let op := slice body (20 * i) 20
    if (List.range (u8 op 2)).any fun k => decide (u16 op 4 + k * u8 op 3 = w) then some (u8 op 1) else none).getD 0

/-- A ladle word as a value of its class, or an infinity. -/
def ladleQ (c : Cst) (recipe : Bytes) (words : List Word) (w : Nat) : Q :=
  { raw := (words.getD w 0).toInt, frac := (c.cls (dstFmt recipe w)).frac }

/-- The clip of R93: the infinity codes are absent bounds (R129). `num / (den · 2^frac)` is the value. -/
def clipQ (l h : Q) (num : Int) (frac den : Nat) : Int × Nat × Nat :=
  let belowL := decide (l.raw ≠ -(2 ^ 31) ∧ num * 2 ^ l.frac < l.raw * ((den * 2 ^ frac : Nat) : Int))
  let aboveH := decide (h.raw ≠ 2 ^ 31 - 1 ∧ h.raw * ((den * 2 ^ frac : Nat) : Int) < num * 2 ^ h.frac)
  if belowL then (l.raw, l.frac, 1) else if aboveH then (h.raw, h.frac, 1) else (num, frac, den)

/-- Offsets of a step block (R119). -/
def oLdyn (d : Dims) (k : Nat) : Nat := k * d.stepWords + d.nx + d.nu
def oHdyn (d : Dims) (k : Nat) : Nat := oLdyn d k + d.nx + d.nc

/-! One substation in one scenario (step 1 of R93). -/

/-- The value a kernel wrote, with whether any write was an event of R128. -/
structure Wr where
  vals : List Int := []
  sat : Bool := false
deriving DecidableEq, Repr

def Wr.push (w : Wr) (x : Int × Bool) : Wr := { vals := w.vals ++ [x.1], sat := w.sat || x.2 }

/-- Forward substitution, scaling, back substitution through a factor (R143, section "One iteration on the array"). -/
def solveFactor (clL clD clT clX : Cls) (f : Factor) (rhs : List Int) : Wr :=
  let m := rhs.length
  let fwd := (List.range m).foldl (fun (w : Wr) i => w.push (writeAcc clT (accumulate
    ({ raw := rhs.getD i 0, frac := clT.frac } :: (List.range i).filterMap fun j =>
      (tfind f.l (lKey i j)).map fun l => (Q.mul { raw := l, frac := clL.frac }
        { raw := w.vals.getD j 0, frac := clT.frac }).neg)))) {}
  let scl := (List.range m).foldl (fun (w : Wr) i => w.push (writeFrac clT (fwd.vals.getD i 0 * tget f.dinv i 0)
    (clT.frac + clD.frac) 1)) {}
  let back := (List.range m).foldl (fun (acc : Wr) r =>
    let i := m - 1 - r
    let x := writeAcc clX (accumulate ({ raw := scl.vals.getD i 0, frac := clT.frac } ::
      (List.range r).filterMap fun q =>
        (tfind f.l (lKey (i + 1 + q) i)).map fun l => (Q.mul { raw := l, frac := clL.frac }
          { raw := acc.vals.getD q 0, frac := clX.frac }).neg))
    { vals := x.1 :: acc.vals, sat := acc.sat || x.2 }) {}
  { back with sat := back.sat || fwd.sat || scl.sat }

/-- Whether row `r` is a dynamics row, and its step. -/
def isDyn (d : Dims) (r : Nat) : Bool := decide (r % (d.nx + d.nc) < d.nx)

/-- Where the bound of a row stands in a sub-block. -/
def loOfs (d : Dims) (r : Nat) : Nat := oLdyn d (r / (d.nx + d.nc)) + r % (d.nx + d.nc)
def hiOfs (d : Dims) (r : Nat) : Nat := oHdyn d (r / (d.nx + d.nc)) + r % (d.nx + d.nc)

/-- The place of a constraint row among the stored ζ. -/
def conIdx (d : Dims) (r : Nat) : Nat := r / (d.nx + d.nc) * d.nc + (r % (d.nx + d.nc) - d.nx)

/-- ζ of a row as a value: a dynamics row's equals its l = h and is not stored (R140). -/
def zetaQ (c : Cst) (t : Nat) (d : Dims) (recipe : Bytes) (words : List Word) (z : List Int) (r : Nat) : Q :=
  if isDyn d r then ladleQ c recipe words (loOfs d r)
  else { raw := z.getD (conIdx d r) 0, frac := (c.tplCls t 1).frac }

/-- Node quantity (step k, carrier q) as a value. -/
def nodeQ (c : Cst) (t : Table (List Int)) (j k q : Nat) : Q :=
  { raw := (tget t j []).getD (3 * k + q) 0, frac := (c.hubCls 3).frac }

/-- Step 1 of R93 for one substation: the new iterates, and whether an event of R128 occurred. -/
def kernelSub (c : Cst) (sub : Nat) (words : List Word) (f : Factor) (old : SubIter) (sc : ScenIter) : SubIter × Bool :=
  let t := c.subTpl sub
  let d := c.dims t
  let node := c.subNode sub
  let p := c.paramIn f.params sub
  let recipe := (c.rec? 0x23 0x231 t).getD []
  let cs := cRows d p
  let ds := dRows d p
  let fx := (c.tplCls t 0).frac
  let xi := fun i => old.xi.getD i 0
  let va := (List.range (d.n * d.ny)).map fun r =>
    accumulate (rowTerms (ds.getD r []) xi fx
      ++ [(nodeQ c sc.ybar node (r / d.ny) (r % d.ny)).neg, nodeQ c sc.zbar node (r / d.ny) (r % d.ny),
        (nodeQ c sc.w node (r / d.ny) (r % d.ny)).neg])
  let vs := va.map Acc.v
  let rhs := (List.range (d.n * d.b)).foldl (fun (w : Wr) i =>
    let k := i / d.b
    let j := i % d.b
    let q := ladleQ c recipe words (k * d.stepWords + (if j < d.nu then d.nx + j else j - d.nu))
    w.push (writeAcc (c.tplCls t 6) (accumulate
      ([(q16 (c.sigma t)).mul { raw := xi i, frac := fx }, q.neg]
      ++ (List.range cs.length).flatMap (fun r => (rowAt (cs.getD r []) i).flatMap fun a =>
        [a.mul ((q16 (c.rhoC t)).mul (zetaQ c t d recipe words old.zeta r)),
         (a.mul { raw := old.mu.getD r 0, frac := (c.tplCls t 2).frac }).neg])
      ++ (List.range ds.length).flatMap (fun r => (rowAt (ds.getD r []) i).map fun a =>
        a.mul ((q16 (c.rho t)).mul (vs.getD r { raw := 0, frac := 0 }))))))) {}
  let x := solveFactor (c.tplCls t 4) (c.tplCls t 5) (c.tplCls t 6) (c.tplCls t 0) f rhs.vals
  let xn := fun i => x.vals.getD i 0
  let cx := cs.map fun row => accumulate (rowTerms row xn fx)
  let zero : Acc := { v := { raw := 0, frac := 0 }, sat := false }
  let rho := (c.rhoC t).toNat
  let zeta := (List.range cs.length).foldl (fun (w : Wr) r =>
    if isDyn d r then w
    else
      let a := cx.getD r zero
      let fm := (c.tplCls t 2).frac
      let g := max a.v.frac fm
      let num := a.v.raw * 2 ^ (g - a.v.frac) * rho + old.mu.getD r 0 * 2 ^ (g - fm) * 65536
      let v := clipQ (ladleQ c recipe words (loOfs d r)) (ladleQ c recipe words (hiOfs d r)) num g (max rho 1)
      w.push (writeFrac (c.tplCls t 1) v.1 v.2.1 v.2.2)) {}
  let mu := (List.range cs.length).foldl (fun (w : Wr) r => w.push (writeAcc (c.tplCls t 2) (accumulate
    [{ raw := old.mu.getD r 0, frac := (c.tplCls t 2).frac }, (q16 (c.rhoC t)).mul (cx.getD r zero).v,
      ((q16 (c.rhoC t)).mul (zetaQ c t d recipe words zeta.vals r)).neg]))) {}
  let y := ds.foldl (fun (w : Wr) row => w.push (writeAcc (c.tplCls t 3) (accumulate (rowTerms row xn fx)))) {}
  ({ xi := x.vals, zeta := zeta.vals, mu := mu.vals, y := y.vals },
    rhs.sat || x.sat || zeta.sat || mu.sat || y.sat || cx.any Acc.sat || va.any Acc.sat)

/-- Step 2 of R93: the average exchange of a node's members, excluded members counting 0 (R138). -/
def kernelNode (c : Cst) (excluded : List Nat) (j : Nat) (work : ScenIter) : List Int × Bool :=
  let ms := c.members j
  let r := (List.range (c.horizon * 3)).foldl (fun (w : Wr) i =>
    let a := accumulate (ms.filterMap fun s =>
      let d := c.dims (c.subTpl s)
      if excluded.contains s || decide (d.ny ≤ i % 3) then none
      else some { raw := (tget work.subs s {}).y.getD (i / 3 * d.ny + i % 3) 0, frac := (c.tplCls (c.subTpl s) 3).frac })
    let x := writeFrac (c.hubCls 3) a.v.raw a.v.frac (max ms.length 1)
    w.push (x.1, x.2 || a.sat)) {}
  (r.vals, r.sat)

/-- The terms Ω π of the hub's right-hand side at variable `v` (R143). -/
def omegaPi (c : Cst) (prev work : ScenIter) (v : Nat) : List Q :=
  c.nodes.flatMap fun j => (List.range c.horizon).flatMap fun k => (List.range 3).flatMap fun q =>
    if c.nodeVar j k q = v then
      let n : Q := (q16 (c.rhoNode j)).mul { raw := ((c.members j).length : Int), frac := 0 }
      [n.mul (nodeQ c work.ybar j k q), n.mul (nodeQ c prev.w j k q)]
    else []

/-- Where q_h, l_h and h_h stand in the hub ladle body (log entry 13). -/
def hubLo (c : Cst) (r : Nat) : Nat := c.hubN + r
def hubHi (c : Cst) (r : Nat) : Nat := c.hubN + c.hubRows + r

/-- HUB_FWD: right-hand side and forward substitution of a part (R143, R150). -/
def kernelFwd (c : Cst) (words : List Word) (f : Factor) (part : Nat) (prev work : ScenIter) : Table Int × Bool :=
  let recipe := (c.rec? 0x23 0x232 0).getD []
  let clT := c.hubCls 6
  ((List.range (c.partHi part)).filter fun i => decide (c.partLo part ≤ i)).foldl (fun acc i =>
    let v := c.perm i
    let rhs := writeAcc clT (accumulate (
      [(q16 c.sigmaH).mul { raw := prev.p.getD v 0, frac := (c.hubCls 0).frac }, (ladleQ c recipe words v).neg]
      ++ (c.hubA.filter fun e => decide (e.2.1 = v)).flatMap (fun e =>
        [(q16 e.2.2).mul ((q16 c.rhoH).mul { raw := prev.zetaH.getD e.1 0, frac := (c.hubCls 1).frac }),
         ((q16 e.2.2).mul { raw := prev.muH.getD e.1 0, frac := (c.hubCls 2).frac }).neg])
      ++ omegaPi c prev work v))
    let z := writeAcc clT (accumulate ({ raw := rhs.1, frac := clT.frac } :: (List.range i).filterMap fun j =>
      (tfind f.l (lKey i j)).map fun l =>
        (Q.mul { raw := l, frac := (c.hubCls 4).frac } { raw := tget acc.1 j 0, frac := clT.frac }).neg))
    (tset acc.1 i z.1, acc.2 || rhs.2 || z.2)) (work.tmp, false)

/-- HUB_BWD: scaling and back substitution of a part, columns descending (R143, R150). -/
def kernelBwd (c : Cst) (f : Factor) (part : Nat) (work : ScenIter) : List Int × Bool :=
  let clT := c.hubCls 6
  let cl := c.hubCls 0
  ((List.range (c.partHi part)).filter fun i => decide (c.partLo part ≤ i)).reverse.foldl (fun acc i =>
    let s := writeFrac clT (tget work.tmp i 0 * tget f.dinv i 0) (clT.frac + (c.hubCls 5).frac) 1
    let x := writeAcc cl (accumulate ({ raw := s.1, frac := clT.frac } ::
      (List.range (c.hubN - 1 - i)).filterMap fun q =>
        (tfind f.l (lKey (i + 1 + q) i)).map fun l => (Q.mul { raw := l, frac := (c.hubCls 4).frac }
          { raw := acc.1.getD (c.perm (i + 1 + q)) 0, frac := cl.frac }).neg))
    (acc.1.set (c.perm i) x.1, acc.2 || s.2 || x.2)) (work.p, false)

/-- A_h p for a row. -/
def hubRow (c : Cst) (p : List Int) (r : Nat) : Acc :=
  accumulate ((c.hubA.filter fun e => decide (e.1 = r)).map fun e =>
    (q16 e.2.2).mul { raw := p.getD e.2.1 0, frac := (c.hubCls 0).frac })

/-- HUB_ROWS: ζ_h and μ_h of a row (R143). -/
def kernelRow (c : Cst) (words : List Word) (prev work : ScenIter) (r : Nat) : (Int × Int) × Bool :=
  let recipe := (c.rec? 0x23 0x232 0).getD []
  let a := hubRow c work.p r
  let fm := (c.hubCls 2).frac
  let mu := prev.muH.getD r 0
  let rho := c.rhoH.toNat
  let g := max a.v.frac fm
  let num := a.v.raw * 2 ^ (g - a.v.frac) * rho + mu * 2 ^ (g - fm) * 65536
  let v := clipQ (ladleQ c recipe words (hubLo c r)) (ladleQ c recipe words (hubHi c r)) num g (max rho 1)
  let z := writeFrac (c.hubCls 1) v.1 v.2.1 v.2.2
  let m := writeAcc (c.hubCls 2) (accumulate [{ raw := mu, frac := fm }, (q16 c.rhoH).mul a.v,
    ((q16 c.rhoH).mul { raw := z.1, frac := (c.hubCls 1).frac }).neg])
  ((z.1, m.1), a.sat || z.2 || m.2)

/-- z̄ of a node, read from p through the node map (R143), and step 4 of R93. -/
def kernelZbar (c : Cst) (j : Nat) (work : ScenIter) : List Int × Bool :=
  let r := (List.range (c.horizon * 3)).foldl (fun (w : Wr) i =>
    let v := c.nodeVar j (i / 3) (i % 3)
    w.push (if v = 0xFFFF then (0, false) else writeFrac (c.hubCls 3) (work.p.getD v 0) (c.hubCls 0).frac 1)) {}
  (r.vals, r.sat)
def kernelDual (c : Cst) (j : Nat) (prev work : ScenIter) (zbar : List Int) : List Int × Bool :=
  let f := (c.hubCls 3).frac
  let r := (List.range (c.horizon * 3)).foldl (fun (w : Wr) i => w.push (writeAcc (c.hubCls 3) (accumulate
    [{ raw := (tget prev.w j []).getD i 0, frac := f }, { raw := (tget work.ybar j []).getD i 0, frac := f },
      { raw := -(zbar.getD i 0), frac := f }]))) {}
  (r.vals, r.sat)

/-! Residuals (R144). -/

/-- |value| written as UQ16.16 with saturation. -/
def resWord (a : Q) : Nat := min (divHalfEven ((a.raw.natAbs : Int) * 65536) (2 ^ a.frac)).toNat 0xFFFFFFFF

def maxList (l : List Nat) : Nat := l.foldl max 0

/-- The residuals of a scenario after a round. `blocks` gives the ladle words of a substation. -/
def residuals (c : Cst) (excluded : List Nat) (factors : Table Factor) (blocks : Nat → List Word) (prev work : ScenIter) :
    Nat × Nat :=
  let subs := (List.range c.substations).filter fun i => !excluded.contains i
  let per := subs.map fun i =>
    let t := c.subTpl i
    let d := c.dims t
    let p := c.paramIn (tget factors i {}).params i
    let recipe := (c.rec? 0x23 0x231 t).getD []
    let cs := cRows d p
    let nw := tget work.subs i {}
    let od := tget prev.subs i {}
    let zq := fun z r => zetaQ c t d recipe (blocks i) z r
    let pri := maxList ((List.range cs.length).map fun r =>
      resWord (accumulate (rowTerms (cs.getD r []) (fun j => nw.xi.getD j 0) (c.tplCls t 0).frac
        ++ [(zq nw.zeta r).neg])).v)
    let dua := maxList ((List.range (d.n * d.b)).map fun k =>
      resWord (accumulate ((List.range cs.length).flatMap fun r => (rowAt (cs.getD r []) k).flatMap fun a =>
        [(q16 (c.rhoC t)).mul (a.mul (zq nw.zeta r)), ((q16 (c.rhoC t)).mul (a.mul (zq od.zeta r))).neg])).v)
    (pri, dua)
  let hp := maxList ((List.range c.hubRows).map fun r =>
    resWord (accumulate [(hubRow c work.p r).v, { raw := -(work.zetaH.getD r 0), frac := (c.hubCls 1).frac }]).v)
  let hd := maxList ((List.range c.hubN).map fun v =>
    resWord (accumulate ((c.hubA.filter fun e => decide (e.2.1 = v)).map fun e =>
      (q16 c.rhoH).mul ((q16 e.2.2).mul { raw := work.zetaH.getD e.1 0 - prev.zetaH.getD e.1 0
                                          frac := (c.hubCls 1).frac }))).v)
  let nodes := c.nodes.filter fun j => !(c.members j).isEmpty
  let f := (c.hubCls 3).frac
  let np := maxList (nodes.flatMap fun j => (List.range (c.horizon * 3)).map fun i =>
    resWord { raw := (tget work.ybar j []).getD i 0 - (tget work.zbar j []).getD i 0, frac := f })
  let nd := maxList (nodes.flatMap fun j => (List.range (c.horizon * 3)).map fun i =>
    resWord ((q16 (c.rhoNode j)).mul
      { raw := ((tget work.zbar j []).getD i 0 - (tget prev.zbar j []).getD i 0) * ((c.members j).length : Int)
        frac := f }))
  (max (maxList (per.map Prod.fst)) (max hp np), max (maxList (per.map Prod.snd)) (max hd nd))

/-! Starting iterates (R153 to R156). -/

/-- Block k of a vector of blocks of `n` words, shifted by d steps; blocks past the end take the last (R154). -/
def shiftBlocks (v : List Int) (n horizon d : Nat) : List Int :=
  (List.range horizon).flatMap fun k => (List.range n).map fun i => v.getD (min (k + d) (horizon - 1) * n + i) 0

/-- ζ clipped to the bounds of the ladle (R154, R156). -/
def clipZeta (c : Cst) (t : Nat) (d : Dims) (recipe : Bytes) (words : List Word) (z : List Int) : List Int :=
  ((List.range (d.n * (d.nx + d.nc))).filter fun r => !isDyn d r).map fun r =>
    let cl := c.tplCls t 1
    let v := clipQ (ladleQ c recipe words (loOfs d r)) (ladleQ c recipe words (hiOfs d r)) (z.getD (conIdx d r) 0) cl.frac 1
    (writeFrac cl v.1 v.2.1 v.2.2).1

/-- The start of one substation problem: warm by a shift of d steps, cold with none. -/
def startSub (c : Cst) (sub : Nat) (words : List Word) (from_ : Option (SubIter × Nat)) : SubIter :=
  let t := c.subTpl sub
  let d := c.dims t
  let recipe := (c.rec? 0x23 0x231 t).getD []
  match from_ with
  | some (o, sh) =>
    { xi := shiftBlocks o.xi d.b d.n sh
      zeta := clipZeta c t d recipe words (shiftBlocks o.zeta d.nc d.n sh)
      mu := shiftBlocks o.mu (d.nx + d.nc) d.n sh
      y := shiftBlocks o.y d.ny d.n sh }
  | none =>
    { xi := List.replicate (d.n * d.b) 0, zeta := clipZeta c t d recipe words []
      mu := List.replicate (d.n * (d.nx + d.nc)) 0, y := List.replicate (d.n * d.ny) 0 }

/-- ζ_h clipped to the bounds of the hub ladle. -/
def clipHub (c : Cst) (words : List Word) (z : List Int) : List Int :=
  let recipe := (c.rec? 0x23 0x232 0).getD []
  (List.range c.hubRows).map fun r =>
    let cl := c.hubCls 1
    let v := clipQ (ladleQ c recipe words (hubLo c r)) (ladleQ c recipe words (hubHi c r)) (z.getD r 0) cl.frac 1
    (writeFrac cl v.1 v.2.1 v.2.2).1

/-- The start of the hub and of the node quantities of a scenario; ζ_h is clipped where the first round reads the hub ladle. -/
def startHub (c : Cst) (from_ : Option (ScenIter × Nat)) : ScenIter :=
  match from_ with
  | some (o, sh) =>
    let nodes := fun (t : Table (List Int)) => t.map fun e => (e.1, shiftBlocks e.2 3 c.horizon sh)
    { ybar := nodes o.ybar, zbar := nodes o.zbar, w := nodes o.w, p := o.p, zetaH := o.zetaH, muH := o.muH }
  | none =>
    let z := c.nodes.map fun j => (j, List.replicate (c.horizon * 3) (0 : Int))
    { ybar := z, zbar := z, w := z, p := List.replicate c.hubN 0, zetaH := List.replicate c.hubRows 0
      muH := List.replicate c.hubRows 0 }

end Sys2Proof.Machine
end

