-- ==== Sys2Proof/Machine/Solver.lean ====
section
/-! DEFINITION. The sequencer of the solver array (spec/05): crucibles and reserves, passes, barriers, rounds, stopping,
deadline. What the outcome publishes is in Plan.lean. -/

namespace Sys2Proof.Machine

open Sys2Proof

/-! Crucibles (R126, R162 to R164). -/

/-- The physical crucible that serves a logical lane. -/
def Slv.phys (x : Slv) (l : Nat) : Nat := tget x.map l l

/-- A crucible can run: not retired. -/
def Slv.healthy (x : Slv) (p : Nat) : Bool := !x.retired.contains p

/-- The crucibles that could take a lane, in order of preference: the reserves 32 to 35, then crucibles below 32 whose lane
the casting does not use (log entry 14). -/
def Slv.spares (x : Slv) (lanes : Nat) : List Nat :=
  let serving := (List.range lanes).map x.phys
  (([32, 33, 34, 35] ++ List.range 32).filter fun p => x.healthy p && !serving.contains p)

/-- The state code of SLV_CRU_STATE. -/
def Slv.cruState (x : Slv) (lanes p : Nat) : Nat :=
  if 35 < p then 3 else if x.retired.contains p then 2
  else if p < 32 || ((List.range lanes).map x.phys).contains p then 0 else 1

/-- Whether the healthy crucibles are as many as the lanes (R164, SLV_STATUS.OPT_AVAIL). -/
def Slv.enough (x : Slv) (lanes : Nat) : Bool := decide (lanes ≤ ((List.range 36).filter x.healthy).length)

/-- R126, R163: a lane whose crucible is retired, or serves a lower lane, moves to the first crucible that could take it. -/
def Slv.place (x : Slv) (lanes l : Nat) : Slv :=
  if x.healthy (x.phys l) ∧ !((List.range l).map x.phys).contains (x.phys l) then x
  else match x.spares lanes with
    | [] => x
    | p :: _ => { x with map := tset x.map l p }

/-- The mapping of a casting's lanes when it is loaded: retirements outlast every reset. -/
def Slv.placeLanes (x : Slv) (lanes : Nat) : Slv :=
  (List.range lanes).foldl (fun x l => x.place lanes l) { x with map := x.map.filter fun p => decide (p.1 < lanes) }

/-- R163: a crucible retired (reason 0 known-answer test, 1 worn, 2 residue, 3 ECC); its lane moves to the lowest-numbered
healthy reserve. A reserve is retired without a move. -/
def State.retire (s : State) (p reason : Nat) : State :=
  let lanes := s.live.cst.lanes
  if s.live.slv.retired.contains p then s
  else
    let s := (s.journal 7 [0, BitVec.ofNat 8 p, BitVec.ofNat 8 reason]).modSlv fun x =>
      { x with retired := p :: x.retired, swapSeen := true }
    match (List.range lanes).find? fun l => s.live.slv.phys l = p with
    | none => s
    | some l =>
      match s.live.slv.spares lanes with
      | [] => s
      | r :: _ => s.modSlv fun x => { x with map := tset x.map l r }

/-! Ending a solve (R153, R157 to R161). -/

/-- A cycle's solve ends (R20, R21, R544): the crucible clock stops, a window that was requested ends with the DRAM in self-refresh where the
casting enables it and no refresh is pending, rows that waited are mapped out. -/
def State.windowEnds (s : State) (r : SolveRun) : State :=
  s.modSys fun x => { x with
    cruRun := false, dramWaiting := []
    dramSr := if r.requestedAt.isSome then s.live.cst.selfRefresh && s.live.asm.queue.isEmpty else x.dramSr }

/-- The window request (R20, R21): the crucible clock starts and the DRAM leaves self-refresh. -/
def State.requestWindow (s : State) : State :=
  match s.live.slv.run with
  | some r => if r.requestedAt.isSome then s else
    (s.modSlv fun x => { x with phase := 1, run := some { r with requestedAt := some s.now } }).modSys fun x =>
      { x with cruRun := true, dramSr := false }
  | none => s

/-- The solve ends with an outcome: the registers of the cycle, the warm-start store, the clock stops (R21, R153, R160). -/
def State.endSolve (s : State) (code cause : Nat) : State :=
  match s.live.slv.run with
  | none => s
  | some r =>
    let c := s.live.cst
    let keep := decide (code = 1 ∨ code = 2 ∨ code = 3)
    let store : WarmStore := { t0 := r.t0
                               tplHash := (List.range 64).filterMap fun t =>
                                 if c.tpl t = [] then none else some (t, hashOf (c.tplDescriptor t))
                               hubHash := hashOf c.hubDescriptor
                               iters := r.prev }
    let s := s.modSlv fun x => { x with
      run := none
      phase := 0
      code := code
      cause := cause
      outSat := r.sat || r.ladleSat
      warm := r.warmHub
      rounds := r.rounds
      openEpoch := r.openEpoch
      resPri := if r.rounds = 0 then 0 else r.resPri
      resDua := if r.rounds = 0 then 0 else r.resDua
      window := match r.requestedAt with
        | none => 0
        | some q => min ((s.now - q) / 10000) (2 ^ 20 - 1)
      startUs := match r.firstEntryAt, r.requestedAt with
        | some t, some q => min ((t - q) / 1000) 4095
        | _, _ => 0
      shiftRun := if code = 4 then min (x.shiftRun + 1) 255 else 0
      store := if keep then some store else x.store
      result := r.prev
      resultReady := true }
    s.windowEnds r

/-! Passes (R151). -/

/-- The signals each barrier of a pass waits for. -/
def Cst.barrierTable (c : Cst) (pass : Nat) : Table Nat :=
  ((List.range c.lanes).flatMap fun l => c.laneList l pass).foldl (fun t e =>
    if e.signal = 0 then t else tset t e.signal (tget t e.signal 0 + 1)) []

/-- A pass starts: every lane at its first entry, barriers cleared. -/
def SolveRun.startPass (r : SolveRun) (c : Cst) (pass : Nat) : SolveRun :=
  { r with pass := pass, lanePos := [], flight := [], barriers := c.barrierTable pass, work := r.prev.map fun e =>
      (e.1, { e.2 with tmp := [], pri := 0, dua := 0 }) }

/-- Whether a lane has ended its list. -/
def SolveRun.laneDone (r : SolveRun) (c : Cst) (l : Nat) : Bool :=
  decide ((c.laneList l r.pass).length ≤ tget r.lanePos l 0) && !r.flight.contains l
def SolveRun.passDone (r : SolveRun) (c : Cst) : Bool := (List.range c.lanes).all (r.laneDone c)

/-- R137: whether the cycle runs an INIT pass. -/
def Slv.needsInit (x : Slv) (c : Cst) : Bool :=
  x.hub.isNone || (List.range c.substations).any fun i => !x.excluded.contains i && (tfind x.inUse i).isNone

/-- R154 to R156: the shift of the store, when it may be used. -/
def Slv.shift? (x : Slv) (c : Cst) (t0 : Nat) : Option Nat :=
  match x.store with
  | none => none
  | some w =>
    if x.coldNext ∨ t0 < w.t0 ∨ c.stepS = 0 then none
    else
      let d := (t0 - w.t0) / c.stepS
      if d < c.horizon then some d else none

/-- The hub ladle words and the substation words of a scenario, as far as they are ready. -/
def Asm.hubWords (a : Asm) (scen : Nat) : Option (List Word) :=
  (a.ladles.find? fun l => l.kind = 2 ∧ l.scen = scen).bind fun l => l.blocks.head?.map fun b => b.2.2.2
def Asm.subWords (a : Asm) (scen sub : Nat) : Option (List Word) :=
  (a.ladles.filter fun l => l.kind = 1 ∧ l.scen = scen).findSome? fun l =>
    (l.blocks.find? fun b => b.1 = sub).map fun b => b.2.2.2

/-- The rounds start: node quantities and hub from the store or cold, with the counts of R155 and R156. -/
def State.startRounds (s : State) (r : SolveRun) : State :=
  let c := s.live.cst
  let x := s.live.slv
  let sh := x.shift? c r.t0
  let hubWarm := match x.store with
    | some w => sh.isSome && decide (w.hubHash = hashOf c.hubDescriptor)
    | none => false
  let subs := (List.range c.substations).filter fun i => !x.excluded.contains i
  let stored : Nat → Bool := fun i => match x.store with
    | some w => sh.isSome && (List.range c.scenarios).all fun sc => (tfind (tget w.iters sc {}).subs i).isSome
    | none => false
  let subWarm : Nat → Bool := fun i => match x.store with
    | some w => stored i && decide (tfind w.tplHash (c.subTpl i) = some (hashOf (c.tplDescriptor (c.subTpl i))))
    | none => false
  let rej := if sh.isSome then (subs.filter fun i => stored i && !subWarm i).length + (!hubWarm).toNat else 0
  let cold := (subs.filter fun i => !subWarm i).length + (!hubWarm).toNat
  let prev := (List.range c.scenarios).map fun sc =>
    let old := (x.store.map fun w => tget w.iters sc {})
    let h := startHub c (if hubWarm then old.bind fun o => sh.map fun d => (o, d) else none)
    (sc, { h with subs := (subs.filter subWarm).filterMap (fun i =>
      (old.bind fun o => tfind o.subs i).bind fun si => sh.map fun d =>
        let z := c.dims (c.subTpl i)
        (i, { xi := shiftBlocks si.xi z.b c.horizon d
              zeta := shiftBlocks si.zeta z.nc c.horizon d
              mu := shiftBlocks si.mu (z.nx + z.nc) c.horizon d
              y := shiftBlocks si.y z.ny c.horizon d })) })
  let r := { r with prev := prev, warmHub := hubWarm }
  s.modSlv fun x => { x with
    run := some (r.startPass c 3)
    phase := 4
    coldNext := false
    warmRej := satAdd 32 x.warmRej rej
    warmRejSeen := x.warmRejSeen || decide (0 < rej)
    cold := satAdd 32 x.cold cold }

/-- The window goes on to the pass after `pass` (0: none yet), skipping passes that are not called for (R151); ITER_MAX 0
ends the solve before a round (R157). -/
def State.nextPass (s : State) (pass : Nat) : State :=
  match s.live.slv.run with
  | none => s
  | some r =>
    let c := s.live.cst
    if pass = 0 ∧ s.live.slv.needsInit c = true then
      s.modSlv fun x => { x with phase := 2, hubSpare := {}, run := some ({ r with initHub := true }.startPass c 1) }
    else
      let r := { r with initEnded := true }
      if pass ≤ 1 ∧ r.refresh ≠ [] then
        s.modSlv fun x => { x with phase := 3, run := some (r.startPass c 2) }
      else
        let s := s.modSlv fun x => { x with run := some r }
        if c.iterMax = 0 then s.endSolve 4 2
        else if s.live.slv.hub.isNone then s.endSolve 4 3
        else s.startRounds r

/-! Entries (R150, R151). -/

/-- Whether every ladle an entry reads is ready (R117, R151). -/
def Asm.readyFor (a : Asm) (c : Cst) (run : SolveRun) (e : TtEntry) : Bool :=
  match e.kind with
  | 1 => a.ladles.any fun l => l.kind = 1 ∧ l.scen = e.scen ∧ l.batch = e.obj
  | 3 | 4 | 5 => (a.hubWords e.scen).isSome
  | 7 => !run.initBatches.contains e.obj || a.ladles.any fun l =>
      l.kind = 3 ∧ c.batchSubs e.obj = l.blocks.map fun b => b.1
  | 9 => (List.range e.count).all fun k =>
      match run.refresh[e.obj + k]? with
      | none => true
      | some i => a.ladles.any fun l => l.kind = 3 ∧ l.blocks.map (fun b => b.1) = [i]
  | _ => true

/-- The entry a lane is at, when it may start. -/
def State.entryReady (s : State) (l : Nat) : Option TtEntry :=
  match s.live.slv.run with
  | none => none
  | some r =>
    let c := s.live.cst
    if r.pass = 0 ∨ r.flight.contains l = true ∨ c.lanes ≤ l then none
    else
      match (c.laneList l r.pass)[tget r.lanePos l 0]? with
      | none => none
      | some e =>
        if (e.wait = 0 ∨ tget r.barriers e.wait 0 = 0) ∧ s.live.asm.readyFor c r e = true
            ∧ (e.kind = 1 → r.initEnded = true) then some e
        else none

/-- A crucible event of R128 in an entry execution. -/
def Slv.noteSat (x : Slv) (ev : Bool) : Slv :=
  if ev then { x with sat := sat32 x.sat, satSeen := true } else x

/-- Scenario iterates changed in the work copy. -/
def SolveRun.modWork (r : SolveRun) (sc : Nat) (f : ScenIter → ScenIter) : SolveRun :=
  { r with work := tmod r.work sc {} f }

/-- What a ROUND entry writes into the work copy, and whether an event of R128 occurred (R150). -/
def roundEntry (c : Cst) (a : Asm) (x : Slv) (r : SolveRun) (e : TtEntry) : SolveRun × Bool :=
  let prev := tget r.prev e.scen {}
  let work := tget r.work e.scen {}
  let hubW := (a.hubWords e.scen).getD []
  let hubF := x.hub.getD {}
  match e.kind with
  | 1 =>
    ((c.batchSubs e.obj).filter fun i => !x.excluded.contains i).foldl (fun acc i =>
      let words := (a.subWords e.scen i).getD []
      let prev := tget acc.1.prev e.scen {}
      let stored := tfind prev.subs i
      let old := match stored with
        | some o =>
          let z := clipZeta c (c.subTpl i) (c.dims (c.subTpl i)) ((c.rec? 0x23 0x231 (c.subTpl i)).getD []) words o.zeta
          if r.rounds = 0 then { o with zeta := z } else o
        | none => startSub c i words none
      let k := kernelSub c i words (tget x.inUse i {}) old prev
      ({ (acc.1.modWork e.scen fun w => { w with subs := tset w.subs i k.1 }) with
          prev := tmod acc.1.prev e.scen {} fun w => { w with subs := tset w.subs i old } }, acc.2 || k.2)) (r, false)
  | 2 =>
    ((List.range e.count).map (e.obj + ·)).foldl (fun acc j =>
      let k := kernelNode c x.excluded j (tget acc.1.work e.scen {})
      (acc.1.modWork e.scen fun w => { w with ybar := tset w.ybar j k.1 }, acc.2 || k.2)) (r, false)
  | 3 =>
    let prev := if r.rounds = 0 then { prev with zetaH := clipHub c hubW prev.zetaH } else prev
    let k := kernelFwd c hubW hubF e.obj prev work
    ({ (r.modWork e.scen fun w => { w with tmp := k.1 }) with prev := tset r.prev e.scen prev }, k.2)
  | 4 =>
    let k := kernelBwd c hubF e.obj work
    (r.modWork e.scen fun w => { w with p := k.1 }, k.2)
  | 5 =>
    ((List.range e.count).map (e.obj + ·)).foldl (fun acc row =>
      let k := kernelRow c hubW prev (tget acc.1.work e.scen {}) row
      (acc.1.modWork e.scen fun w => { w with zetaH := w.zetaH.set row k.1.1, muH := w.muH.set row k.1.2 }, acc.2 || k.2))
      (r, false)
  | 6 =>
    ((List.range e.count).map (e.obj + ·)).foldl (fun acc j =>
      if (c.members j).isEmpty then acc
      else
        let wk := tget acc.1.work e.scen {}
        let z := kernelZbar c j wk
        let k := kernelDual c j prev wk z.1
        (acc.1.modWork e.scen fun w => { w with zbar := tset w.zbar j z.1, w := tset w.w j k.1 }, acc.2 || z.2 || k.2))
      (r, false)
  | _ => (r, false)

/-- R138: a substation whose factorisation failed: excluded in the INIT pass, or its refresh dropped. -/
def State.pivotFailure (s : State) (sub : Nat) (init : Bool) : State :=
  let s := s.modSlv fun x => { x with factFail := sat32 x.factFail, factFailSeen := true }
  if init then
    (s.journal 0 (leBytes 2 sub)).modSlv fun x => { x with excluded := addOnce x.excluded sub }
  else s.modAsm fun a => { (a.setSub sub fun p => { p with pending := none, building := none }) with
    queue := a.queue.filter fun q => q.1 ≠ sub }

/-- An event of R128 in a factorisation marks the running entry. -/
def State.entrySat (s : State) (ev : Bool) : State :=
  if ev then s.modSlv fun x => { x with run := x.run.map fun r => { r with entrySat := true } } else s

/-- FACT_BATCH, FACT_HUB and REFRESH entries (R134 to R139). A substation whose request a pivot failure of this pass has removed is left out
of a restarted pass (R138, R164). A hub pivot failure counts once in SLV_FACT_FAIL and is not journalled (log entry 80). -/
def State.factEntry (s : State) (r : SolveRun) (e : TtEntry) : State :=
  let c := s.live.cst
  match e.kind with
  | 7 =>
    ((c.batchSubs e.obj).filter fun i => (tfind s.live.slv.inUse i).isNone && !s.live.slv.excluded.contains i).foldl
      (fun s i =>
        let f := factorSub c i (s.live.asm.sub i).inUse
        let s := s.entrySat f.sat
        if f.failed then s.pivotFailure i true else s.modSlv fun x => { x with inUse := tset x.inUse i f }) s
  | 8 =>
    let f := factorHubPart c e.obj s.live.slv.hubSpare
    let s := (s.entrySat f.sat).modSlv fun x => { x with hubSpare := f }
    if e.obj = 3 then
      if f.failed then s.modSlv fun x => { x with factFail := sat32 x.factFail, factFailSeen := true }
      else s.modSlv fun x => { x with hub := some f }
    else s
  | 9 =>
    ((List.range e.count).filterMap fun k => r.refresh[e.obj + k]?).foldl (fun s i =>
      match (s.live.asm.sub i).building with
      | none => s
      | some set =>
        let f := factorSub c i set
        let s := s.entrySat f.sat
        if f.failed then s.pivotFailure i false else s.modSlv fun x => { x with spare := tset x.spare i f }) s
  | _ => s

/-- The substation factorisations an entry in flight abandons (R159). -/
def State.abandoned (s : State) (r : SolveRun) (l : Nat) : Nat :=
  let c := s.live.cst
  match (c.laneList l r.pass)[tget r.lanePos l 0]? with
  | some e =>
    if e.kind = 7 then ((c.batchSubs e.obj).filter fun i =>
      (tfind s.live.slv.inUse i).isNone && !s.live.slv.excluded.contains i).length
    else if e.kind = 9 then ((List.range e.count).filter fun k => (r.refresh[e.obj + k]?).isSome).length
    else 0
  | none => 0

/-- The abandoned factorisations of all entries in flight counted (R159); the hub has one, whatever the parts in flight. -/
def State.abortFlight (s : State) : State :=
  match s.live.slv.run with
  | none => s
  | some r =>
    let hub := r.flight.any fun l => ((s.live.cst.laneList l r.pass)[tget r.lanePos l 0]?.map TtEntry.kind) = some 8
    let n := (r.flight.map (s.abandoned r)).foldl (· + ·) hub.toNat
    s.modSlv fun x => { x with factAbort := satAdd 32 x.factAbort n }

/-- Whether every scenario of the tested round passes a pair of thresholds, given its residuals. -/
def passes (res : List (Nat × Nat)) (pri dua : Nat) : Bool := res.all fun x => decide (x.1 ≤ pri) && decide (x.2 ≤ dua)

/-- The residuals of every scenario of the last complete round: they stand in its work copy. -/
def SolveRun.resList (r : SolveRun) : List (Nat × Nat) := r.prev.map fun e => (e.2.pri, e.2.dua)

/-- A round is complete (R146): its residuals, the copies exchanged, the tests of R157. -/
def State.endRound (s : State) (r : SolveRun) : State :=
  let c := s.live.cst
  let x := s.live.slv
  let work := r.work.map fun e =>
    let z := residuals c x.excluded x.inUse (fun i => (s.live.asm.subWords e.1 i).getD []) (tget r.prev e.1 {}) e.2
    (e.1, { e.2 with pri := z.1, dua := z.2 })
  let r := { r with prev := work, rounds := r.rounds + 1
                    resPri := maxList (work.map fun e => e.2.pri), resDua := maxList (work.map fun e => e.2.dua) }
  let s := s.modSlv fun x => { x with run := some r }
  let b := c.stop
  if passes r.resList (u32 b 0) (u32 b 4) then s.endSolve 1 0
  else if r.rounds = c.iterMax then
    if passes r.resList (u32 b 8) (u32 b 12) then s.endSolve 2 0 else s.endSolve 4 1
  else s.modSlv fun x => { x with run := some (r.startPass c 3) }

/-- After an entry ended: the pass goes on, or ends and the next begins. -/
def State.afterEntry (s : State) : State :=
  match s.live.slv.run with
  | none => s
  | some r =>
    if r.passDone s.live.cst then
      if r.pass = 3 then s.endRound r else s.nextPass r.pass
    else s

/-- R158: the outcome at the deadline. -/
def State.deadlineOutcome (s : State) : State :=
  match s.live.slv.run with
  | none => s
  | some r =>
    let b := s.live.cst.stop
    let s := s.abortFlight
    if r.pass = 1 ∨ (r.pass = 0 ∧ s.live.slv.needsInit s.live.cst = true) then s.endSolve 4 3
    else if r.rounds = 0 then s.endSolve 4 2
    else if passes r.resList (u32 b 8) (u32 b 12) then s.endSolve 3 0
    else s.endSolve 4 1

end Sys2Proof.Machine
end

