-- ==== Sys2Proof/Machine/Float.lean ====
section
/-! DEFINITION. IEEE 754 binary32 and binary64 arithmetic on codes, rounding to nearest even with subnormals kept (R193,
R229): every operation computes exactly and rounds once. A NaN result is the one quiet code of `Fmt.nan`. -/

namespace Sys2Proof.Machine

open Sys2Proof

/-- A binary interchange format: fraction bits and exponent bits. -/
structure Fmt where
  fr : Nat
  ex : Nat
deriving DecidableEq, Repr

/-- binary32 and binary64. -/
def single : Fmt := { fr := 23, ex := 8 }
def double : Fmt := { fr := 52, ex := 11 }

/-- The codes of infinity and of the quiet NaN, the weight of the sign bit, the exponent of the least subnormal. -/
def Fmt.inf (f : Fmt) : Nat := (2 ^ f.ex - 1) * 2 ^ f.fr
def Fmt.nan (f : Fmt) : Nat := f.inf + 2 ^ (f.fr - 1)
def Fmt.signBit (f : Fmt) : Nat := 2 ^ (f.fr + f.ex)
def Fmt.emin (f : Fmt) : Int := 2 - (2 ^ (f.ex - 1) : Nat) - f.fr

/-- Parts of a code. -/
def Fmt.neg (f : Fmt) (c : Nat) : Bool := c.testBit (f.fr + f.ex)
def Fmt.abs (f : Fmt) (c : Nat) : Nat := c % f.signBit
def Fmt.isNaN (f : Fmt) (c : Nat) : Bool := decide (f.inf < f.abs c)
def Fmt.isInf (f : Fmt) (c : Nat) : Bool := decide (f.abs c = f.inf)
def Fmt.isZero (f : Fmt) (c : Nat) : Bool := decide (f.abs c = 0)
def Fmt.finite (f : Fmt) (c : Nat) : Bool := decide (f.abs c < f.inf)

/-- The exact value of a finite code. -/
def Fmt.value (f : Fmt) (c : Nat) : Dy :=
  let a := f.abs c
  let e := a / 2 ^ f.fr
  let m := a % 2 ^ f.fr
  let d : Dy := if e = 0 then { m := m, e := f.emin } else { m := ((m + 2 ^ f.fr : Nat) : Int), e := f.emin + e - 1 }
  if f.neg c then { d with m := -d.m } else d

/-- A code with a sign. -/
def Fmt.withSign (f : Fmt) (neg : Bool) (a : Nat) : Nat := if neg then a + f.signBit else a

/-- num / den · 2^e, for num, den > 0, against 2^k. -/
def ratGe (num den : Nat) (e k : Int) : Bool :=
  if k ≤ e then decide (den ≤ num * 2 ^ (e - k).toNat) else decide (den * 2 ^ (k - e).toNat ≤ num)

/-- The magnitude code of num / den · 2^e, rounded to nearest even; infinity beyond the range. -/
def Fmt.roundMag (f : Fmt) (num den : Nat) (e : Int) : Nat :=
  if num = 0 then 0
  else
    let k : Int := (Nat.log2 num : Int) - (Nat.log2 den : Int) + e
    let top : Int := if ratGe num den e k then k else k - 1
    let q : Int := if top - f.fr < f.emin then f.emin else top - f.fr
    let m : Int := if q ≤ e then divHalfEven ((num : Int) * 2 ^ (e - q).toNat) den
      else divHalfEven num (den * 2 ^ (q - e).toNat)
    let m := m.toNat
    let c := if m < 2 ^ f.fr then m else (q - f.emin + 1).toNat * 2 ^ f.fr + (m - 2 ^ f.fr)
    min c f.inf

/-- A quotient of integers times a power of two as a code; zero takes the sign given. -/
def Fmt.ofRat (f : Fmt) (zeroNeg : Bool) (num : Int) (den : Nat) (e : Int) : Nat :=
  if num = 0 then f.withSign zeroNeg 0 else f.withSign (decide (num < 0)) (f.roundMag num.natAbs den e)

/-- A dyadic value as a code. -/
def Fmt.ofDy (f : Fmt) (d : Dy) : Nat := f.ofRat false d.m 1 d.e

/-- The operations of IEEE 754, each with one rounding. -/
def Fmt.add (f : Fmt) (a b : Nat) : Nat :=
  if f.isNaN a || f.isNaN b then f.nan
  else if f.isInf a then (if f.isInf b && f.neg a != f.neg b then f.nan else a)
  else if f.isInf b then b
  else
    let s := (f.value a).add (f.value b)
    f.ofRat (f.neg a && f.neg b) s.m 1 s.e

def Fmt.negate (f : Fmt) (a : Nat) : Nat := f.withSign (!f.neg a) (f.abs a)
def Fmt.sub (f : Fmt) (a b : Nat) : Nat := f.add a (f.negate b)

def Fmt.mul (f : Fmt) (a b : Nat) : Nat :=
  let s := f.neg a != f.neg b
  if f.isNaN a || f.isNaN b then f.nan
  else if f.isInf a || f.isInf b then (if f.isZero a || f.isZero b then f.nan else f.withSign s f.inf)
  else
    let p := (f.value a).mul (f.value b)
    f.ofRat s p.m 1 p.e

def Fmt.div (f : Fmt) (a b : Nat) : Nat :=
  let s := f.neg a != f.neg b
  if f.isNaN a || f.isNaN b then f.nan
  else if f.isInf a then (if f.isInf b then f.nan else f.withSign s f.inf)
  else if f.isInf b then f.withSign s 0
  else if f.isZero b then (if f.isZero a then f.nan else f.withSign s f.inf)
  else
    let x := f.value a
    let y := f.value b
    f.ofRat s (if y.m < 0 then -x.m else x.m) y.m.natAbs (x.e - y.e)

/-- The square root of a natural number rounded down, by bits. -/
def isqrtLoop (n : Nat) : Nat → Nat → Nat
  | 0, r => r
  | k + 1, r => let t := r + 2 ^ k; isqrtLoop n k (if t * t ≤ n then t else r)
def isqrt (n : Nat) : Nat := isqrtLoop n (Nat.log2 n / 2 + 1) 0

/-- The square root: a root of many bits with a sticky bit is rounded once. -/
def Fmt.sqrt (f : Fmt) (a : Nat) : Nat :=
  if f.isNaN a then f.nan
  else if f.isZero a then a
  else if f.neg a then f.nan
  else if f.isInf a then a
  else
    let v := f.value a
    let sh : Nat := 2 * (f.fr + 4) + (v.e % 2).toNat
    let n := v.m.natAbs * 2 ^ sh
    let r := isqrt n
    f.ofRat false ((2 * r + (if r * r = n then 0 else 1) : Nat) : Int) 1 ((v.e - sh) / 2 - 1)

/-- Comparison: false with a NaN. -/
def Fmt.lt (f : Fmt) (a b : Nat) : Bool :=
  if f.isNaN a || f.isNaN b then false
  else if f.isInf a then f.neg a && !(f.isInf b && f.neg b)
  else if f.isInf b then !f.neg b
  else !(f.value b).le (f.value a)
def Fmt.le (f : Fmt) (a b : Nat) : Bool :=
  if f.isNaN a || f.isNaN b then false else !f.lt b a

/-- A value limited to an interval, on codes. -/
def Fmt.clamp (f : Fmt) (lo hi v : Nat) : Nat := if f.lt v lo then lo else if f.lt hi v then hi else v

/-- A natural number and an integer as a code. -/
def Fmt.ofNat (f : Fmt) (n : Nat) : Nat := f.ofRat false n 1 0
def Fmt.ofInt (f : Fmt) (n : Int) : Nat := f.ofRat false n 1 0

/-- A value converted between formats. -/
def Fmt.convert (f g : Fmt) (a : Nat) : Nat :=
  if f.isNaN a then g.nan
  else if f.isInf a then g.withSign (f.neg a) g.inf
  else g.ofRat (f.neg a) (f.value a).m 1 (f.value a).e

/-! Singles as register words. -/

/-- The code a word holds. -/
abbrev fw (w : Word) : Nat := w.toNat
def fAdd (a b : Word) : Word := BitVec.ofNat 32 (single.add a.toNat b.toNat)
def fSub (a b : Word) : Word := BitVec.ofNat 32 (single.sub a.toNat b.toNat)
def fMul (a b : Word) : Word := BitVec.ofNat 32 (single.mul a.toNat b.toNat)
def fDiv (a b : Word) : Word := BitVec.ofNat 32 (single.div a.toNat b.toNat)
def fSqrt (a : Word) : Word := BitVec.ofNat 32 (single.sqrt a.toNat)
def fNeg (a : Word) : Word := BitVec.ofNat 32 (single.negate a.toNat)
def fLt (a b : Word) : Bool := single.lt a.toNat b.toNat
def fLe (a b : Word) : Bool := single.le a.toNat b.toNat
def fFinite (a : Word) : Bool := single.finite a.toNat
def fClamp (lo hi v : Word) : Word := BitVec.ofNat 32 (single.clamp lo.toNat hi.toNat v.toNat)
def fAbs (a : Word) : Word := BitVec.ofNat 32 (single.abs a.toNat)
def fOfDy (d : Dy) : Word := BitVec.ofNat 32 (single.ofDy d)
def fOfNat (n : Nat) : Word := BitVec.ofNat 32 (single.ofNat n)
def fOfInt (n : Int) : Word := BitVec.ofNat 32 (single.ofInt n)
/-- num / den as a single. -/
def fOfRat (num : Int) (den : Nat) : Word := BitVec.ofNat 32 (single.ofRat false num den 0)
/-- The exact value of a finite single; 0 for the others. -/
def fValue (a : Word) : Dy := if fFinite a then single.value a.toNat else {}
/-- A field of a record as a single. -/
def f32 (b : Bytes) (o : Nat) : Word := BitVec.ofNat 32 (u32 b o)

end Sys2Proof.Machine
end

