-- ==== Sys2Proof/Machine/LocalTime.lean ====
section
/-! DEFINITION. Local time (R421, R422) and the fallback schedules that follow it (R173, R174). -/

namespace Sys2Proof.Machine

open Sys2Proof

/-! Civil dates of the Gregorian calendar, in days since 1970-01-01. -/

/-- The day number of a year, month and day of the month. -/
def dayOfDate (y m d : Int) : Int :=
  let y' := if m ≤ 2 then y - 1 else y
  let era := y'.fdiv 400
  let yoe := y' - era * 400
  let doy := (153 * (if 2 < m then m - 3 else m + 9) + 2).fdiv 5 + d - 1
  let doe := yoe * 365 + yoe.fdiv 4 - yoe.fdiv 100 + doy
  era * 146097 + doe - 719468

/-- The year of a day number. -/
def yearOfDay (z : Int) : Int :=
  let z := z + 719468
  let era := z.fdiv 146097
  let doe := z - era * 146097
  let yoe := (doe - doe.fdiv 1460 + doe.fdiv 36524 - doe.fdiv 146096).fdiv 365
  let doy := doe - (365 * yoe + yoe.fdiv 4 - yoe.fdiv 100)
  let mp := (5 * doy + 2).fdiv 153
  yoe + era * 400 + (if mp < 10 then 0 else 1)

/-- The weekday of a day number, 0 Monday to 6 Sunday. -/
def weekday (z : Int) : Nat := ((z + 3) % 7).toNat

/-- The day of the `week`-th `wday` of a month; week 5 means the last (R421). -/
def nthWeekday (y m : Int) (week wday : Nat) : Int :=
  let first := dayOfDate y m 1
  let ofs : Int := (((wday : Int) - weekday first) % 7)
  if week < 5 then first + ofs + 7 * ((week : Int) - 1)
  else
    let next := if m = 12 then dayOfDate (y + 1) 1 1 else dayOfDate y (m + 1) 1
    next - 1 - (((weekday (next - 1) : Int) - wday) % 7)

/-- The CAL_GLOBAL body, none where it is absent or was rejected (R420). -/
def Cst.calGlobal (c : Cst) : Bytes := (c.rec? 0x90 0x901 0).getD []

/-- Whether daylight saving is in force at a UTC second (R422). -/
def Cst.dstAt (c : Cst) (sec : Nat) : Bool :=
  let b := c.calGlobal
  if u8 b 10 = 0 then false
  else
    let l : Int := (sec : Int) + 60 * s16 b 8
    let y := yearOfDay (l.fdiv 86400)
    let st := nthWeekday y (u8 b 12) (u8 b 13) (u8 b 14) * 86400 + 60 * (u16 b 16 : Int)
    let en := nthWeekday y (u8 b 18) (u8 b 19) (u8 b 20) * 86400 + 60 * (u16 b 22 : Int) - 60 * (u8 b 10 : Int)
    if st ≤ en then decide (st ≤ l) && decide (l < en) else decide (st ≤ l) || decide (l < en)

/-- The local offset from UTC in minutes (R422). -/
def Cst.localOfs (c : Cst) (sec : Nat) : Int :=
  s16 c.calGlobal 8 + (if c.dstAt sec then (u8 c.calGlobal 10 : Int) else 0)

/-- The local day number and the minute of the local day. -/
def Cst.localDay (c : Cst) (sec : Nat) : Int := ((sec : Int) + 60 * c.localOfs sec).fdiv 86400
def Cst.localMinute (c : Cst) (sec : Nat) : Nat := ((((sec : Int) + 60 * c.localOfs sec) % 86400) / 60).toNat

/-! Schedules. -/

/-- The entries of a schedule: days, minute, value. -/
def schedEntries (b : Bytes) : List (Nat × Nat × Word) :=
  (List.range (u8 b 0)).map fun k => (u8 b (4 + 8 * k), u16 b (6 + 8 * k), f32 b (8 + 8 * k))

/-- The value of the entry with the greatest MINUTE below `lim` among those of a weekday. -/
def schedOn (es : List (Nat × Nat × Word)) (wday lim : Nat) : Option Word :=
  ((es.filter fun e => e.1.testBit wday && decide (e.2.1 < lim)).getLast?).map fun e => e.2.2

/-- R174: the value of a schedule at a second, looking back through seven days. -/
def Cst.schedAt (c : Cst) (sched sec : Nat) : Option Word :=
  let es := schedEntries ((c.rec? 0x71 0x712 sched).getD [])
  let d := c.localDay sec
  (schedOn es (weekday d) (c.localMinute sec + 1)).or
    ((List.range 7).findSome? fun (k : Nat) => schedOn es (weekday (d - 1 - (k : Int))) 1440)

end Sys2Proof.Machine
end

