-- ==== Sys2Proof/Machine/Sources.lean ====
section
/-! DEFINITION. Source values (R102): what a SRC code reads in a core, live or poured, with its fault flag (R104, R208);
logic tags by identifier and type (R230, R231). -/

namespace Sys2Proof.Machine

open Sys2Proof

/-! Logic tags. -/

/-- The TAG records of the running program and the slot of an identifier. -/
def Cst.lgcTagRecs (c : Cst) : List Rec := (c.recs 0x31).filter fun r => r.rtype = 0x311
def Cst.tagRec (c : Cst) (id : Nat) : Option Rec := c.lgcTagRecs.find? fun r => u32 r.body 0 = id
def Cst.tagSlot (c : Cst) (id : Nat) : Option Nat := (c.tagRec id).map Rec.index
def Cst.tagType (c : Cst) (id : Nat) : Nat := match c.tagRec id with
  | some r => u8 r.body 4
  | none => 0

/-- Whether a word is a valid value word of a type (R231). -/
def validWord (type : Nat) (w : Word) : Bool :=
  if type = 1 then decide (w.toNat ≤ 1) else if type = 4 then fFinite w else true

/-- A tag's word as a single: BOOL 0 or 1, integers converted, REAL as it is (log entry 21). -/
def tagSingle (type : Nat) (w : Word) : Word :=
  if type = 4 then w
  else if type = 1 then (if w.toNat.testBit 0 then fOfNat 1 else 0)
  else if type = 3 then fOfNat w.toNat
  else if type = 2 ∨ type = 5 then fOfInt w.toInt
  else w

/-- The value word of a tag by identifier. -/
def Core.tagWord (k : Core) (id : Nat) : Word :=
  match k.cst.tagSlot id with
  | some t => (tget k.lgc.tags t {}).word
  | none => 0

/-! Records of channels, slots, meters. -/

def Cst.chan (c : Cst) (n : Nat) : Bytes := (c.rec? 0x40 0x403 n).getD []
def Cst.slotRec (c : Cst) (n : Nat) : Bytes := (c.rec? 0x30 0x301 n).getD []
def Cst.fanRec (c : Cst) (d : Nat) : Bytes := (c.rec? 0x41 0x411 d).getD []
def Cst.groupRec (c : Cst) (g : Nat) : Bytes := (c.rec? 0x50 0x501 g).getD []
def Cst.heatRec (c : Cst) (m : Nat) : Bytes := (c.rec? 0x50 0x502 m).getD []

/-- FCH_STAT.FAULT and CODE: the highest active condition of R271. -/
def Chan.faultCode (x : Chan) : Nat := x.conds.foldl max 0
def Chan.fault (x : Chan) : Bool := !x.conds.isEmpty

/-- The value and the fault flag of a loop slot's quantity (R200). -/
def Slot.quantity (x : Slot) (q : Nat) : Word :=
  match q with
  | 0 => x.spUsed
  | 1 => x.pv
  | 2 => x.out
  | 3 => fOfNat x.level
  | 4 => x.err
  | 5 => x.ff
  | _ => 0

/-- The quantities of a heat meter (R312): thermal power and flow are means over the last samples, weighted by span. -/
def spanMean (xs : List (Word × Nat)) : Word :=
  let t := xs.foldl (fun a x => a + x.2) 0
  if t = 0 then 0
  else
    let s := xs.foldl (fun (a : Dy) x => a.add ((fValue x.1).mul { m := x.2, e := 0 })) {}
    BitVec.ofNat 32 (single.ofRat false s.m t s.e)
def Heat.quantity (x : Heat) (q : Nat) : Word :=
  match q with
  | 0 => spanMean (x.samples.map fun p => (p.1, p.2.2))
  | 1 => spanMean (x.samples.map fun p => (p.2.1, p.2.2))
  | 2 => x.thF
  | 3 => x.thR
  | 4 => fSub x.thF x.thR
  | 5 => x.coeff
  | _ => 0

/-- Faults of a meter (R310), by code. -/
def Core.heatFaults (k : Core) (b : Bytes) : List Nat :=
  let ch := fun o => tget k.fch.chans (u8 b o) {}
  let out := fun o => let v := (ch o).val; !fFinite v || fLt v 0 || fLt (fOfNat 180) v
  (if u8 b 2 ≠ 0xFF ∧ (ch 2).fault then [1] else []) ++ (if (ch 1).fault then [2] else []) ++ (if (ch 3).fault then [3] else [])
    ++ (if (ch 4).fault then [4] else []) ++ (if out 3 ∨ out 4 then [5] else [])

/-- NRG_HM_STAT.CODE: the highest fault code active (R310). -/
def Core.heatCode (k : Core) (m : Nat) : Nat := (k.heatFaults (k.cst.heatRec m)).foldl max 0

/-- NRG_HM_STAT.VALID: the meter is configured and not faulted (R310). -/
def Core.heatValid (k : Core) (m : Nat) : Bool := k.cst.heatRec m ≠ [] && k.heatCode m = 0

/-- What a source reads as a single, and whether its fault or validity flag is set. TELEMETRY is in `Core.telemetry`. -/
def Core.sourceBut (k : Core) (code : Nat) : Word × Bool :=
  let q := code / 256 % 16
  match code / 2 ^ 28 with
  | 1 =>
    -- an output shows the value applied (FCH_VAL, R274)
    let x := tget k.fch.chans (code % 2 ^ 27) {}
    let ty := u8 (k.cst.chan (code % 2 ^ 27)) 0
    (if 6 ≤ ty && ty ≤ 9 then x.applied else x.val, x.fault)
  | 3 => ((tget k.nrg.heats (code % 64) {}).quantity q, !k.heatValid (code % 64))
  | 4 => let x := tget k.nrg.groups (code % 8) {}; (tget x.vals q 0, !x.valid)
  | 6 => (tagSingle (k.cst.tagType (code % 2 ^ 27)) (k.tagWord (code % 2 ^ 27)), false)
  | 7 => let x := tget k.lpe.slots (code % 256) {}; (x.quantity q, x.pvFault)
  | _ => (0, false)

end Sys2Proof.Machine
end

