-- ==== Sys2Proof/Machine/Plan.lean ====
section
/-! DEFINITION. Plan records, fallback schedules and points, DEGRADED causes, ISLAND (spec/06). -/

namespace Sys2Proof.Machine

open Sys2Proof

/-! The FALLBACK and ISLAND sections (R170, R171, R184). -/

def Cst.fbGlobal (c : Cst) : Bytes := (c.rec? 0x71 0x710 0).getD []
def Cst.nPoints (c : Cst) : Nat := u16 c.fbGlobal 0
def Cst.holdMin (c : Cst) : Nat := u16 c.fbGlobal 2
def Cst.recoverN (c : Cst) : Nat := u8 c.fbGlobal 4
def Cst.point (c : Cst) (p : Nat) : Bytes := (c.rec? 0x71 0x711 p).getD []
def Cst.islGlobal (c : Cst) : Option Bytes := c.rec? 0x70 0x700 0
def Cst.islPoint (c : Cst) (p : Nat) : Option Nat := (c.rec? 0x70 0x702 p).map fun b => u8 b 0
def Cst.shedGroups (c : Cst) : List Rec := (c.recs 0x70).filter fun r => r.rtype = 0x703
/-- ISLAND can be used: the section is there and LOAD did not reject it (R192). -/
def Cst.islUsable (c : Cst) : Bool := c.islGlobal.isSome && !c.islandOff

/-- A value limited to LO and HI of a point (R171). -/
def limitPoint (b : Bytes) (v : Word) : Word := fClamp (f32 b 20) (f32 b 24) v

/-- The schedule that stands in for a point (R171, R186). -/
def Cst.pointSched (c : Cst) (isl : Bool) (p : Nat) : Nat :=
  if isl then (c.islPoint p).getD (u8 (c.point p) 7) else u8 (c.point p) 7

/-- The value a destination has from the casting (R174): SP_INIT of the slot, INIT of the tag. -/
def Cst.pointInit (c : Cst) (p : Nat) : Option Word :=
  let b := c.point p
  if u8 b 6 = 1 then some (f32 (c.slotRec (u32 b 8)) 52)
  else if u8 b 6 = 2 then (c.tagRec (u32 b 8)).map fun r => f32 r.body 8
  else none

/-- R174: the schedule value of a point at a second, limited; without one the last applied value, then the casting value;
a point without destination that was never applied reads a free value (log entry 22). -/
def Cst.schedWord (c : Cst) (isl : Bool) (applied : Table Word) (free : Nat) (p sec : Nat) : Word :=
  match c.schedAt (c.pointSched isl p) sec with
  | some v => limitPoint (c.point p) v
  | none => ((tfind applied p).or (c.pointInit p)).getD (Config.freeWord free)

/-! Values of a solve (R168, R171). -/

/-- Σ_s WEIGHT_s · v^s written to a class, with whether the write was an event. -/
def Cst.weighted (c : Cst) (cl : Cls) (v : Nat → Int) : Int × Bool :=
  writeAcc cl (accumulate ((List.range c.scenarios).map fun sc =>
    ({ raw := (u32 (c.scenario sc) 0 : Int), frac := 16 } : Q).mul { raw := v sc, frac := cl.frac }))

/-- The published words of a substation's decision vector and of one hub variable. -/
def Cst.subPlan (c : Cst) (it : Table ScenIter) (i : Nat) : List (Int × Bool) :=
  let cl := c.tplCls (c.subTpl i) 0
  (List.range (c.horizon * (c.dims (c.subTpl i)).b)).map fun w =>
    c.weighted cl fun sc => ((tget (tget it sc {}).subs i {}).xi).getD w 0
def Cst.hubPlan (c : Cst) (it : Table ScenIter) (v : Nat) : Int × Bool :=
  c.weighted (c.hubCls 0) fun sc => (tget it sc {}).p.getD v 0

/-- R171 steps 1 to 3: the point value of a published word, with whether a limit acted. -/
def pointValue (b : Bytes) (cl : Cls) (raw : Int) : Word × Bool :=
  let v := fAdd (fMul (fOfRat raw (2 ^ cl.frac)) (f32 b 12)) (f32 b 16)
  let l := limitPoint b v
  (l, l ≠ v)

/-- A point's substation, where its source is one. -/
def pointSub (b : Bytes) : Option Nat := if u8 b 0 = 1 ∨ u8 b 0 = 2 then some (u16 b 2) else none

/-- The published word of a point's source at step `k`: class and raw value. -/
def Cst.pointSource (c : Cst) (it : Table ScenIter) (b : Bytes) (k : Nat) : Cls × Int :=
  match u8 b 0 with
  | 1 =>
    let i := u16 b 2
    let d := c.dims (c.subTpl i)
    (c.tplCls (c.subTpl i) 0, (c.weighted (c.tplCls (c.subTpl i) 0) fun sc =>
      ((tget (tget it sc {}).subs i {}).xi).getD (k * d.b + u8 b 1) 0).1)
  | 2 =>
    let i := u16 b 2
    let d := c.dims (c.subTpl i)
    (c.tplCls (c.subTpl i) 0, (c.weighted (c.tplCls (c.subTpl i) 0) fun sc =>
      ((tget (tget it sc {}).subs i {}).xi).getD (k * d.b + d.nu + u8 b 1) 0).1)
  | _ => (c.hubCls 0, (c.hubPlan it (u16 b 2 + k * u16 b 4)).1)

/-- What the block of a point is made of: words, schedule values used, limits that acted. -/
structure PointOut where
  words : List Word := []
  sched : Bool := false
  limits : Nat := 0
deriving DecidableEq, Repr

/-- The hub variables that points publish. -/
def Cst.hubWords (c : Cst) : List Nat :=
  (((List.range c.nPoints).map c.point).flatMap fun b =>
    if u8 b 0 ≤ 2 then [] else (List.range c.horizon).map fun k => u16 b 2 + k * u16 b 4).eraseDups

/-- A block of one point, word by word: a value with whether a limit acted, or the schedule value of the step. -/
def buildPoint (n : Nat) (value : Nat → Option (Word × Bool)) (sched : Nat → Word) : PointOut :=
  (List.range n).foldl (fun o k =>
    match value k with
    | some v => { o with words := o.words ++ [v.1], limits := o.limits + v.2.toNat }
    | none => { o with words := o.words ++ [sched k], sched := true }) {}

/-! Records (R166, R175 to R177). -/

/-- The fields of a record that do not depend on its outcome. -/
def State.recordHead (s : State) (code cause openEpoch t0 : Nat) : PlanRec :=
  let c := s.live.cst
  { code := code, cause := cause, seq := s.live.pln.nextSeq, openEpoch := openEpoch, t0 := t0
    stepMin := c.stepMin, n := c.horizon, castSeq := c.seq }

/-- The start of horizon step k of a cycle. -/
def Cst.stepAt (c : Cst) (t0 k : Nat) : Nat := t0 + k * c.stepS

/-- The schedule value of a point at the start of step `k`. -/
def State.schedStep (s : State) (t0 p k : Nat) : Word :=
  s.live.cst.schedWord s.live.pln.island s.live.pln.applied s.freeCtr p (s.live.cst.stepAt t0 k)

/-- R177: the record of schedule values; it carries FLAGS.ISLAND while ISLAND is held (R189). -/
def State.fallbackRecord (s : State) (openEpoch t0 : Nat) : PlanRec :=
  let c := s.live.cst
  { s.recordHead 0 0 openEpoch t0 with
    flags := if s.live.pln.island then 12 else 4
    points := (List.range c.nPoints).map fun p => (buildPoint c.horizon (fun _ => none) (s.schedStep t0 p)).words
    subs := (List.range c.substations).map fun i =>
      { sub := i, paramGen := (s.live.asm.sub i).gen
        words := List.replicate (c.horizon * (c.dims (c.subTpl i)).b) 0 } }

/-- R168, R175: the record of a weighted iterate, with the events for PLN_SAT and PLN_LIMIT. -/
def State.solveRecord (s : State) : PlanRec × Nat × Nat :=
  let c := s.live.cst
  let x := s.live.slv
  let it := x.result
  let t0 := s.live.asm.t0
  let pts := (List.range c.nPoints).map fun p =>
    let b := c.point p
    let own := u8 b 0 = 0 ∨ (pointSub b).any fun i => x.excluded.contains i
    buildPoint c.horizon
      (fun k => if own then none else let q := c.pointSource it b k; some (pointValue b q.1 q.2)) (s.schedStep t0 p)
  let subs := (List.range c.substations).map fun i =>
    if x.excluded.contains i then
      (({ sub := i, flags := 1, paramGen := (s.live.asm.sub i).gen
          words := List.replicate (c.horizon * (c.dims (c.subTpl i)).b) 0 } : SubBlock), 0)
    else
      let w := c.subPlan it i
      let n := (w.filter Prod.snd).length
      (({ sub := i, flags := 4 * (decide (0 < n)).toNat, steps := c.horizon, paramGen := (s.live.asm.sub i).gen
          words := w.map fun v => BitVec.ofInt 32 v.1 } : SubBlock), n)
  let hubSat := c.hubWords.foldl (fun n v => n + (c.hubPlan it v).2.toNat) 0
  let sats : Nat := subs.foldl (fun n b => n + b.2) hubSat
  let ladleFlags : Nat := s.live.asm.ladles.foldl (fun f l => f ||| l.flags) 0
  let hold := (s.live.pln.cycleCal + s.live.epc.planP * s.live.epc.periodMs * 32768 / 1000 + c.holdMin * 60 * 32768) / 32768
  ({ s.recordHead x.code x.cause x.openEpoch t0 with
     flags := (if x.code = 3 then 1 else 0) ||| (if pts.any PointOut.sched then 4 else 0)
       ||| (if s.live.asm.island then 8 else 0) ||| (if 0 < sats then 16 else 0)
       ||| (if ladleFlags.testBit 3 then 32 else 0)
     srcEpoch := some x.openEpoch, srcT0 := t0, holdEnd := hold
     points := pts.map PointOut.words, subs := subs.map Prod.fst },
   sats, pts.foldl (fun n p => n + p.limits) 0)

/-- R176: the record of a SHIFTED outcome: the last valid plan, re-anchored. -/
def State.shiftedRecord (s : State) : PlanRec :=
  let c := s.live.cst
  let x := s.live.slv
  let t0 := s.live.asm.t0
  let head := s.recordHead 4 x.cause x.openEpoch t0
  let ladleFlags : Nat := s.live.asm.ladles.foldl (fun f l => f ||| l.flags) 0
  let base : Nat := 2 ||| (if s.live.asm.island then 8 else 0) ||| (if ladleFlags.testBit 3 then 32 else 0)
  match s.live.pln.lastValid with
  | none => { s.fallbackRecord x.openEpoch t0 with code := 4, cause := x.cause, flags := base ||| 4 }
  | some v =>
    let d : Int := ((t0 : Int) - v.srcT0).fdiv (c.stepS : Int)
    let pts := (List.range c.nPoints).map fun p =>
      let b := c.point p
      let own := u8 b 0 = 0 ∨ (pointSub b).any fun i => x.excluded.contains i
      buildPoint c.horizon (fun k =>
        let j : Int := (k : Int) + d
        if own ∨ j < 0 ∨ (c.horizon : Int) ≤ j then none
        else ((v.points.getD p [])[j.toNat]?).map fun w => (w, false)) (s.schedStep t0 p)
    let subs := v.subs.map fun b =>
      let n := (c.dims (c.subTpl b.sub)).b
      let gen := (s.live.asm.sub b.sub).gen
      if x.excluded.contains b.sub then
        { b with flags := 1, steps := 0, paramGen := gen, words := List.replicate (c.horizon * n) 0 }
      else if d < 0 then
        { b with flags := 2, steps := 0, paramGen := gen, words := List.replicate (c.horizon * n) 0 }
      else
        let keep := b.words.drop (d.toNat * n)
        { b with flags := (b.flags ||| 2), steps := b.steps - d.toNat, paramGen := gen
                 words := keep ++ List.replicate (c.horizon * n - keep.length) 0 }
    { head with
      flags := base ||| (if pts.any PointOut.sched then 4 else 0)
      srcEpoch := v.srcEpoch, srcT0 := v.srcT0, holdEnd := v.holdEnd
      points := pts.map PointOut.words, subs := subs }

/-! DEGRADED (R181, R182). -/

/-- The causes as the bits of PLN_DEGR. -/
def Pln.causes (p : Pln) : Nat :=
  p.cShiftRun.toNat + 2 * p.cNoLanes.toNat + 4 * p.cDpAbsent.toNat + 8 * p.cOptOff.toNat + 16 * p.cClock.toNat

/-- R181: the causes after an outcome, of which only a SHIFTED one sets RECOVER to 0; `run` is SLV_SHIFT.RUN, `absent` EPC_STATUS.DP_ABSENT. -/
def Pln.outcome (p : Pln) (code cause run need : Nat) (absent : Bool) : Pln :=
  if code = 4 then
    { p with recover := 0, cShiftRun := p.cShiftRun || decide (3 ≤ run), cNoLanes := p.cNoLanes || decide (cause = 4) }
  else if 1 ≤ code ∧ code ≤ 3 then
    let p := if absent then p else { p with cDpAbsent := false }
    if p.cShiftRun || p.cNoLanes then
      let more : Bool := decide (p.recover + 1 < need)
      { p with recover := min 16 (p.recover + 1), cShiftRun := p.cShiftRun && more, cNoLanes := p.cNoLanes && more }
    else p
  else p

/-! Points and destinations (R172, R179). -/

/-- A value set at a point's destination: a loop slot's setpoint, or a tag at the next input phase. -/
def State.setPoint (s : State) (p : Nat) (v : Word) : State :=
  let b := s.live.cst.point p
  let s := s.modPln fun x => { x with applied := tset x.applied p v }
  if u8 b 6 = 1 then s.modLpe fun x => { x with slots := tmod x.slots (u32 b 8) {} fun y => { y with sp := v } }
  else if u8 b 6 = 2 then s.modLgc fun x => { x with planTags := tset x.planTags (u32 b 8) v }
  else s

/-- The calendar of the boundary in counts and the horizon step it lies in (R179). -/
def State.bound (s : State) : Nat := s.live.clk.bound.getD 0
def State.stepOf (s : State) (r : PlanRec) : Int :=
  if r.stepMin = 0 then -1 else ((s.bound / 32768 : Nat) - (r.t0 : Int)).fdiv ((r.stepMin * 60 : Nat) : Int)

/-- The present time is at or after HOLD_END of a record (R178). -/
def State.holdOut (s : State) (r : PlanRec) (counts : Nat) : Bool :=
  r.holdEnd = 0 || decide (r.holdEnd * 32768 ≤ counts) || s.live.pln.record.isNone

/-- R179: the value of a point at a boundary. -/
def State.pointNow (s : State) (r : PlanRec) (p : Nat) : Word :=
  let k := s.stepOf r
  let isl := s.live.pln.island
  let stay := isl && !s.live.pln.islandRecord && (s.live.cst.islPoint p).isSome
  let sched := s.live.cst.schedWord isl s.live.pln.applied s.freeCtr p (s.bound / 32768)
  if stay ∨ k < 0 ∨ s.holdOut r s.bound then sched
  else ((r.points.getD p [])[k.toNat]?).getD sched

/-- R179: every point set for the boundary. -/
def State.setPoints (s : State) : State :=
  match s.live.pln.record with
  | none => s
  | some r =>
    let vals := (List.range s.live.cst.nPoints).map fun p => (p, s.pointNow r p)
    let s := vals.foldl (fun s v => if u8 (s.live.cst.point v.1) 6 = 0 then
      s.modPln fun x => { x with applied := tset x.applied v.1 v.2 } else s.setPoint v.1 v.2) s
    { (s.modPln fun x => { x with stepSet := s.stepOf r }) with freeCtr := s.freeCtr + 1 }

/-- A record is poured at a boundary: it becomes the published one, its points are set (R165, R179, R181, R182). -/
def State.pourRecord (s : State) (r : PlanRec) (before : Nat) : State :=
  let deg : Bool := before ≠ 0 || s.live.pln.causes ≠ 0
  let r := { r with flags := r.flags ||| (if deg then 64 else 0), seq := s.live.pln.nextSeq }
  let s := s.modPln fun x => { x with
    record := some r
    nextSeq := x.nextSeq + 1
    lastValid := if 1 ≤ r.code ∧ r.code ≤ 3 then some r else x.lastValid
    islandRecord := x.islandRecord || (x.island && r.flags.testBit 3)
    holdDone := r.holdEnd = 0 || decide (r.holdEnd * 32768 ≤ s.bound) }
  ({ s with freeCtr := s.freeCtr + 1 }).setPoints

/-- A finished solve at the next boundary: its outcome counts for the causes (R161, R181), and its record is poured (R160, R175); none is
built while the data plane is marked absent (R182). -/
def State.pourResult (s : State) : State :=
  if !s.live.slv.resultReady then s
  else
    let s1 := s.modSlv fun x => { x with resultReady := false }
    let before := s.live.pln.causes
    let s2 := s1.modPln fun p => p.outcome s.live.slv.code s.live.slv.cause s.live.slv.shiftRun s.live.cst.recoverN
      s.live.epc.dpAbsent
    if s.live.epc.dpAbsent then s2
    else if s.live.slv.code = 4 then s2.pourRecord s.shiftedRecord before
    else
      let x := s.solveRecord
      (s2.modPln fun p => { p with sat := satAdd 32 p.sat x.2.1, limit := satAdd 32 p.limit x.2.2 }).pourRecord x.1 before

/-- R177: the opening epochs at which a record of schedule values is poured. -/
def State.poursFallback (s : State) : Bool :=
  !s.live.epc.dpAbsent && (!s.live.cst.optimiser || s.live.pwr.mode = .commission)

/-- R179: the boundary effects of the published record: a new horizon step has begun. -/
def State.stepPoints (s : State) : State :=
  match s.live.pln.record with
  | none => s
  | some r => if s.stepOf r ≠ s.live.pln.stepSet then s.setPoints else s

/-! ISLAND (R187 to R192). -/

/-- The members of a shed group: kind, index, value. -/
def shedMembers (b : Bytes) : List (Nat × Nat × Word) :=
  (List.range (u8 b 1)).map fun k => (u8 b (16 + 8 * k), u16 b (18 + 8 * k), f32 b (20 + 8 * k))

/-- R187: the value of a member under the groups shed: that of the lowest-numbered group. -/
def Cst.shedValue (c : Cst) (shed : List Nat) (kind idx : Nat) : Option Word :=
  ((sortBy (fun (a b : Rec) => decide (a.index ≤ b.index)) (c.shedGroups.filter fun r => shed.contains r.index)).findSome? fun r =>
    (shedMembers r.body).findSome? fun m => if m.1 = kind ∧ m.2.1 = idx then some m.2.2 else none)

/-- The output of a loop slot is shed: by its own membership, or its field channel's (R187, R220). -/
def Cst.slotShed (c : Cst) (shed : List Nat) (n : Nat) : Bool :=
  (c.shedValue shed 2 n).isSome ||
    (u8 (c.slotRec n) 6 = 1 && (c.shedValue shed 1 (if u32 (c.slotRec n) 12 = 0xFFFFFFFF then n / 2 else u32 (c.slotRec n) 12)).isSome)

/-- A list of bytes of an event (R538). -/
def ev1 (a : Nat) : Bytes := leBytes 1 a
def ev2 (a b : Nat) : Bytes := leBytes 1 a ++ leBytes 1 b

/-- R187: the shed states of logic tags, 0 or 1, under the groups shed. -/
def Cst.shedTags (c : Cst) (shed : List Nat) : List (Nat × Word) :=
  let tags := (c.shedGroups.flatMap fun r => ((shedMembers r.body).filter fun m => m.1 = 4).map fun m => m.2.1).eraseDups
  tags.filterMap fun t => (c.shedValue shed 4 t).map fun v => (t, if single.isZero v.toNat then 0 else 1)

/-- An injection runs. -/
def Lpe.injecting (x : Lpe) : Bool := x.injState = 1 || x.injState = 2

/-- R220: the injection aborts with a cause. -/
def Lpe.abort (x : Lpe) (cause : Nat) : Lpe :=
  if x.injecting then { x with injState := 4, injCause := cause, injAborted := true } else x

/-- R190, R220: a group that becomes shed and holds the output of the slot under injection aborts it. -/
def State.shedAborts (s : State) (new : List Nat) : State :=
  if s.live.cst.slotShed new s.live.lpe.injSlot then s.modLpe fun p => p.abort 6 else s

/-- The groups shed change: counts, journal, tags, an injection's end (the output stage reads the groups where it drives). -/
def State.setShed (s : State) (shed : List Nat) : State :=
  let new := shed.filter fun g => !s.live.pln.shed.contains g
  let old := s.live.pln.shed.filter fun g => !shed.contains g
  let s := new.foldl (fun s g => s.journal 24 (ev2 2 g)) s
  let s := old.foldl (fun s g => s.journal 24 (ev2 3 g)) s
  ((s.modPln fun p => { p with shed := shed, sheds := satAdd 16 p.sheds new.length }).modLgc fun x =>
    { x with shedTags := s.live.cst.shedTags shed }).shedAborts new

/-- R189: entry into ISLAND (the mode changes in the mode table). -/
def State.enterIsland (s : State) : State :=
  let at_ := (s.live.cst.shedGroups.filter fun r => u8 r.body 0 = 1).map Rec.index
  let s := (s.journal 24 (ev2 0 0)).modPln fun p => { p with
    island := true, islandRecord := false, entries := satAdd 16 p.entries 1, restoreAt := none, enterDue := false }
  (s.setShed (s.live.pln.shed ++ at_.filter fun g => !s.live.pln.shed.contains g)).setPoints

/-- R190: the groups with a LEVEL_SRC, on the poured value. -/
def State.evalShed (s : State) (k : Core) (src : Nat → Word) : State :=
  if !s.live.pln.island then s
  else
    let _ := k
    s.setShed (s.live.cst.shedGroups.foldl (fun shed r =>
      let lv := u32 r.body 4
      if lv / 2 ^ 28 = 0 then shed
      else
        let v := src lv
        if !fFinite v then shed
        else if !(Dy.ofQ16 (BitVec.ofNat 32 (u32 r.body 8))).le (fValue v) then
          (if shed.contains r.index then shed else shed ++ [r.index])
        else if !(fValue v).le (Dy.ofQ16 (BitVec.ofNat 32 (u32 r.body 12))) then shed.filter (· ≠ r.index)
        else shed) s.live.pln.shed)

/-- R191: ISLAND ends; groups are restored one by one, or all at once. -/
def State.leaveIsland (s : State) : State :=
  let stagger := match s.live.cst.islGlobal with
    | some b => u16 b 16
    | none => 0
  let s := (s.journal 24 (ev2 1 0)).modPln fun p => { p with
    island := false
    cmdHeld := false
    leaveDue := false
    restoreAt := if stagger = 0 ∨ p.shed.isEmpty then none else some (s.now + stagger * 1000000) }
  (if stagger = 0 then s.setShed [] else s).setPoints

/-- R191: the next shed group, in descending order, is restored. -/
def State.restoreGroup (s : State) : State :=
  let top := s.live.pln.shed.foldl max 0
  let rest := s.live.pln.shed.filter (· ≠ top)
  let stagger := match s.live.cst.islGlobal with
    | some b => u16 b 16
    | none => 0
  (s.setShed rest).modPln fun p => { p with restoreAt := if rest.isEmpty then none else some (s.now + stagger * 1000000) }

/-- The elements a group's wiring has (R302). -/
def wiredPhases (wiring : Nat) : List Nat := if wiring = 0 then [0, 1, 2] else if wiring = 1 then [0, 2] else [0]

/-- Whether a detector shows loss now (R188): phases 0 to 2 of the watched group, 3 the tag. -/
def State.detectorLoss (s : State) (b : Bytes) (d : Nat) : Bool :=
  if d < 3 then
    let m := tget s.live.nrg.groups (u8 b 0) {}
    (u8 b 1).testBit 0 && (wiredPhases (u8 (s.live.cst.groupRec (u8 b 0)) 0)).contains d &&
      !((({ m := ((u16 b 8 * u32 b 12 : Nat) : Int) } : Dy)).le ((fValue (tget m.vals (2 + d) 0)).mul { m := 65536000 }))
  else (u8 b 1).testBit 1 && (s.live.tagWord (u32 b 4)).toNat.testBit 0

/-- R188: since when each detector has shown loss, and all of them health; taken at every new value. -/
def State.watchGrid (s : State) : State :=
  match s.live.cst.islGlobal with
  | none => s
  | some b =>
    let loss := fun d => s.detectorLoss b d
    let healthy := !((List.range 4).any loss) &&
      (!(u8 b 1).testBit 0 || (tget s.live.nrg.groups (u8 b 0) {}).valid)
    s.modPln fun p => { p with
      lossSince := (List.range 4).filterMap fun d =>
        if loss d then some (d, tget p.lossSince d s.now) else none
      healthySince := if healthy then some (p.healthySince.getD s.now) else none }

/-! Events of this chapter. -/

/-- A boundary has just been reached and no time has passed since. -/
def State.atBoundary (s : State) : Bool := s.live.epc.pouring && decide (s.now = s.live.epc.boundaryAt)

/-- R32, R33, R46: how far from its period the epoch timer may set a boundary, in ns: 100 ppm of it while it is slewed, 2 µs more on a unit
locked to its partner, and the 1 % of the on-die oscillator (R23) while the crystal is lost. -/
def State.timerSlack (s : State) : Nat :=
  s.live.epc.periodMs * (if s.live.sys.reserveOsc then 10000 else 100) + (if s.live.epc.pairLock then 2000 else 0)

/-- What a boundary event changes belongs to the pour of that boundary: the bank in preparation is taken anew. -/
def State.repour (s : State) : State :=
  { s with prep := s.prep.map fun b => { b with core := s.live } }

end Sys2Proof.Machine
end

