-- ==== Sys2Proof/Machine/Channels.lean ====
section
/-! DEFINITION. Field channels and conversion (spec/09): from codes to engineering values, faults, slices, passes and
requests, calibration, outputs. -/

namespace Sys2Proof.Machine

open Sys2Proof

/-! The CHANNEL record (R253). -/

def chType (b : Bytes) : Nat := u8 b 0
def chRange (b : Bytes) : Nat := u8 b 1
def chCalMode (b : Bytes) : Nat := u8 b 2
def chLin (b : Bytes) : Nat := u8 b 3
def chSeqDiv (b : Bytes) : Nat := u16 b 4
def chOvs (b : Bytes) : Nat := u8 b 6
def chFlag (b : Bytes) (i : Nat) : Bool := (u8 b 7).testBit i
def chA (b : Bytes) : Word := f32 b 8
def chB (b : Bytes) : Word := f32 b 12
def chFltLo (b : Bytes) : Word := f32 b 16
def chFltHi (b : Bytes) : Word := f32 b 20
def chFval (b : Bytes) : Word := f32 b 24
def chInit (b : Bytes) : Word := f32 b 28
def chTau (b : Bytes) : Nat := u16 b 44
def chFvalMode (b : Bytes) : Nat := u8 b 46
def chDebounce (b : Bytes) : Nat := u8 b 47

/-- Inputs and outputs (R249). -/
def chIsInput (b : Bytes) : Bool := 1 ≤ chType b && chType b ≤ 5
def chIsOutput (b : Bytes) : Bool := 6 ≤ chType b && chType b ≤ 9

/-- Channels with entries in their group's sequence, and those that a request converts (R255, R263). -/
def chHasEntry (b : Bytes) : Bool :=
  (1 ≤ chType b && chType b ≤ 3 && !chFlag b 3) || (chType b = 4 && chFlag b 1) || (chIsOutput b && chFlag b 2)
def chConverts (b : Bytes) : Bool := chHasEntry b || (1 ≤ chType b && chType b ≤ 3)

/-- Stages and sources supplied from VFLD (R271 code 9, R279). -/
def chFromVfld (b : Bytes) : Bool :=
  (chType b = 2 && chFlag b 0) || chType b = 4 || chType b = 7 || chType b = 8 || (chType b = 9 && chRange b = 1)

/-- The span of a range in electrical units (R250, R265, R266). -/
def chSpan (b : Bytes) : Nat :=
  match chType b, chRange b with
  | 1, 0 => 10 | 1, _ => 20 | 2, _ => 24 | 3, 0 => 4500 | 3, _ => 400000 | _, _ => 1

/-! Linearisation (R257). -/

/-- A decimal fraction as a binary64 code. -/
def d64 (num : Int) (den : Nat) : Nat := double.ofRat false num den 0

/-- Callendar-Van Dusen coefficients. -/
def cvdA : Nat := d64 39083 10000000
def cvdB : Nat := d64 (-5775) 10000000000
def cvdC : Nat := d64 (-4183) 1000000000000000

/-- T of the quadratic branch. -/
def platinumQuad (rho : Nat) : Nat :=
  let d := double
  let disc := d.sub (d.mul cvdA cvdA) (d.mul (d.mul (d.ofNat 4) cvdB) (d.sub (d.ofNat 1) rho))
  d.div (d.sub (d.sqrt disc) cvdA) (d.mul (d.ofNat 2) cvdB)

/-- One Newton step on ρ = 1 + A T + B T² + C (T − 100) T³. -/
def newtonStep (rho t : Nat) : Nat :=
  let d := double
  let t2 := d.mul t t
  let t3 := d.mul t2 t
  let f := d.sub (d.add (d.add (d.add (d.ofNat 1) (d.mul cvdA t)) (d.mul cvdB t2))
    (d.mul (d.mul cvdC (d.sub t (d.ofNat 100))) t3)) rho
  let g := d.add (d.add cvdA (d.mul (d.mul (d.ofNat 2) cvdB) t))
    (d.mul cvdC (d.sub (d.mul (d.ofNat 4) t3) (d.mul (d.ofNat 300) t2)))
  d.sub t (d.div f g)

/-- Platinum: L and whether q lies outside the domain. -/
def linPlatinum (b : Bytes) (q : Word) : Word × Bool :=
  let d := double
  let x := single.convert d q.toNat
  let r0 := single.convert d (u32 b 32)
  let lead := single.convert d (u32 b 36)
  let rho := d.div (d.sub x lead) r0
  let lo := d64 1852 10000
  let hi := d64 39048 10000
  let out := d.isNaN rho || d.lt rho lo || d.lt hi rho
  let rho := d.clamp lo hi rho
  let t := platinumQuad rho
  let t := if d.le (d.ofNat 1) rho then t else newtonStep rho (newtonStep rho (newtonStep rho (newtonStep rho t)))
  (BitVec.ofNat 32 (d.convert single t), out)

/-- NTC: L and whether q lies outside the domain. -/
def linNtc (b : Bytes) (q : Word) : Word × Bool :=
  let d := double
  let x := single.convert d q.toNat
  let c := fun o => single.convert d (u32 b o)
  let ln := Config.ln64 x
  let inv := d.add (d.add (c 32) (d.mul (c 36) ln)) (d.mul (c 40) (d.mul (d.mul ln ln) ln))
  let hot := d.div (d.ofNat 1) (d64 47315 100)
  let cold := d.div (d.ofNat 1) (d64 17315 100)
  let low : Bool := single.neg q.toNat || single.isZero q.toNat || single.isNaN q.toNat
  let out := low || d.isNaN inv || d.lt inv hot || d.lt cold inv
  let inv := if low then hot else d.clamp hot cold inv
  (BitVec.ofNat 32 (d.convert single (d.sub (d.div (d.ofNat 1) inv) (d64 27315 100))), out)

/-- R257. -/
def linearise (b : Bytes) (q : Word) : Word × Bool :=
  if chLin b = 1 then linPlatinum b q else if chLin b = 2 then linNtc b q else (q, false)

/-- Steps 5 and 6 of R256. -/
def toEngineering (b : Bytes) (q : Word) : Word := fAdd (fMul (chA b) (linearise b q).1) (chB b)

/-! Faults (R271, R272). -/

/-- A condition tested on results: entered after `n` consecutive results that meet it, left after 4 that do not. -/
def Chan.test (x : Chan) (code n : Nat) (met : Bool) : Chan :=
  if met then
    let k := tget x.bad code 0 + 1
    { x with bad := tset x.bad code k, good := tset x.good code 0
             conds := if n ≤ k ∧ !x.conds.contains code then code :: x.conds else x.conds }
  else
    let k := tget x.good code 0 + 1
    { x with good := tset x.good code k, bad := tset x.bad code 0
             conds := if 4 ≤ k then x.conds.filter (· ≠ code) else x.conds }

/-- A condition entered or left as it occurs. -/
def Chan.setCond (x : Chan) (code : Nat) (on : Bool) : Chan :=
  if on then { x with conds := if x.conds.contains code then x.conds else code :: x.conds }
  else { x with conds := x.conds.filter (· ≠ code) }

/-- What a change of the conditions does: a rise of FAULT is counted; when a fault clears the filter restarts. -/
def Chan.noteFault (old new : Chan) : Chan :=
  let new := if !old.fault && new.fault then { new with faultSeen := true, winFault := true, fltCount := satAdd 16 new.fltCount 1 } else new
  if old.fault && !new.fault then { new with filtered := false } else new

/-- R272: the engineering value of a faulted input. -/
def Chan.faultValue (x : Chan) (b : Bytes) : Word :=
  match chFvalMode b with
  | 0 => x.lastGood.getD (chFval b)
  | 1 => chFval b
  | 2 => toEngineering b (chFltLo b)
  | _ => toEngineering b (chFltHi b)

/-- R271, R272: what a change of the conditions of a channel does; a faulted input takes the value of its FVAL_MODE at once. -/
def Chan.settle (old new : Chan) (b : Bytes) : Chan :=
  let y := Chan.noteFault old new
  if chIsInput b && y.fault then { y with val := y.faultValue b } else y

/-- R258: the filter, on a result `v` after `ns` since the previous one. -/
def filterStep (b : Bytes) (y v : Word) (ns : Nat) : Word :=
  if chTau b = 0 then v
  else
    let ts := fOfRat (ns : Int) 1000000
    let a := fDiv ts (fAdd ts (fOfNat (chTau b)))
    fAdd y (fMul a (fSub v y))

/-- The value of an input after a result `v`, its conditions being already those of the result (R258, R272). -/
def Chan.setValue (old x : Chan) (b : Bytes) (v : Word) (now : Nat) (filter : Bool) : Chan :=
  let x := Chan.noteFault old x
  let ns := now - x.lastAt.getD now
  let x := { x with lastAt := some now, results := x.results + 1 }
  if x.fault then { x with val := x.faultValue b }
  else
    let y := if filter && x.filtered then filterStep b x.val v ns else v
    { x with val := y, filtered := true, lastGood := some y }

/-! Conversion (R256). -/

/-- The averaged code of a sum of 2^OVS codes. -/
def averageCode (sum : Int) (ovs : Nat) : Int := clampInt (-131072) 131071 (divHalfEven sum (2 ^ ovs))

/-- Step 2: volts at the slice input. -/
def sliceCorrect (sl : Slice) (x : Int) : Word := fMul (fSub (fOfInt x) sl.ofs) sl.gain

/-- Step 3: the factory or background path; an IIN or RES channel whose shunt or excitation the claim gate has switched off converts with
its nominal value (R251, log entry 83). -/
def Chan.path (x : Chan) (b : Bytes) (c : Word) (sourced : Bool := true) : Word :=
  let k := match chCalMode b, x.bg with
    | 2, some k => k
    | _, _ => (x.facOfs, x.facGain)
  fMul (fSub c k.1) (if !sourced && (chType b = 2 || chType b = 3) then Config.nominalGain (chType b) (chRange b) else k.2)

/-- The stored system coefficients that apply to a record (R267). -/
def Chan.sysCal (x : Chan) (b : Bytes) : Option SysCal :=
  if chCalMode b = 1 then x.stored.filter fun k => k.type = chType b && k.range = chRange b else none

/-- Step 4. -/
def Chan.system (x : Chan) (b : Bytes) (qf : Word) : Word :=
  match x.sysCal b with
  | some k => fMul (fSub qf k.ofs) k.gain
  | none => qf

/-- FCH_STAT.UNCAL (R265, R266). -/
def Chan.uncal (x : Chan) (b : Bytes) : Bool :=
  (chCalMode b = 1 && (x.sysCal b).isNone) || (chCalMode b = 2 && x.bg.isNone)

/-- Averaging of a system calibration step (R266). -/
def Chan.average (x : Chan) (qf : Word) : Chan :=
  if (x.calState = 1 ∨ x.calState = 3) ∧ x.calN < 256 then
    if x.fault then { x with calState := if x.calState = 1 then 0 else 2, calResult := 3, calN := 0, calSum := {} }
    else if !fFinite qf then { x with calState := if x.calState = 1 then 0 else 2, calResult := 4, calN := 0, calSum := {} }
    else { x with calSum := x.calSum.add (fValue qf), calN := x.calN + 1 }
  else x

/-- The result of a sequence or requested entry of an input (R256 to R258, R271); `sourced` while its front-end's parts are on. -/
def Chan.inputResult (x : Chan) (b : Bytes) (sl : Slice) (slice : Nat) (code : Int) (compliance sourced : Bool) (now : Nat) : Chan :=
  let c := sliceCorrect sl code
  let qf := x.path b c sourced
  let q := x.system b qf
  let l := linearise b q
  let old := x
  let x := { x with code := code, raw := q, slice := slice }
  if chType b = 4 then
    let x := (x.test 3 2 (fLt q (fOfRat 1 2))).test 4 2 (fLt (fOfNat 12) q)
    Chan.settle old { x with results := x.results + 1, lastAt := some now } b
  else
    let x := x.setCond 12 false
    let x := if chType b = 3 then
        let x := ((x.test 2 2 (!compliance && fLt (chFltHi b) q)).test 3 2 compliance).test 4 2 (fLt q (chFltLo b))
        if chLin b = 0 then x else x.test 10 2 l.2
      else (x.test 1 2 (fLt q (chFltLo b))).test 2 2 (fLt (chFltHi b) q)
    (Chan.setValue old x b (fAdd (fMul (chA b) l.1) (chB b)) now true).average qf

/-- The result of a readback entry of an output (R271 code 7, R273); `drives` while the stage drives. -/
def Chan.readbackResult (x : Chan) (b : Bytes) (sl : Slice) (slice : Nat) (code : Int) (drives : Bool) (now : Nat) : Chan :=
  let q := x.path b (sliceCorrect sl code)
  let old := x
  let x := { x with code := code, readback := q, slice := slice, results := x.results + 1, lastAt := some now }
  let x := if drives then x.test 7 3 (fLt (chFltHi b) (fAbs (fSub q x.elec))) else x
  Chan.noteFault old x

/-! State access. -/

def State.chan (s : State) (n : Nat) : Chan := tget s.live.fch.chans n {}
def State.setChan (s : State) (n : Nat) (x : Chan) : State := s.modFch fun f => { f with chans := tset f.chans n x }
def State.chRec (s : State) (n : Nat) : Bytes := s.live.cst.chan n
def State.grp (s : State) (g : Nat) : Grp := tget s.live.fch.groups g {}
def State.setGrp (s : State) (g : Nat) (x : Grp) : State := s.modFch fun f => { f with groups := tset f.groups g x }
def State.slice (s : State) (k : Nat) : Slice := tget s.live.fch.slices k {}
def State.setSlice (s : State) (k : Nat) (x : Slice) : State := s.modFch fun f => { f with slices := tset f.slices k x }

/-- The channels run as configured, or hold through a warm reset (R280). -/
def State.fieldOn (s : State) : Bool := s.live.fch.configured || s.live.fch.holding

/-- The stage of an output drives: a configured output, gate open, not switched off, supplied (R248, R273, R278 to R280). -/
def State.drives (s : State) (n : Nat) : Bool :=
  let x := s.chan n
  let b := s.chRec n
  chIsOutput b && s.live.par.gate && s.fieldOn && !x.hiz && x.offUntil.isNone && !x.tripLatch && !(s.live.fch.vfldLow && chFromVfld b)

/-- The sourcing parts of an input's front-end that are switched on. -/
structure FrontEnd where
  excitation : Bool := false
  shunt : Bool := false
  loopSupply : Bool := false
  wetting : Bool := false
  pullUp : Bool := false
deriving DecidableEq, Repr

/-- R248, R249, R251, R279, R280: the sourcing parts follow the record and the claim gate; they are off in a cold reset until epoch 0 and in
SAFEHOLD without a profile, the VFLD ones while VFLD is low, the shunt after it has opened. -/
def State.frontEnd (s : State) (n : Nat) : FrontEnd :=
  let b := s.chRec n
  let on : Bool := s.live.par.gate && s.fieldOn && !(s.live.pwr.mode = .safehold && (s.live.cst.recs 0x11).isEmpty)
  let vfld : Bool := !s.live.fch.vfldLow
  { excitation := on && chType b = 3
    shunt := on && chType b = 2 && (s.chan n).shuntAt.isNone
    loopSupply := on && chType b = 2 && chFlag b 0 && vfld
    wetting := on && chType b = 4 && chFlag b 1 && vfld
    pullUp := on && chType b = 5 && chRange b = 1 }

/-- Channels of a group, and those with entries. -/
def groupChans (g : Nat) : List Nat := (List.range 6).map fun k => 6 * g + k
def Cst.groupHasEntries (c : Cst) (g : Nat) : Bool := (groupChans g).any fun n => chHasEntry (c.chan n)
def Cst.groupPeriod (c : Cst) (g : Nat) : Nat := u32 ((c.rec? 0x40 0x402 g).getD []) 0
def Cst.rotMs (c : Cst) : Nat := u32 ((c.rec? 0x40 0x401 0).getD []) 0

/-! Slices (R260, R264, R268 to R270). -/

/-- The slice serving a group. -/
def State.serving (s : State) (k : Nat) : Option Nat := (List.range 16).find? fun g => decide ((s.grp g).slice = some k)

/-- A slice can be chosen: not retired, not serving. -/
def State.sliceFree (s : State) (k : Nat) : Bool := !(s.slice k).retired && (s.serving k).isNone

/-- The calibration slice that has been idle longest. -/
def State.idleCal (s : State) : Option Nat :=
  ((List.range 18).filter fun k => s.sliceFree k && !(s.slice k).visiting && (s.slice k).idleSince.isSome).foldl
    (fun a k => match a with
      | none => some k
      | some j => if (s.slice k).idleSince.getD 0 < (s.slice j).idleSince.getD 0 then some k else some j) none

/-- The reserve, while it has not been used. -/
def State.reserve (s : State) : Option Nat :=
  (List.range 18).reverse.find? fun k => s.sliceFree k && !(s.slice k).visiting && (s.slice k).idleSince.isNone

/-- A slice in its visit. -/
def State.visitor (s : State) : Option Nat := (List.range 18).find? fun k => s.sliceFree k && (s.slice k).visiting

/-- STATE of a slice in FCH_SLICE_ST: 0 serving, 1 calibration, 2 reserve, 3 retired. -/
def State.sliceState (s : State) (k : Nat) : Nat :=
  if 17 < k ∨ (s.slice k).retired then 3
  else if (s.serving k).isSome then 0
  else if (s.slice k).visiting || (s.slice k).idleSince.isSome then 1 else 2

/-- R270: with no calibration slice left rotation stops, with an alarm (log entry 16). -/
def State.checkRotation (s : State) : State :=
  if s.idleCal.isNone && s.visitor.isNone && !s.live.fch.noRot then (s.modFch fun f => { f with noRot := true }).journal 0 (ev1 7) true else s

/-- R269: a slice retired; the reserve, if present, makes a visit. Reason 0 failed visit, 1 stuck. -/
def State.retireSlice (s : State) (k reason : Nat) : State :=
  let s := (s.setSlice k { s.slice k with retired := true, visiting := false, idleSince := none }).modFch fun f =>
    { f with swapSeen := true }
  let s := s.journal 7 (leBytes 1 1 ++ leBytes 1 k ++ leBytes 1 reason)
  let s := match s.reserve with
    | some r => s.setSlice r { s.slice r with visiting := true }
    | none => s
  s.checkRotation

/-- R264: the coefficients of a visit from its sums over 256 conversions each. -/
def visitOffset (zeroSum : Int) : Word := fOfRat zeroSum 256
def visitGain (zeroSum refSum : Int) : Word := fDiv (fOfRat 5 2) (fSub (fOfRat refSum 256) (visitOffset zeroSum))

/-- R268: a visit fails. -/
def visitFails (zeroSum refSum midSum zeroSquares : Int) : Bool :=
  let g := fValue (visitGain zeroSum refSum)
  let nom := fValue Config.sliceGain
  let diff := g.add { nom with m := -nom.m }
  let d : Dy := { diff with m := diff.m.natAbs }
  decide (256 * 256 < zeroSum.natAbs) || !fFinite (visitGain zeroSum refSum) || !(d.mul { m := 400 }).le nom
    || decide (16 * 256 < (2 * midSum - (zeroSum + refSum)).natAbs)
    || decide (9 * 65536 < 256 * zeroSquares - zeroSum * zeroSum)

/-! Entries, passes and requests (R255, R261 to R263). -/

/-- The length of an entry in ns (R255). -/
def entryNs (ovs : Nat) : Nat := (2 + 2 ^ ovs) * 1000

/-- The code of an entry: the sum the environment gave, or a free value (log entry 25). -/
def State.entryCode (s : State) (e : Entry_) (ovs : Nat) : Int × Bool × State :=
  match e.sum with
  | some (v, comp) => (averageCode v ovs, comp, s)
  | none => (clampInt (-131072) 131071 (Config.freeInt s.freeCtr), Config.freeBool s.freeCtr,
      { s with freeCtr := s.freeCtr + 1 })

/-- R265: the background coefficients of a path check. -/
def Chan.pathCheck (x : Chan) (b : Bytes) (zp rp : Word) : Chan × Bool :=
  let g := fDiv (Config.pathReference (chType b) (chRange b)) (fSub rp zp)
  let dg := fAbs (fSub g x.facGain)
  let dof := fAbs (fMul (fSub zp x.facOfs) x.facGain)
  let bad := fLt (fMul (fOfRat 1 100) (fAbs x.facGain)) dg || fLt (fOfRat (2 * chSpan b : Nat) 1000) dof || !fFinite g || !fFinite zp
  let old := x
  let x := { x with pathOfs := zp, pathGain := g }
  if bad then (Chan.settle old ({ x with pathBad := true }.setCond 11 true) b, !old.pathBad)
  else (Chan.settle old ({ x with pathBad := false, bg := some (zp, g) }.setCond 11 false) b, false)

/-- An entry ends: its result updates the channel (R256). -/
def State.finishEntry (s : State) (g : Nat) (e : Entry_) : State :=
  let b := s.chRec e.ch
  let k := (s.grp g).slice.getD 31
  let sl := s.slice k
  let r := s.entryCode e (chOvs b)
  let s := r.2.2
  let x := s.chan e.ch
  if e.kind = 2 then s.setChan e.ch { x with zp := some (sliceCorrect sl r.1) }
  else if e.kind = 3 then
    let y := x.pathCheck b (x.zp.getD 0) (sliceCorrect sl r.1)
    let s := s.setChan e.ch y.1
    if y.2 then s.journal 14 (ev2 e.ch 2) else s
  else
    let y := if chIsOutput b then x.readbackResult b sl k r.1 (s.drives e.ch) e.endAt
      else x.inputResult b sl k r.1 r.2.1 ((s.frontEnd e.ch).excitation || (s.frontEnd e.ch).shunt) e.endAt
    s.setChan e.ch (if e.kind = 1 then { y with reqState := 2, reqDone := (y.reqDone + 1) % 65536 } else y)

/-- The next entry of a group that runs none: urgent requests, the rest of the pass, then normal requests (R262). -/
def Grp.next (x : Grp) : Option Entry_ × Grp :=
  match x.requests.find? Prod.snd with
  | some q => (some { ch := q.1, kind := 1, urgent := true }, { x with requests := x.requests.erase q })
  | none =>
    match x.rest with
    | e :: es => (some e, { x with rest := es })
    | [] =>
      match x.requests with
      | q :: qs => (some { ch := q.1, kind := 1 }, { x with requests := qs, inPass := false })
      | [] => (none, { x with inPass := false })

/-- What a group has done by now: entries that have ended, in order. -/
def State.advanceGroup (g : Nat) : Nat → Nat → State → State
  | 0, _, s => s
  | fuel + 1, t, s =>
    let x := s.grp g
    if x.slice.isNone then s
    else
      match x.running with
      | some e => if e.endAt ≤ s.now then
            let s := s.finishEntry g e
            State.advanceGroup g fuel e.endAt (s.setGrp g { s.grp g with running := none })
          else s
      | none =>
        match x.next with
        | (none, y) => s.setGrp g y
        | (some e, y) =>
          let e := { e with startAt := t, endAt := t + entryNs (chOvs (s.chRec e.ch)) }
          State.advanceGroup g fuel t (s.setGrp g { y with running := some e })

/-- All groups brought up to the present instant (the idle step, log entry 2). -/
def State.advanceGroups (s : State) : State :=
  (List.range 16).foldl (fun s g =>
    if (s.grp g).running.isNone && (s.grp g).requests.isEmpty && (s.grp g).rest.isEmpty then s
    else State.advanceGroup g 64 s.now s) s

/-- R261, R265: the entries of pass `p`, in channel order; in the first pass after a handover every CAL_MODE 2 channel has its path check. -/
def Cst.passEntries_ (c : Cst) (g p : Nat) (checks : Bool) (samples : List (Nat × Nat × Int × Bool)) : List Entry_ :=
  let find := fun n k => (samples.find? fun x => x.1 = n ∧ x.2.1 = k).map fun x => x.2.2
  (groupChans g).flatMap fun n =>
    let b := c.chan n
    (if chHasEntry b ∧ p % chSeqDiv b = 0 then [({ ch := n, sum := find n 0 } : Entry_)] else []) ++
      (if checks ∧ chCalMode b = 2 then [{ ch := n, kind := 2, sum := find n 2 }, { ch := n, kind := 3, sum := find n 3 }] else [])

/-- R46, R261: in a pair the pass number continues with the adopted epoch counter; the next pass is the first that starts after its boundary. -/
def State.followPasses (s : State) : State :=
  let us := s.live.epc.epoch * s.live.epc.periodMs * 1000
  (List.range 16).foldl (fun (s : State) g =>
    let per := s.live.cst.groupPeriod g
    if per = 0 then s
    else
      let p := (us + per - 1) / per
      s.setGrp g { s.grp g with pass := p, dueAt := s.live.epc.boundaryAt + (p * per - us) * 1000 }) s

/-- PASS_START: behind an entry that an urgent request has pre-empted between passes (R262). -/
def State.passStart (s : State) (g : Nat) (samples : List (Nat × Nat × Int × Bool)) : State :=
  let s := State.advanceGroup g 64 s.now s
  let x := s.grp g
  if !s.live.fch.configured ∨ !s.live.cst.groupHasEntries g ∨ s.now < x.dueAt then s
  else
    let due := { x with pass := x.pass + 1, dueAt := x.dueAt + s.live.cst.groupPeriod g * 1000 }
    if x.slice.isNone then s.setGrp g due
    else if x.inPass then (s.setGrp g due).modFch fun f => { f with passSkip := sat32 f.passSkip }
    else
      let s := s.setGrp g { due with inPass := true, checks := false
                                     rest := x.rest ++ s.live.cst.passEntries_ g x.pass x.checks samples }
      State.advanceGroup g 64 s.now s

/-- R262: when an urgent request stops the running entry: after its present conversion. -/
def preemptAt (e : Entry_) (now : Nat) : Nat :=
  if now ≤ e.startAt + 2000 then now else e.startAt + 2000 + (now - e.startAt - 2000 + 999) / 1000 * 1000

/-- R262: an urgent request pre-empts the running entry, which restarts after it, or is served at once where none runs. -/
def State.preempt (s : State) (g : Nat) : State :=
  match (s.grp g).running with
  | some e =>
    if !e.urgent ∧ preemptAt e s.now < e.endAt then
      State.advanceGroup g 64 (preemptAt e s.now) (s.setGrp g { s.grp g with running := none, rest := e :: (s.grp g).rest })
    else s
  | none => State.advanceGroup g 64 s.now s

/-- R262, R263: a request of a channel that converts. -/
def State.request (s : State) (n : Nat) (urgent : Bool) : State :=
  let g := n / 6
  let s := State.advanceGroup g 64 s.now s
  let x := s.grp g
  let c := s.chan n
  match x.requests.find? fun q => q.1 = n with
  | some q =>
    let s := (s.setGrp g { x with requests := x.requests.map fun r => if r = q then (r.1, r.2 || urgent) else r }).setChan n
      { c with reqMerged := true, reqUrgent := q.2 || urgent, reqState := 1 }
    if urgent then s.preempt g else s
  | none =>
    if 4 ≤ x.requests.length then
      (s.setChan n { c with reqState := 3, reqUrgent := urgent, reqMerged := false, reqDropped := true }).modFch fun f =>
        { f with reqDrop := sat32 f.reqDrop }
    else
      let s := s.setChan n { c with reqState := 1, reqUrgent := urgent, reqMerged := false }
      let s := s.setGrp g { x with requests := x.requests ++ [(n, urgent)] }
      if urgent || x.running.isNone then s.preempt g else s

/-! Digital inputs and pulses (R259). -/

/-- DIN_SAMPLE: a level sampled at 10 kHz. -/
def Chan.dinSample (x : Chan) (b : Bytes) (level : Bool) (now : Nat) : Chan :=
  let since := if x.level = level then x.stableAt else now
  let din := if decide (since + chDebounce b * 100000 ≤ now) then level else x.din
  let old := x
  let x := { x with level := level, stableAt := since, din := din }.setCond 12 false
  let v := if din != chFlag b 4 then fOfNat 1 else 0
  let x := Chan.noteFault old { x with results := x.results + 1, lastAt := some now }
  if x.fault then { x with val := x.faultValue b } else { x with
    val := v, lastGood := some v, filtered := true
    rises := if x.val = 0 ∧ v ≠ 0 then (x.rises + 1) % 2 ^ 32 else x.rises }

/-- A rising edge counted and stamped. -/
def Chan.countEdge (x : Chan) (at_ : Nat) : Chan :=
  { x with count := (x.count + 1) % 2 ^ 32, edges := at_ :: x.edges.filter fun t => decide (at_ ≤ t + 2000000000) }

/-- R253: an edge counts once its level has been stable for DEBOUNCE. -/
def Chan.takeEdge (x : Chan) (b : Bytes) (now : Nat) : Chan :=
  match x.edge with
  | some t => if t + chDebounce b * 100000 ≤ now then { x.countEdge t with edge := none } else x
  | none => x

/-- PULSE_EDGE: counted at once without DEBOUNCE; a second edge within it shows that the level of the first was not stable
(log entry 85). -/
def Chan.pulseEdge (x : Chan) (b : Bytes) (now : Nat) : Chan :=
  if chDebounce b = 0 then x.countEdge now else { x.takeEdge b now with edge := some now }

/-- R259: the frequency at an instant, as a single. -/
def pulseFrequency (edges : List Nat) (now : Nat) : Word :=
  let es := edges.filter fun t => decide (now ≤ t + 2000000000)
  let near := es.filter fun t => decide (now ≤ t + 100000000)
  let fall := fun (num den since : Nat) =>
    -- f_m = num / den per ns; when the time since the last edge exceeds 1 / f_m, f = 1 / that time
    if den < since * num then fOfRat 1000000000 since else fOfRat ((num * 1000000000 : Nat) : Int) den
  match es with
  | [] => 0
  | last :: more =>
    let first := near.getLastD last
    if 2 ≤ near.length ∧ first < last then fall (near.length - 1) (last - first) (now - last)
    else
      match more with
      | [] => 0
      | prev :: _ => if prev < last then fall 1 (last - prev) (now - last) else 0

/-- The ms value of a PULSE channel, at the loop tick latch (R258, R259, R271). -/
def Chan.pulseTick (x : Chan) (b : Bytes) (now : Nat) : Chan :=
  let x := x.takeEdge b now
  let f := pulseFrequency x.edges now
  let old := x
  let x := ({ x with freq := f, raw := f }.setCond 12 false).test 2 2 (fLt (chFltHi b) f)
  Chan.setValue old x b (fAdd (fMul (chA b) f) (chB b)) now true

/-! Outputs (R274 to R280). -/

/-- R275: the electrical value of a finite value; DOUT 0 or 1 before INVERT. -/
def elecOf (b : Bytes) (u : Word) : Word :=
  let e := fAdd (fMul (chA b) u) (chB b)
  match chType b with
  | 6 => fClamp 0 (fOfNat 10) e
  | 7 => fClamp 0 (fOfNat 24) e
  | 9 => fClamp 0 (fOfNat 100) e
  | _ => e

/-- A DOUT is on (R275). -/
def doutOn (b : Bytes) (e : Word) : Bool := fLe (fOfRat 1 2) e != chFlag b 4

/-- A value applied to an output; one that is not finite is counted and not applied (R275). -/
def State.applyOut (s : State) (n : Nat) (u : Word) : State :=
  if fFinite u then s.setChan n { s.chan n with applied := u, elec := elecOf (s.chRec n) u }
  else s.werr (0x4018 + n * 0x40) .dp .value

/-- R187, R274: the shed value of an output channel: its own membership, or that of the slot that drives it. -/
def State.shedOf (s : State) (n : Nat) : Option Word :=
  (s.live.cst.shedValue s.live.pln.shed 1 n).or
    ((List.range 192).findSome? fun k =>
      let b := s.live.cst.slotRec k
      if u8 b 6 = 1 ∧ (if u32 b 12 = 0xFFFFFFFF then k / 2 else u32 b 12) = n then
        s.live.cst.shedValue s.live.pln.shed 2 k else none)

/-- R274, R280: the value in effect of an output: writer or INIT_OUT, or the value held through a warm reset, shed value, hand; SAFEHOLD values are set at its entry. -/
def State.driveOut (s : State) (n : Nat) : State :=
  let b := s.chRec n
  let x := s.chan n
  if !chIsOutput b ∨ x.safe ∨ !s.live.fch.configured then s
  else
    let shed := s.shedOf n
    let s := s.setChan n { x with shed := shed }
    if x.hand then s.applyOut n x.handVal
    else match shed, x.writer with
      | some v, _ => s.applyOut n v
      | none, some v => s.applyOut n v
      | none, none => s.applyOut n (if x.held then x.heldVal else chInit b)

/-- The writer of an output writes (R274, R276); the first value ends a warm hold (R280). -/
def State.writeOut (s : State) (n : Nat) (v : Word) : State :=
  (s.setChan n { s.chan n with writer := some v, held := false }).driveOut n

/-- FCH_OUT_REQ: the writer's value or INIT_OUT. -/
def Chan.outReq (x : Chan) (b : Bytes) : Word := x.writer.getD (chInit b)

/-- R275, R277: hand begins or ends on an output. -/
def State.setHand (s : State) (n : Nat) (on : Bool) : State :=
  (s.setChan n { s.chan n with hand := on }).driveOut n

/-! System calibration (R266). -/

/-- COMMISSION is left before CAL_ACCEPT: every procedure that runs ends with RESULT 6. -/
def State.calEnds (s : State) : State :=
  s.modFch fun f => { f with chans := f.chans.map fun p =>
    (p.1, if p.2.calState ≠ 0 ∨ p.2.mz.isSome ∨ p.2.newOfs.isSome then
        { p.2 with calState := 0, calResult := 6, calN := 0, calSum := {}, mz := none, newOfs := none }
      else p.2) }

/-- The limits of RESULT code 5. -/
def calInLimits (b : Bytes) (ofs gain : Word) : Bool :=
  fLe (fOfRat 4 5) gain && fLe gain (fOfRat 5 4) && fLe (fAbs ofs) (fOfRat (chSpan b : Nat) 20)

/-- Step 4 of R266: the candidate gain and offset. -/
def calGain (refZ refS mz ms : Word) : Word := fDiv (fSub refS refZ) (fSub ms mz)
def calOffset (refZ refS mz ms : Word) : Word := fSub mz (fDiv (fMul refZ (fSub ms mz)) (fSub refS refZ))

/-- CAL_AVERAGE_DONE: the mean is m_z or m_s; after the span the candidate is computed and judged (log entry 26). -/
def Chan.averageDone (x : Chan) (b : Bytes) : Chan :=
  let mean := BitVec.ofNat 32 (single.ofRat false x.calSum.m 256 x.calSum.e)
  let x0 := { x with calN := 0, calSum := {} }
  if x.calState = 1 then { x0 with mz := some mean, calState := 2, calResult := 1 }
  else
    let mz := x.mz.getD 0
    let gain := calGain x.refZ x.refS mz mean
    let ofs := calOffset x.refZ x.refS mz mean
    if x.refZ = x.refS ∨ !fFinite x.refZ ∨ !fFinite x.refS ∨ !fFinite mean ∨ !fFinite mz then
      { x0 with ms := some mean, newOfs := none, calState := 2, calResult := 4 }
    else if calInLimits b ofs gain then
      { x0 with ms := some mean, newOfs := some ofs, newGain := gain, calState := 4, calResult := 1 }
    else { x0 with ms := some mean, newOfs := none, newGain := gain, calState := 2, calResult := 5 }

end Sys2Proof.Machine
end

