-- ==== Sys2Proof/Machine/ChannelCmds.lean ====
section
/-! DEFINITION. The commands and registers of the field subsystem (spec/09): passes, slices, trips, samples; what a read of
an FCH_ register returns and what a write of one does. -/

namespace Sys2Proof.Machine

open Sys2Proof

/-! Events. -/

/-- PASS_START (R261): pass of a group with the code sums its entries find. -/
def execPassStart (g : Nat) (samples : List (Nat × Nat × Int × Bool)) (s : State) : Host.Outcome State Fault Refusal :=
  .next (s.passStart g samples)

/-- The groups that have a slice, from `from_` upwards and round (R264). -/
def State.nextGroup (s : State) (from_ : Nat) : Option Nat :=
  ((List.range 16).map fun k => (from_ + k) % 16).find? fun g => (s.grp g).slice.isSome && s.live.cst.groupHasEntries g

/-- SLICE_HANDOVER (R264): at the end of a pass of the next group, the calibration slice idle longest takes it. -/
def execSliceHandover (s : State) : Host.Outcome State Fault Refusal :=
  let s0 := s.advanceGroups
  match s0.nextGroup s0.live.fch.rotNext, s0.idleCal with
  | some g, some k =>
    let x := s0.grp g
    if s0.live.fch.configured ∧ s0.live.cst.rotMs ≠ 0 ∧ !s0.live.fch.noRot ∧ s0.live.fch.rotAt ≤ s0.now ∧ !x.inPass
        ∧ x.running.isNone then
      let old := x.slice.getD 0
      let s1 := (s0.setGrp g { x with slice := some k, checks := true }).setSlice k { s0.slice k with idleSince := none }
      let s2 := s1.setSlice old { s1.slice old with visiting := true }
      .next (s2.modFch fun f => { f with
        handovers := satAdd 16 f.handovers 1
        rotNext := (g + 1) % 16
        rotAt := f.rotAt + s.live.cst.rotMs * 1000000 })
    else .next s0
  | _, _ => .next s0

/-- CALIBRATION_VISIT_END (R260, R264, R268): a slice in its visit, with its sums over 256 conversions of zero, reference and
midpoint and the sum of the squares of the zero codes. -/
def execCalibrationVisitEnd (k : Nat) (zeroSum refSum midSum zeroSquares : Int) (s : State) :
    Host.Outcome State Fault Refusal :=
  let x := s.slice k
  if k < 18 ∧ x.visiting then
    let x := { x with visits := satAdd 16 x.visits 1, drift := min 255 (max x.drift (zeroSum.natAbs / 256 / 8)) }
    if visitFails zeroSum refSum midSum zeroSquares then .next ((s.setSlice k x).retireSlice k 0)
    else .next (s.setSlice k { x with visiting := false, idleSince := some s.now, ofs := visitOffset zeroSum,
                                      gain := visitGain zeroSum refSum })
  else .next s

/-- SLICE_STUCK (R268 to R270): a conversion does not complete. A slice in its visit is retired; a serving slice too, and its group is
taken over. -/
def execSliceStuck (k : Nat) (s : State) : Host.Outcome State Fault Refusal :=
  match s.serving k with
  | none =>
    if k < 18 ∧ (s.slice k).visiting then
      .next ((s.setSlice k { s.slice k with stuck := satAdd 8 (s.slice k).stuck 1 }).retireSlice k 1)
    else .next s
  | some g =>
    let s1 := s.setSlice k { s.slice k with stuck := satAdd 8 (s.slice k).stuck 1 }
    let x := s1.grp g
    -- the pre-empted entry restarts (R262)
    let x := { x with running := none, rest := x.running.toList ++ x.rest }
    match (s1.idleCal.or s1.reserve).or s1.visitor with
    | some j =>
      let s2 := (s1.setGrp g { x with slice := some j }).setSlice j { s1.slice j with visiting := false, idleSince := none }
      .next (State.advanceGroup g 64 s.now (s2.retireSlice k 1))
    | none =>
      let s2 := (s1.setGrp g { x with slice := none, noSlice := true, rest := [], inPass := false }).retireSlice k 1
      .next ((groupChans g).foldl (fun s n =>
        if chHasEntry (s.chRec n) then s.setChan n (Chan.settle (s.chan n) ((s.chan n).setCond 8 true) (s.chRec n)) else s) s2)

/-- CAL_AVERAGE_DONE (R266): 256 values have been averaged. -/
def execCalAverageDone (n : Nat) (s : State) : Host.Outcome State Fault Refusal :=
  let x := s.chan n
  if (x.calState = 1 ∨ x.calState = 3) ∧ 256 ≤ x.calN then .next (s.setChan n (x.averageDone (s.chRec n))) else .next s

/-- OUTPUT_FAULT_TIMER (R271, R273): a current limit has held for 10 ms, or an open load or compliance for 100 ms (`openLoad`),
while the stage drives; `on` false when the condition has ended. -/
def execOutputFaultTimer (n : Nat) (openLoad on : Bool) (s : State) : Host.Outcome State Fault Refusal :=
  let b := s.chRec n
  let applies := if openLoad then chType b = 7 || chType b = 8 || (chType b = 9 && chRange b = 1) else chType b = 6
  if applies ∧ (!on ∨ s.drives n) then
    .next (s.setChan n (Chan.noteFault (s.chan n) ((s.chan n).setCond (if openLoad then 6 else 5) on)))
  else .next s

/-- STAGE_TRIP (R273): a DOUT or PWM stage trips; the third trip within 10 s latches it off. -/
def execStageTrip (n : Nat) (s : State) : Host.Outcome State Fault Refusal :=
  let b := s.chRec n
  if (chType b = 8 ∨ chType b = 9) ∧ s.drives n then
    let x := s.chan n
    let recent := (s.now :: x.tripAt).filter fun t => decide (s.now < t + 10000000000)
    let latch : Bool := 3 ≤ recent.length
    let y := Chan.noteFault x ({ x with tripAt := recent, trips := satAdd 16 x.trips 1, tripLatch := latch,
                                        offUntil := some (s.now + 100000000) }.setCond 5 true)
    let s1 := s.setChan n y
    .next (if latch then s1.journal 14 (ev2 n 3) else s1)
  else .next s

/-- TRIP_RETRY (R273): 100 ms after a trip the stage is retried. -/
def execTripRetry (n : Nat) (s : State) : Host.Outcome State Fault Refusal :=
  let x := s.chan n
  if x.offUntil.any (fun t => decide (t ≤ s.now)) ∧ !x.tripLatch then
    .next (s.setChan n (Chan.noteFault x ({ x with offUntil := none }.setCond 5 false)))
  else .next s

/-- SHUNT_OPEN (R249, R271): the shunt of an IIN channel opens after 1 ms above 30 mA. -/
def execShuntOpen (n : Nat) (s : State) : Host.Outcome State Fault Refusal :=
  let x := s.chan n
  if chType (s.chRec n) = 2 ∧ x.shuntAt.isNone then
    .next (s.setChan n (Chan.settle x ({ x with shuntAt := some s.now, trips := satAdd 16 x.trips 1 }.setCond 5 true) (s.chRec n)))
  else .next s

/-- SHUNT_RETRY (R249, R273): an opened shunt closes again after 1 s. -/
def execShuntRetry (n : Nat) (s : State) : Host.Outcome State Fault Refusal :=
  let x := s.chan n
  if x.shuntAt.any fun t => decide (t + 1000000000 ≤ s.now) then
    .next (s.setChan n (Chan.settle x ({ x with shuntAt := none }.setCond 5 false) (s.chRec n)))
  else .next s

/-- The NO_VFLD condition of every channel supplied from VFLD. -/
def State.setNoVfld (s : State) (on : Bool) : State :=
  (List.range 96).foldl (fun s n =>
    if chFromVfld (s.chRec n) then s.setChan n (Chan.settle (s.chan n) ((s.chan n).setCond 9 on) (s.chRec n)) else s) s

/-- VFLD_LOW (R279): VFLD has fallen below 16.0 V. -/
def execVfldLow (mv : Nat) (s : State) : Host.Outcome State Fault Refusal :=
  if mv < 16000 then
    let s0 := s.modPwr fun p => { p with vfldMv := mv, vfldOk := false }
    if s.live.fch.vfldLow then .next s0
    else .next (((s0.modFch fun f => { f with vfldLow := true }).setNoVfld true).journal 14 (ev2 0xFF 0))
  else .next s

/-- VFLD_RESTORED (R279): VFLD has risen above 17.0 V. -/
def execVfldRestored (mv : Nat) (s : State) : Host.Outcome State Fault Refusal :=
  if 17000 < mv then
    let s0 := s.modPwr fun p => { p with vfldMv := mv, vfldOk := true }
    if s.live.fch.vfldLow then .next (((s0.modFch fun f => { f with vfldLow := false }).setNoVfld false).journal 14 (ev2 0xFF 1))
    else .next s0
  else .next s

/-- PULSE_EDGE (R253, R259). -/
def execPulseEdge (n : Nat) (s : State) : Host.Outcome State Fault Refusal :=
  if chType (s.chRec n) = 5 then .next (s.setChan n ((s.chan n).pulseEdge (s.chRec n) s.now)) else .next s

/-- DIN_SAMPLE (R259). -/
def execDinSample (n : Nat) (level : Bool) (s : State) : Host.Outcome State Fault Refusal :=
  if chType (s.chRec n) = 4 then .next (s.setChan n ((s.chan n).dinSample (s.chRec n) level s.now)) else .next s

/-! Configuration at epoch 0 (R260, R280). -/

/-- R260, R264: before epoch 0 every healthy slice but the reserve makes a visit. -/
def State.startVisits (s : State) : State :=
  (List.range 17).foldl (fun (s : State) k =>
    if (s.slice k).retired then s else s.setSlice k { s.slice k with visiting := true, idleSince := none }) s

/-- The visits before epoch 0 are over: the sums of one that no CALIBRATION_VISIT_END has reported are free values (log entry 84). -/
def State.endVisits (s : State) : State :=
  (List.range 18).foldl (fun (s : State) k =>
    let x := s.slice k
    if x.visiting then
      let z := Config.freeInt s.freeCtr
      { s.setSlice k { x with visiting := false, visits := satAdd 16 x.visits 1, idleSince := some s.now, ofs := visitOffset z
                              gain := visitGain z (Config.freeInt (s.freeCtr + 1)) } with freeCtr := s.freeCtr + 2 }
    else s) s

/-- R260, R270: slices assigned to the groups with entries in ascending order, skipping retired slices and the reserve, and the groups that
lost theirs since the last cold reset; the others become calibration slices. -/
def State.assignSlices (s : State) : State :=
  let healthy := (List.range 17).filter fun k => !(s.slice k).retired
  let groups := (List.range 16).filter fun g => s.live.cst.groupHasEntries g && !(s.grp g).noSlice
  let s := (List.range 16).foldl (fun s g =>
    let i := groups.idxOf g
    let sl := if groups.contains g then healthy[i]? else none
    s.setGrp g { slice := sl, dueAt := s.now, noSlice := s.live.cst.groupHasEntries g && sl.isNone }) s
  let s := (healthy.drop groups.length).foldl (fun s k => s.setSlice k { s.slice k with visiting := false, idleSince := some s.now }) s
  ((healthy.take groups.length).foldl (fun s k => s.setSlice k { s.slice k with visiting := false, idleSince := none }) s).checkRotation

/-- The channels at epoch 0: what a cold start clears, what a warm start holds (`oldRec`: the records run before, R280). -/
def State.configureChannels (s : State) (warm : Bool) (oldRec : Nat → Bytes) : State :=
  let holding := s.live.fch.holding
  let s := s.endVisits.assignSlices
  let s := s.modFch fun f => { f with
    configured := true, holding := false, rotNext := 0, rotAt := s.now + s.live.cst.rotMs * 1000000 }
  (List.range 96).foldl (fun s n =>
    let b := s.chRec n
    let x := s.chan n
    let keep : Bool := warm && holding && b ≠ [] && b = oldRec n
    let y : Chan := { facOfs := x.facOfs, facGain := x.facGain, stored := x.stored, count := if warm then x.count else 0
                      edges := if warm then x.edges else [], faultSeen := false, reqDropped := false
                      fltCount := if warm then x.fltCount else 0, trips := if warm then x.trips else 0
                      applied := if keep then x.applied else 0, elec := if keep then x.elec else 0
                      duty := if keep then x.duty else 0, held := keep && chIsOutput b, heldVal := x.applied, live := b ≠ [] }
    if b = [] then s.setChan n y
    else
      let y := if chIsInput b then y.setCond 12 true else y
      let y := if s.live.fch.vfldLow && chFromVfld b then y.setCond 9 true else y
      let y := if (s.grp (n / 6)).noSlice && chHasEntry b then y.setCond 8 true else y
      (s.setChan n (Chan.settle { y with conds := [] } y b)).driveOut n) s

/-! Registers. -/

/-- FCH_CFG.WRITTEN: a slot, an output map entry or a driver writes the channel (R274). -/
def Cst.outWritten (c : Cst) (n : Nat) : Bool :=
  ((List.range 192).any fun k => let b := c.slotRec k; u8 b 6 = 1 && (if u32 b 12 = 0xFFFFFFFF then k / 2 else u32 b 12) = n)
  || ((c.recs 0x31).any fun r => r.rtype = 0x312 && u8 r.body 0 = 1 && u32 r.body 4 = n)
  || ((c.recs 0x41).any fun r => r.body ≠ [] && u8 r.body 0 = n)

/-- The operating window of a channel (0x4000 + n × 0x40), register at `r`; `live` gives the RW register. -/
def readChan (k live : Core) (n r : Nat) : Word :=
  let b := k.cst.chan n
  let x := tget k.fch.chans n {}
  -- an unconfigured channel reads 0 in every register
  if b = [] then 0 else
  match r with
  | 0x00 => pack [(0, 4, chType b), (4, 2, chRange b), (6, 2, chCalMode b), (8, 2, chLin b), (10, 4, chOvs b), (14, 2, chFvalMode b),
      (16, 5, u8 b 7), (21, 1, (chHasEntry b).toNat), (22, 1, (k.cst.outWritten n && chIsOutput b).toNat)]
  | 0x04 => pack [(0, 1, x.fault.toNat), (1, 4, x.faultCode), (5, 1, (x.uncal b).toNat), (6, 1, x.hand.toNat),
      (7, 1, (chIsOutput b && !k.par.gate).toNat), (8, 1, (x.held && !x.hand).toNat), (9, 1, x.safe.toNat), (10, 1, x.shed.isSome.toNat),
      (11, 1, x.tripLatch.toNat), (12, 1, x.faultSeen.toNat), (13, 1, x.reqDropped.toNat), (16, 5, x.slice)]
  | 0x08 => if chIsOutput b then x.applied else x.val
  | 0x0C => if chIsOutput b then (if chFlag b 2 then x.readback else x.elec) else x.raw
  | 0x10 => wordInt x.code
  | 0x14 => word x.count
  | 0x18 => if chIsOutput b then x.outReq b else 0
  | 0x1C => (tget live.fch.chans n {}).handVal
  | 0x24 => pack [(0, 16, x.results), (16, 16, match x.lastAt with
      | none => 0xFFFF
      | some t => min 0xFFFF ((k.epc.boundaryAt - t) / 10000))]
  | 0x28 => pack [(0, 2, x.reqState), (2, 1, x.reqUrgent.toNat), (3, 1, x.reqMerged.toNat), (16, 16, x.reqDone)]
  | 0x2C => pack [(0, 16, x.fltCount), (16, 16, x.trips)]
  | _ => 0

/-- The calibration window of a channel (0x5800 + n × 0x40). -/
def readChanCal (k : Core) (n r : Nat) : Word :=
  let b := k.cst.chan n
  let x := tget k.fch.chans n {}
  if b = [] then 0 else
  match r with
  | 0x00 => pack [(0, 3, x.calState), (3, 4, x.calResult),
      (7, 2, if chCalMode b = 2 ∧ x.bg.isSome then 2 else if (x.sysCal b).isSome then 1 else 0)]
  | 0x04 => x.refZ
  | 0x08 => x.refS
  | 0x0C => x.mz.getD 0
  | 0x10 => x.ms.getD 0
  | 0x14 => ((x.sysCal b).map SysCal.ofs).getD 0
  | 0x18 => ((x.sysCal b).map SysCal.gain).getD 0x3F800000
  | 0x1C => x.newOfs.getD 0
  | 0x20 => x.newGain
  | 0x24 => word ((x.stored.map SysCal.date).getD 0)
  | 0x2C => x.pathOfs
  | 0x30 => x.pathGain
  | _ => 0

/-- The global registers at 0x7000. The slices' states are read on a state whose live core is the one poured. -/
def readFchGlobal (k : Core) (r : Nat) : Word :=
  let s : State := { live := k }
  let f := k.fch
  match r with
  | 0x00 => pack [(0, 1, (f.configured && k.cst.rotMs ≠ 0 && !f.noRot).toNat), (1, 1, f.noRot.toNat),
      (2, 1, ((List.range 16).any fun g => (s.grp g).noSlice).toNat), (3, 1, f.vfldLow.toNat), (4, 1, f.swapSeen.toNat)]
  | 0x04 => pack ((List.range 16).map fun m => (2 * m, 2, s.sliceState m))
  | 0x08 => pack ((List.range 16).map fun m => (2 * m, 2, s.sliceState (16 + m)))
  | 0x1C => pack [(0, 16, f.handovers), (16, 4, f.rotNext)]
  | 0x20 => word f.passSkip
  | 0x24 => word f.reqDrop
  | _ =>
    if 0x0C ≤ r ∧ r < 0x1C then pack ((List.range 4).map fun m => (8 * m, 5, ((s.grp ((r - 0x0C) + m)).slice).getD 0x1F))
    else if 0x30 ≤ r ∧ r < 0x78 then
      let x := s.slice ((r - 0x30) / 4)
      pack [(0, 16, x.visits), (16, 8, x.stuck), (24, 8, x.drift)]
    else 0

/-- FCH_CAL_CMD at its commit (R266), also on a standby that follows a COMMISSION of its active unit (R267). -/
def State.calCommand (s : State) (n : Nat) (w : Word) : State :=
  let w := w &&& 0x1F
  let b := s.chRec n
  let x := s.chan n
  let out := fun (y : Chan) => s.setChan n y
  if w = 0 ∨ b = [] then s
  else if chCalMode b ≠ 1 then out { x with calResult := 7 }
  else if !s.live.handMode then out { x with calResult := 6, calState := 0, newOfs := none, mz := none }
  else if bit w 0 then out { x with calState := 1, calN := 0, calSum := {}, calResult := 1 }
  else if bit w 1 then
    if x.mz.isNone then out { x with calResult := 2 } else out { x with calState := 3, calN := 0, calSum := {}, calResult := 1 }
  else if bit w 2 then
    match x.newOfs with
    | none => out { x with calResult := 2 }
    | some o => out { x with
        storedDue := some { ofs := o, gain := x.newGain, type := chType b, range := chRange b, date := s.calSec },
        calState := 0, calResult := 1, newOfs := none }
  else if bit w 3 then out { x with calState := 0, calResult := 1, newOfs := none, mz := none, calN := 0, calSum := {} }
  else if bit w 4 then out { x with stored := none, storedDue := none, calResult := 1 }
  else s

/-- "From the next boundary": coefficients accepted in the epoch before take effect (R266). -/
def State.installCals (s : State) : State :=
  s.modFch fun f => { f with chans := f.chans.map fun p =>
    (p.1, match p.2.storedDue with
      | some k => { p.2 with stored := some k, storedDue := none }
      | none => p.2) }

/-- A staged write of an FCH_ register at its commit. -/
def State.commitFch (s : State) (addr : Nat) (w : Word) : State :=
  if 0x4000 ≤ addr ∧ addr < 0x5800 then
    let n := (addr - 0x4000) / 0x40
    let x := s.chan n
    match (addr - 0x4000) % 0x40 with
    | 0x04 => s.setChan n { x with faultSeen := x.faultSeen && !bit w 12, reqDropped := x.reqDropped && !bit w 13 }
    | 0x20 => if bit w 4 then
          s.setChan n (Chan.noteFault x (if x.tripLatch then { x with tripLatch := false, offUntil := none, tripAt := [] }.setCond 5 false else x))
        else s
    | _ => s
  else if 0x5800 ≤ addr ∧ addr < 0x7000 then
    let n := (addr - 0x5800) / 0x40
    let x := s.chan n
    match (addr - 0x5800) % 0x40 with
    | 0x04 => s.setChan n { x with refZ := w }
    | 0x08 => s.setChan n { x with refS := w }
    | 0x28 => s.calCommand n w
    | _ => s
  else if addr = 0x7000 then s.modFch fun f => { f with swapSeen := f.swapSeen && !bit w 4 }
  else if addr = 0x7028 ∧ bit w 0 then s.modFch fun f => { f with
    passSkip := 0, reqDrop := 0, chans := f.chans.map fun p => (p.1, { p.2 with fltCount := 0, trips := 0 }) }
  else s

/-- A staged write of an FCH_ register is accepted by value (R39). -/
def checkFch (addr : Nat) (w : Word) : Bool :=
  if 0x5800 ≤ addr ∧ addr < 0x7000 ∧ (addr - 0x5800) % 0x40 = 0x28 then
    decide (((List.range 5).filter fun i => bit w i).length ≤ 1)
  else true

/-- Immediate writes: FCH_HAND_VAL and the immediate bits of FCH_CMD (R262, R263, R277). -/
def State.immediateFch (s : State) (src : Source) (addr : Nat) (w : Word) : State :=
  let n := (addr - 0x4000) / 0x40
  let b := s.chRec n
  if (addr - 0x4000) % 0x40 = 0x1C then
    if fFinite w then
      let s := s.setChan n { s.chan n with handVal := w }
      if (s.chan n).hand then s.driveOut n else s
    else s.werr addr src .value
  else if (addr - 0x4000) % 0x40 = 0x20 then
    let s1 := if bit w 0 || bit w 1 then
        if chConverts b then s.request n (bit w 1)
        else
          let s := s.setChan n { s.chan n with reqState := 3, reqUrgent := bit w 1, reqMerged := false, reqDropped := true }
          s.werr addr src .state
      else s
    if bit w 2 && bit w 3 then s1.werr addr src .value
    else if bit w 2 then
      if s1.live.handMode ∧ chIsOutput b then s1.setHand n true else s1.werr addr src .state
    else if bit w 3 then (if (s1.chan n).hand then s1.setHand n false else s1)
    else s1
  else s

end Sys2Proof.Machine
end

