-- ==== Sys2Proof/Machine/CheckPlan.lean ====
section
/-! DEFINITION. LOAD's checks of the plan sections STRUCTURE, FORMATS, TIMETABLE, RECIPES and MODEL (spec/04, spec/05), and
the walk over a section's records that every section uses (R59, R85). -/

namespace Sys2Proof.Machine

open Sys2Proof

/-- What a record check found: code and offset in the record. -/
abbrev RecFail := Option (Nat × Nat)

/-- The failure of one record of a section, in the order of R85. `seen` are the records before it. -/
def recFailure (strict : Bool) (layouts : List RecLayout) (extra : Rec → RecFail) (seen : List Rec) (r : Rec) : RecFail :=
  match layouts.find? fun l => l.rtype = r.rtype with
  | none => if r.rtype.testBit 15 then none else some (cUnknown, 0)
  | some l => if duplicateRec seen r then some (cDuplicate, 2) else checkRec strict l extra r

/-- The failures of the records of a section, in order. -/
def recFailures (strict : Bool) (layouts : List RecLayout) (extra : Rec → RecFail) (ty : Nat) :
    List Rec → List Rec → List (Rec × CstErr)
  | [], _ => []
  | r :: rs, seen =>
    let rest := recFailures strict layouts extra ty rs (r :: seen)
    match recFailure strict layouts extra seen r with
    | some (c, o) => (r, { code := c, secType := ty, ofs := r.ofs + o }) :: rest
    | none => rest

/-- The records whose type the section knows. -/
def knownRecs (layouts : List RecLayout) (s : Sect) : List Rec :=
  s.recs.filter fun r => layouts.any fun l => l.rtype = r.rtype

/-- A rule on a whole section: an error where it fails, reported at the section's start. -/
def sectNeed (ok : Bool) (code ty ofs : Nat) : Option CstErr := if ok then none else some { code := code, secType := ty, ofs := ofs }

/-- The first failure of a list of checks. -/
def firstErr : List (Option CstErr) → Option CstErr
  | [] => none
  | some e :: _ => some e
  | none :: es => firstErr es

/-- R102: whether a SRC code is well formed, its quantity one of R200 and R312; REL only where the record may use it. -/
def srcOk (relOk : Bool) (code : Nat) : Bool :=
  let cl := code / 2 ^ 28
  let rel := decide (code / 2 ^ 27 % 2 = 1)
  (relOk || !rel) &&
  match cl with
  | 0 => code % 2 ^ 27 = 0
  | 1 => code % 2 ^ 27 < 96
  | 2 => rel || code / 65536 % 2048 < 1024
  | 3 => code / 256 % 16 ≤ 5
  | 4 => code / 256 % 16 ≤ 14
  | 5 => code % 65536 < 512
  | 6 => true
  | 7 => code % 256 < 192 && code / 256 % 16 ≤ 5
  | 8 => rel
  | _ => false

/-! FORMATS (R130 to R133). -/

def formatsLayouts : List RecLayout := [
  { rtype := 0x210, idxMax := 63, len := some 12, rules := [.zeros 1 3, .nonzero 0 1, .range 0 1 1 32,
      .srange 4 4 (-(2 ^ 31) + 1) (2 ^ 31 - 1), .srange 8 4 (-(2 ^ 31)) (2 ^ 31 - 2)] },
  { rtype := 0x211, idxMax := 63, len := some 16, rules := [.zeros 7 1, .zeros 12 4, .nonzero 8 4,
      .range 8 4 1 67108864] },
  { rtype := 0x212, idxMax := 0, len := some 20, rules := [.zeros 7 1, .zeros 16 4, .nonzero 8 4, .nonzero 12 4,
      .range 8 4 1 67108864, .range 12 4 1 67108864] },
  { rtype := 0x213, idxMax := 0, len := some 16 }]

def formatsExtra (r : Rec) : RecFail :=
  if r.rtype = 0x210 ∧ s32 r.body 8 < s32 r.body 4 then some (cRange, 8)
  else if r.rtype = 0x213 ∧ (u32 r.body 8 < u32 r.body 0 ∨ u32 r.body 12 < u32 r.body 4) then some (cRange, 0)
  else none

/-- R130: class indices name classes; exactly one HUB_FMT and one STOP. -/
def checkFormats (c : Cst) : Option CstErr :=
  let cls := fun k => (c.rec? 0x21 0x210 k).isSome
  let idx := fun (r : Rec) => (List.range 7).all fun k => cls (u8 r.body k)
  firstErr [
    sectNeed (((c.recs 0x21).filter fun r => r.rtype = 0x211 ∨ r.rtype = 0x212).all idx) cMissing 0x21 0,
    sectNeed (c.rec? 0x21 0x212 0).isSome cMissing 0x21 0,
    sectNeed (c.rec? 0x21 0x213 0).isSome cMissing 0x21 0]

/-! STRUCTURE (R140, R141). -/

def structLayouts : List RecLayout := [
  { rtype := 0x200, idxMax := 63, len := some 24, rules := [.zeros 2 2, .zeros 12 4] },
  { rtype := 0x201, idxMax := 0, len := none, rules := [.zeros 12 4] }]

/-- R98, R141: an array that ends at an offset is padded with zeros to a 4-byte boundary, checked whatever FMT_MINOR is (log entry 77). -/
def padded (b : Bytes) (o : Nat) : Bool := allZero (slice b o (pad4 o - o))

def structExtra (r : Rec) : RecFail :=
  if r.rtype = 0x201 then
    let n := u16 r.body 0
    let nnz := u32 r.body 8
    let lo := pad4 (24 + 2 * n)
    if r.body.length ≠ lo + 4 * (n + 1) + pad4 (2 * nnz) then some (cRecord, 4)
    else if !padded r.body (24 + 2 * n) || !padded r.body (lo + 4 * (n + 1) + 2 * nnz) then some (cRecord, 24)
    else none
  else none

/-- Whether K_h has a structural entry at two hub variables (R139). -/
def hubAdj (p a : List (Nat × Nat × Word)) (v w : Nat) : Bool :=
  p.any (fun e => (e.1 = v ∧ e.2.1 = w) ∨ (e.1 = w ∧ e.2.1 = v))
  || a.any fun e => decide (e.2.1 = v) && a.any fun g => decide (g.1 = e.1 ∧ g.2.1 = w)

/-- The symbolic factorisation under PERM: per column the rows below the diagonal, ascending (R141). -/
def symbolic (adj : Nat → Nat → Bool) (perm : Nat → Nat) (n : Nat) : List (List Nat) :=
  (List.range n).foldl (fun cols j =>
    let own := (List.range n).filter fun i => decide (j < i) && adj (perm i) (perm j)
    let kids := cols.filter fun r => r.head? = some j
    cols ++ [(List.range n).filter fun i => decide (j < i) && (own.contains i || kids.any fun r => r.contains i)]) []

/-- The declared pattern of L (R141). -/
def declaredL (c : Cst) : List (List Nat) :=
  let b := c.structHub
  let n := c.hubN
  let o := pad4 (24 + 2 * n)
  (List.range n).map fun j =>
    let a := u32 b (o + 4 * j)
    (List.range (u32 b (o + 4 * (j + 1)) - a)).map fun k => u16 b (o + 4 * (n + 1) + 2 * (a + k))

/-- R141: PERM a permutation, L in compressed-column form and the computed pattern, parts 0 to 2 independent. -/
def hubStructOk (c : Cst) : Bool :=
  let n := c.hubN
  let perm := fun k => u16 c.structHub (24 + 2 * k)
  let part := fun k => if k < u16 c.structHub 2 then 0 else if k < u16 c.structHub 4 then 1
    else if k < u16 c.structHub 6 then 2 else 3
  let l := symbolic (hubAdj c.hubP c.hubA) perm n
  let lo := pad4 (24 + 2 * n)
  (u16 c.structHub 0 = n) && u32 c.structHub lo = 0 && u32 c.structHub (lo + 4 * n) = u32 c.structHub 8
  && decide (u16 c.structHub 2 ≤ u16 c.structHub 4 ∧ u16 c.structHub 4 ≤ u16 c.structHub 6 ∧ u16 c.structHub 6 ≤ n)
  && (List.range n).all (fun v => ((List.range n).filter fun k => perm k = v).length = 1)
  && decide (declaredL c = l)
  && (List.range n).all fun j => part j = 3 || (l.getD j []).all fun i => part i = part j || part i = 3

/-! TIMETABLE (R147 to R152). -/

def ttLayouts : List RecLayout := [
  { rtype := 0x220, idxMax := 1023, len := some 4, rules := [.nonzero 2 1, .range 2 1 1 8] },
  { rtype := 0x221, idxMax := 0, len := some 4, rules := [.zeros 1 3, .nonzero 0 1, .range 0 1 1 32] },
  { rtype := 0x222, idxMax := 31, len := none, rules := [.zeros 6 2] }]

def ttExtra (strict : Bool) (r : Rec) : RecFail :=
  let n := u16 r.body 0 + u16 r.body 2 + u16 r.body 4
  if r.rtype ≠ 0x222 then none
  else if r.body.length ≠ 8 + 16 * n then some (cRecord, 4)
  else if strict && (List.range n).any fun k => u32 r.body (8 + 16 * k + 12) ≠ 0 then some (cRecord, 8)
  else none

/-- R148: batches without gaps, covering every substation in order. -/
def batchesOk (c : Cst) : Bool :=
  let n := c.batches
  (List.range n).all (fun k => c.batch k ≠ [])
  && (List.range n).all (fun k => u16 (c.batch k) 0 =
      (if k = 0 then 0 else u16 (c.batch (k - 1)) 0 + u8 (c.batch (k - 1)) 2))
  && decide ((if n = 0 then 0 else u16 (c.batch (n - 1)) 0 + u8 (c.batch (n - 1)) 2) = c.substations)

/-- Every entry of a pass with its lane and position. -/
def passEntries (c : Cst) (pass : Nat) : List (Nat × Nat × TtEntry) :=
  (List.range c.lanes).flatMap fun l =>
    let es := c.laneList l pass
    (List.range es.length).filterMap fun k => (es[k]?).map fun e => (l, k, e)

/-- The dimensions that a working set depends on (R152): of the horizon, the hub and the range, of a batch and its template, of every
template. -/
def Cst.setDims (c : Cst) (e : TtEntry) : List Nat :=
  let t := u8 (c.batch e.obj) 3
  let dims := fun t => let d := c.dims t; [d.nx, d.nu, d.ny, d.nc, d.nd]
  [c.horizon, e.count, c.hubN, c.hubRows, u8 (c.batch e.obj) 2] ++ dims t
    ++ (((c.recs 0x24).filter fun r => r.rtype = 0x240).map Rec.index).flatMap dims

/-- The form of an entry in its list (R149, R150). -/
def entryOk (c : Cst) (pass : Nat) (e : TtEntry) : Bool :=
  let ranged := [2, 5, 6, 9].contains e.kind
  let scened := [1, 2, 3, 4, 5, 6].contains e.kind
  (e.kind = 0 || (pass = 3 && decide (1 ≤ e.kind ∧ e.kind ≤ 6)) || (pass = 1 && (e.kind = 7 || e.kind = 8))
    || (pass = 2 && e.kind = 9))
  && (if scened then decide (e.scen < c.scenarios) else e.scen = 0)
  && (ranged || e.count = 0) && e.lsOfs % 64 = 0
  && (match e.kind with
      | 1 | 7 => decide (e.obj < c.batches)
      | 2 | 6 => decide (e.obj + e.count ≤ 32)
      | 3 | 4 | 8 => decide (e.obj < 4)
      | 5 => decide (e.obj + e.count ≤ c.hubRows)
      | 9 => decide (e.obj + e.count ≤ c.refreshMax)
      | _ => true)
  && decide (e.lsOfs + Config.workingSet e.kind (c.setDims e) ≤ 524288)

/-- How many entries of a pass cover an object in a scenario. -/
def covers (es : List (Nat × Nat × TtEntry)) (kind scen obj : Nat) (ranged : Bool) : Nat :=
  (es.filter fun x => x.2.2.kind = kind ∧ x.2.2.scen = scen ∧
    (if ranged then x.2.2.obj ≤ obj ∧ obj < x.2.2.obj + x.2.2.count else x.2.2.obj = obj)).length

/-- R152 Coverage. -/
def coverageOk (c : Cst) : Bool :=
  let ro := passEntries c 3
  let ini := passEntries c 1
  let ref := passEntries c 2
  (List.range c.scenarios).all (fun s =>
    (List.range c.batches).all (fun b => covers ro 1 s b false = 1)
    && c.nodes.all (fun j => covers ro 2 s j true = 1 && covers ro 6 s j true = 1)
    && (List.range 4).all (fun p => covers ro 3 s p false = 1 && covers ro 4 s p false = 1)
    && (List.range c.hubRows).all (fun r => covers ro 5 s r true = 1))
  && (List.range c.batches).all (fun b => covers ini 7 0 b false = 1)
  && (List.range 4).all (fun p => covers ini 8 0 p false = 1)
  && (List.range c.refreshMax).all (fun k => covers ref 9 0 k true = 1)

/-- The entries that must have ended before an entry starts: the one before it in its lane, the signallers of its WAIT. -/
def before1 (es : List (Nat × Nat × TtEntry)) (x : Nat × Nat × TtEntry) : List (Nat × Nat × TtEntry) :=
  es.filter fun y => (y.1 = x.1 ∧ y.2.1 + 1 = x.2.1) ∨ (x.2.2.wait ≠ 0 ∧ y.2.2.signal = x.2.2.wait)

/-- All entries that must have ended before an entry starts; `fuel` bounds the depth. -/
def beforeAll (es : List (Nat × Nat × TtEntry)) : Nat → List (Nat × Nat × TtEntry) → List (Nat × Nat × TtEntry)
  | 0, seen => seen
  | k + 1, seen =>
    let more := (seen.flatMap (before1 es)).filter fun y => !seen.contains y
    if more = [] then seen else beforeAll es k (more.eraseDups ++ seen)

/-- Every entry of `later` follows every entry of `earlier`. -/
def followsAll (es : List (Nat × Nat × TtEntry)) (later earlier : TtEntry → Bool) : Bool :=
  (es.filter fun x => later x.2.2).all fun x =>
    let b := beforeAll es es.length (before1 es x)
    (es.filter fun y => earlier y.2.2).all fun y => b.contains y

/-- R152 Order within a scenario. -/
def orderOk (c : Cst) : Bool :=
  let ro := passEntries c 3
  let is := fun (k s : Nat) (e : TtEntry) => decide (e.kind = k ∧ e.scen = s)
  let part := fun (k s p : Nat) (e : TtEntry) => decide (e.kind = k ∧ e.scen = s ∧ e.obj = p)
  let low := fun (k s : Nat) (e : TtEntry) => decide (e.kind = k ∧ e.scen = s ∧ e.obj < 3)
  (List.range c.scenarios).all (fun s =>
    c.nodes.all (fun j => followsAll ro (fun e => decide (e.kind = 2 ∧ e.scen = s ∧ e.obj ≤ j ∧ j < e.obj + e.count))
      (fun e => decide (e.kind = 1 ∧ e.scen = s) && (c.batchSubs e.obj).any fun i => c.subNode i = j))
    && followsAll ro (is 3 s) (is 2 s) && followsAll ro (part 3 s 3) (low 3 s) && followsAll ro (part 4 s 3) (part 3 s 3)
    && followsAll ro (low 4 s) (part 4 s 3) && followsAll ro (is 5 s) (is 4 s) && followsAll ro (is 6 s) (is 4 s))
  && followsAll (passEntries c 1) (part 8 0 3) (low 8 0)

/-- R152 Barriers and progress: waited barriers are signalled, and a simulated run of the pass reaches its end. -/
def simulate (c : Cst) (pass : Nat) : Nat → Table Nat → Table Nat → Bool
  | 0, _, _ => false
  | k + 1, pos, bar =>
    let ready := (List.range c.lanes).filterMap fun l =>
      match (c.laneList l pass)[tget pos l 0]? with
      | some e => if e.wait = 0 ∨ tget bar e.wait 0 = 0 then some (l, e) else none
      | none => none
    match ready with
    | [] => (List.range c.lanes).all fun l => decide ((c.laneList l pass).length ≤ tget pos l 0)
    | (l, e) :: _ =>
      simulate c pass k (tset pos l (tget pos l 0 + 1))
        (if e.signal = 0 then bar else tset bar e.signal (tget bar e.signal 0 - 1))

def progressOk (c : Cst) (pass : Nat) : Bool :=
  let es := passEntries c pass
  es.all (fun x => x.2.2.wait = 0 || es.any fun y => y.2.2.signal = x.2.2.wait)
  && simulate c pass (es.length + 1) []
      (es.foldl (fun t x => if x.2.2.signal = 0 then t else tset t x.2.2.signal (tget t x.2.2.signal 0 + 1)) [])

/-- R147, R148: what TIMETABLE alone decides. -/
def checkTimetable (c : Cst) : Option CstErr :=
  firstErr [
    sectNeed (c.rec? 0x22 0x221 0).isSome cMissing 0x22 0,
    sectNeed ((List.range c.lanes).all fun l => (c.rec? 0x22 0x222 l).isSome) cMissing 0x22 0,
    sectNeed (((c.recs 0x22).filter fun r => r.rtype = 0x222).all fun r => decide (r.index < c.lanes)) cRange 0x22 0,
    sectNeed (batchesOk c) cRange 0x22 0]

/-! RECIPES (R113 to R116) and MODEL (R90 to R99, R105, R111). -/

def recipeLayouts : List RecLayout := [
  { rtype := 0x231, idxMax := 63, len := none, emptyForm := true },
  { rtype := 0x232, idxMax := 0, len := none }]

def recipeOps (b : Bytes) : List Bytes := (List.range (b.length / 20)).map fun i => slice b (20 * i) 20

def recipeExtra (r : Rec) : RecFail :=
  if r.body.length % 20 ≠ 0 then some (cRecord, 4)
  else if (recipeOps r.body).any fun op => decide (1 < u8 op 2 ∧ u8 op 3 = 0) then some (cZero, 3)
  else if (recipeOps r.body).any fun op => decide (u8 op 0 % 128 = 0 ∨ 6 < u8 op 0 % 128 ∨ 48 < u8 op 2)
      || !srcOk (r.rtype = 0x231) (u32 op 8) then some (cRange, 0)
  else none

/-- The words an operation writes. -/
def opWords (op : Bytes) : List Nat := (List.range (u8 op 2)).map fun k => u16 op 4 + k * u8 op 3

/-- R113 to R115: classes exist, one FMT per word. -/
def checkRecipes (c : Cst) : Option CstErr :=
  let recs := c.recs 0x23
  let ops := recs.flatMap fun r => recipeOps r.body
  firstErr [
    sectNeed (c.rec? 0x23 0x232 0).isSome cMissing 0x23 0,
    sectNeed (ops.all fun op => (c.rec? 0x21 0x210 (u8 op 1)).isSome) cMissing 0x23 0,
    sectNeed (recs.all fun r => (recipeOps r.body).all fun a => (recipeOps r.body).all fun b =>
      u8 a 1 = u8 b 1 || !(opWords a).any fun w => (opWords b).contains w) cRange 0x23 0]

def modelLayouts : List RecLayout := [
  { rtype := 0x240, idxMax := 63, len := some 64, rules := [.zeros 6 2, .nonzero 0 1, .nonzero 1 1, .nonzero 2 1,
      .range 0 1 1 6, .range 1 1 1 3, .range 2 1 1 3, .range 3 1 0 12, .range 4 1 0 4, .range 5 1 0 4,
      .range 8 4 1 67108864, .range 12 4 1 67108864, .range 20 4 58983 65536, .range 24 4 0 65536, .range 28 4 1 65536] },
  { rtype := 0x241, idxMax := 1023, len := none, rules := [.zeros 2 2] },
  { rtype := 0x242, idxMax := 31, len := some 8, rules := [.zeros 1 3, .zbits 0 1 0xF8, .range 4 4 0 32768] },
  { rtype := 0x243, idxMax := 0, len := none, rules := [.nonzero 0 2, .nonzero 12 4, .range 0 2 1 4096,
      .range 2 2 0 8192] },
  { rtype := 0x244, idxMax := 511, len := some 24, rules := [.zeros 1 1, .zeros 20 4, .nonzero 2 2, .range 0 1 1 4,
      .range 2 2 1 1440] },
  { rtype := 0x245, idxMax := 7, len := some 16 },
  { rtype := 0x246, idxMax := 0, len := some 8, rules := [.zeros 4 4, .nonzero 2 2, .range 0 2 0 1024, .range 2 2 1 1440] }]

/-- R98: the form of a compressed-column matrix at an offset of a body. -/
def cscOk (b : Bytes) (o nvar nnz rows : Nat) : Bool :=
  (List.range nvar).all (fun j => decide (u32 b (o + 4 * j) ≤ u32 b (o + 4 * (j + 1))))
  && u32 b (o + 4 * nvar) = nnz && u32 b o = 0
  && (List.range nnz).all fun k => decide (u16 b (o + 4 * (nvar + 1) + 2 * k) < rows)

def modelExtra (r : Rec) : RecFail :=
  let b := r.body
  match r.rtype with
  | 0x240 =>
    let nx := u8 b 0
    let len := ({ nx := nx, nu := u8 b 1, ny := u8 b 2, nc := u8 b 3, nd := u8 b 4, n := 0 } : Dims).paramLen
    if !((List.range 4).all fun m => decide (m < u8 b 5) || u8 b (16 + m) = 0) then some (cRecord, 16)
    else if !((List.range 8).all fun m => decide (m < nx) || u8 b (32 + m) = 0) then some (cRecord, 32)
    else if !((List.range 6).all fun m => decide (m < nx) || u32 b (40 + 4 * m) = 0) then some (cRecord, 40)
    else if !((List.range (u8 b 5)).all fun m => decide (u8 b (16 + m) < len)) then some (cRange, 16)
    else none
  | 0x241 => if b.length = 8 + 4 * u32 b 4 then none else some (cRecord, 4)
  | 0x243 =>
    let n := u16 b 0
    let ao := 16 + cscLen n (u32 b 4)
    let mo := ao + cscLen n (u32 b 8)
    if b.length ≠ mo + 2 * (32 * 48 * 3) then some (cRecord, 4)
    else if !cscOk b 16 n (u32 b 4) n then some (cRecord, 16)
    else if !cscOk b ao n (u32 b 8) (u16 b 2) then some (cRecord, ao)
    else if !padded b (16 + 4 * (n + 1) + 2 * u32 b 4) || !padded b (ao + 4 * (n + 1) + 2 * u32 b 8) then some (cRecord, 16)
    else none
  | 0x244 =>
    if !srcOk false (u32 b 4) ∨ (2 < u8 b 0 ∧ u32 b 4 ≠ 0) then some (cRange, 4)
    else if s32 b 8 < s32 b 12 ∨ s32 b 16 < s32 b 8 then some (cRange, 8) else none
  | _ => none

/-- The records of a type in MODEL. -/
def Cst.modelRecs (c : Cst) (t : Nat) : List Rec := (c.recs 0x24).filter fun r => r.rtype = t

/-- R98: the node map names a hub variable where the node carries the carrier within the horizon, and none elsewhere. -/
def nodeMapOk (c : Cst) : Bool :=
  (List.range 32).all fun j => (List.range 48).all fun k => (List.range 3).all fun q =>
    if decide (k < c.horizon) && (u8 (c.node j) 0).testBit q then decide (c.nodeVar j k q < c.hubN) else c.nodeVar j k q = 0xFFFF

/-- R95 to R98: counts, names, parameter lengths, the node map. -/
def checkModelOwn (c : Cst) : Option CstErr :=
  let subs := c.modelRecs 0x241
  let sumW : Nat := ((c.modelRecs 0x245).map fun r => u32 r.body 0).sum
  firstErr [
    sectNeed ((List.range c.substations).all fun i => (c.rec? 0x24 0x241 i).isSome) cMissing 0x24 0,
    sectNeed (subs.all fun r => decide (r.index < c.substations)) cRange 0x24 0,
    sectNeed ((List.range c.scenarios).all fun i => (c.rec? 0x24 0x245 i).isSome) cMissing 0x24 0,
    sectNeed ((c.modelRecs 0x245).all fun r => decide (r.index < c.scenarios)) cRange 0x24 0,
    sectNeed ((c.rec? 0x24 0x243 0).isSome && (c.rec? 0x24 0x246 0).isSome) cMissing 0x24 0,
    sectNeed (subs.all fun r => (c.rec? 0x24 0x240 (u8 r.body 0)).isSome && (c.rec? 0x24 0x242 (u8 r.body 1)).isSome)
      cMissing 0x24 0,
    sectNeed (subs.all fun r => u32 r.body 4 = (c.dims (u8 r.body 0)).paramLen) cRecord 0x24 0,
    sectNeed (subs.all fun r =>
      let d := c.dims (u8 r.body 0)
      (List.range (d.nx + d.nu)).all fun k => decide (0 ≤ s32 r.body (8 + 4 * (d.oQ + k)))) cRange 0x24 0,
    sectNeed (decide (65536 ≤ sumW + 8 ∧ sumW ≤ 65536 + 8)) cRange 0x24 0,
    sectNeed (nodeMapOk c) cRange 0x24 0]

/-- R92, R95, R100, R113, R114, R140, R141, R148, R152: what relates MODEL to the sections before it. -/
def checkModelCross (c : Cst) : Option CstErr :=
  let used := ((c.modelRecs 0x241).map fun r => u8 r.body 0).eraseDups
  let tpls := (c.modelRecs 0x240).map Rec.index
  firstErr [
    sectNeed (tpls.all fun t => (c.rec? 0x20 0x200 t).isSome && (c.rec? 0x21 0x211 t).isSome) cMissing 0x24 0,
    sectNeed (used.all fun t => (c.rec? 0x23 0x231 t).any fun b => b ≠ []) cMissing 0x24 0,
    sectNeed (c.rec? 0x20 0x201 0).isSome cMissing 0x24 0,
    sectNeed (c.nodes.all fun j => ((c.members j).all fun i => c.rho (c.subTpl i) = c.rhoNode j)
      && (c.members j).all fun i => (List.range (c.dims (c.subTpl i)).ny).all fun q => (u8 (c.node j) 0).testBit q)
      cRange 0x24 0,
    sectNeed (tpls.all fun t =>
      let b := (c.rec? 0x20 0x200 t).getD []
      let d := c.dims t
      u8 b 0 = d.b && u8 b 1 = d.nx && u32 b 4 = d.factWords && u32 b 8 = d.workWords
        && u64 b 16 = hashOf (c.tplDescriptor t)) cRange 0x24 0,
    sectNeed (hubStructOk c && u64 c.structHub 16 = hashOf c.hubDescriptor) cRange 0x24 0,
    sectNeed (((c.recs 0x23).filter fun r => r.rtype = 0x231).all fun r =>
      let d := c.dims r.index
      !tpls.contains r.index || (recipeOps r.body).all fun op =>
        (opWords op).all (fun w => decide (w < d.n * d.stepWords)) && (!([3, 4].contains (u8 op 0 % 128))
          || decide (u16 op 6 < d.paramLen))) cRange 0x24 0,
    sectNeed ((recipeOps ((c.rec? 0x23 0x232 0).getD [])).all fun op =>
      (opWords op).all (fun w => decide (w < c.hvecWords)) && (!([3, 4].contains (u8 op 0 % 128))
        || decide (u16 op 6 < u32 c.hubRec 4))) cRange 0x24 0,
    sectNeed ((List.range c.batches).all fun k => (c.batchSubs k).all fun i => c.subTpl i = u8 (c.batch k) 3)
      cRange 0x22 0,
    sectNeed ([1, 2, 3].all fun p => (passEntries c p).all fun x => entryOk c p x.2.2) cRange 0x22 0,
    sectNeed (coverageOk c) cRange 0x22 0,
    sectNeed (orderOk c) cRange 0x22 0,
    sectNeed ([1, 2, 3].all fun p => progressOk c p) cRange 0x22 0,
    sectNeed (decide (Config.dramNeed ([c.substations, c.scenarios, c.horizon, c.hubN, c.hubRows, c.refreshMax]
      ++ (List.range c.substations).flatMap fun i => let d := c.dims (c.subTpl i); [d.nx, d.nu, d.ny, d.nc, d.nd])
      ≤ 224 * 1048576)) cRange 0x22 0,
    sectNeed (((c.recs 0x23).flatMap fun r => recipeOps r.body).all fun op =>
      u32 op 8 / 2 ^ 28 ≠ 5 || (c.rec? 0x24 0x244 (u32 op 8 % 65536)).isSome) cMissing 0x24 0,
    sectNeed (decide (c.namedSources.length ≤ 16384)) cRange 0x23 0]

end Sys2Proof.Machine
end

