-- ==== Sys2Proof/Machine/CheckField.lean ====
section
/-! DEFINITION. LOAD's checks of the sections LOOPS, LOGIC, CHANNELS, FANS, METERS, FALLBACK and ISLAND (spec/06 to
spec/11), each with the checks against other sections that it makes as the later one (step 6 of R79). -/

namespace Sys2Proof.Machine

open Sys2Proof

/-- A rule on every record of a type, reported at the first record that breaks it. -/
def eachRec (c : Cst) (ty rtype code : Nat) (ok : Rec → Bool) : Option CstErr :=
  ((c.recs ty).find? fun r => r.rtype = rtype && r.body ≠ [] && !ok r).map fun r =>
    { code := code, secType := ty, ofs := r.ofs + 12 }

/-- The classes a SRC code may name (R200). -/
def srcIn (classes : List Nat) (src : Nat) : Bool := srcOk false src && classes.contains (src / 2 ^ 28)

/-- Singles of a record at the offsets given are finite. -/
def finites (b : Bytes) (ofs : List Nat) : Bool := ofs.all fun o => fFinite (f32 b o)

/-! LOOPS (R197 to R200, R210). -/

def loopsLayouts : List RecLayout := [
  { rtype := 0x301, idxMax := 191, len := some 156, emptyForm := true, rules := [.zeros 60 4, .zeros 152 4, .nonzero 0 1,
      .nonzero 2 2, .nonzero 16 2, .range 0 1 2 8, .range 1 1 0 1, .range 2 2 1 1000, .range 6 1 0 4, .range 7 1 0 2,
      .range 16 2 1 1000, .range 19 1 0 2] }]

/-- The channel a slot's PV and output name by default. -/
def slotDst (b : Bytes) (n : Nat) : Nat := if u8 b 6 = 1 ∧ u32 b 12 = 0xFFFFFFFF then n / 2 else u32 b 12
def slotPv (b : Bytes) (n : Nat) : Nat := if u32 b 8 = 0xFFFFFFFF then 2 ^ 28 + n / 2 else u32 b 8

def loopsExtra (r : Rec) : RecFail :=
  let b := r.body
  let nlev := u8 b 0
  let t := fun k => f32 b (96 + 4 * k)
  let h := fun k => f32 b (124 + 4 * k)
  let half := fOfRat 1 2
  let singles := [24, 28, 36, 40, 44, 48, 52, 56] ++ (List.range 8).map (fun k => 64 + 4 * k) ++ (List.range 14).map (fun k => 96 + 4 * k)
  if !(u16 b 4 < u16 b 2) ∨ (u16 b 16 ≠ 1 ∧ u8 b 6 ≠ 2) then some (cRange, 4)
  else if !finites b singles then some (cRange, 24)
  else if fLt (f32 b 40) (f32 b 36) ∨ fLt (f32 b 44) 0 ∨ fLt (f32 b 56) 0 then some (cRange, 36)
  else if (List.range 8).any fun k => nlev ≤ k && u32 b (64 + 4 * k) ≠ 0 then some (cRange, 64)
  else if (List.range 7).any fun k => nlev - 1 ≤ k && (u32 b (96 + 4 * k) ≠ 0 || u32 b (124 + 4 * k) ≠ 0) then some (cRange, 96)
  else if (List.range 7).any fun k => fLt (h k) 0 then some (cRange, 124)
  else if (List.range (nlev - 2)).any fun k =>
      fLe (fSub (t (k + 1)) (fMul (h (k + 1)) half)) (fAdd (t k) (fMul (h k) half)) then some (cRange, 96)
  else if !srcIn [1, 3, 4, 6, 7] (slotPv b r.index) then some (cRange, 8)
  else if !srcIn [0, 1, 3, 4, 6, 7] (u32 b 20) then some (cRange, 20)
  else if (if u8 b 7 = 1 then !srcIn [0, 1, 3, 4, 6, 7] (u32 b 32) else u32 b 32 ≠ 0) then some (cRange, 32)
  else if u32 b 20 ≠ 0 ∧ !fLt 0 (f32 b 24) then some (cRange, 24)
  else if u8 b 6 = 2 ∧ 191 < u32 b 12 then some (cRange, 12)
  else if u8 b 6 = 1 ∧ 95 < slotDst b r.index then some (cRange, 12)
  else if u8 b 6 = 4 ∧ 31 < u32 b 12 then some (cRange, 12)
  else none

/-- The outer slot of a slot, and its depth by following outer slots at most four up (R210). -/
def Cst.outerOf (c : Cst) (n : Nat) : Option Nat :=
  (List.range 192).find? fun k => let b := c.slotRec k; u8 b 6 = 2 && u32 b 12 = n
def Cst.depthFrom (c : Cst) : Nat → Nat → Nat
  | 0, _ => 4
  | fuel + 1, n => match c.outerOf n with
    | none => 0
    | some k => c.depthFrom fuel k + 1
def Cst.depth (c : Cst) (n : Nat) : Nat := c.depthFrom 4 n

def checkLoops (c : Cst) : Option CstErr :=
  let slots := (c.recs 0x30).filter fun r => r.body ≠ []
  firstErr [
    eachRec c 0x30 0x301 cMissing fun r => u8 r.body 6 ≠ 2 || c.slotRec (u32 r.body 12) ≠ [],
    eachRec c 0x30 0x301 cRange fun r => u8 r.body 6 = 0 || !slots.any fun x =>
      x.index ≠ r.index && u8 x.body 6 = u8 r.body 6 && slotDst x.body x.index = slotDst r.body r.index,
    eachRec c 0x30 0x301 cRange fun r => u8 r.body 6 ≠ 2 ||
      (let i := c.slotRec (u32 r.body 12); u16 r.body 2 = u16 i 2 * u16 r.body 16 && u16 r.body 4 = u16 i 4),
    eachRec c 0x30 0x301 cRange fun r => decide (c.depth r.index ≤ 3)]

/-- The PWM periods of R249, in µs. -/
def pwmRangeOk (range us : Nat) : Bool := (if range = 0 then 20 ≤ us else 10000 ≤ us) && us ≤ 1000000

/-- A slot, channel or driver needs the section that it writes to or takes its frequency from; judged when that section is
absent (step 6 of R79), against the section that needs it. -/
def checkFieldAbsent (c : Cst) : Option CstErr :=
  firstErr [
    if (c.recs 0x31).isEmpty then eachRec c 0x30 0x301 cRange fun r => u8 r.body 6 ≠ 3 else none,
    if (c.recs 0x41).isEmpty then eachRec c 0x30 0x301 cRange fun r => u8 r.body 6 ≠ 4 else none,
    if (c.recs 0x41).isEmpty then eachRec c 0x40 0x403 cZero fun r => chType r.body ≠ 9 || u32 r.body 48 ≠ 0 else none,
    if (c.recs 0x41).isEmpty then
      eachRec c 0x40 0x403 cRange fun r => chType r.body ≠ 9 || pwmRangeOk (chRange r.body) (u32 r.body 48) else none]

/-! LOGIC (R230 to R232). The bytecode itself is the Planner's: `Config.codeOk` stands for its verification and for the
worst-case time of R226 (log entry 24). -/

def logicLayouts : List RecLayout := [
  { rtype := 0x310, idxMax := 0, len := some 16, rules := [.zeros 7 1, .zeros 14 2, .nonzero 0 2, .nonzero 4 2, .nonzero 6 1,
      .nonzero 8 4, .range 0 2 1 16384, .range 2 2 0 4096, .range 4 2 1 16384, .range 6 1 1 16, .range 8 4 100 100000,
      .range 12 2 0 10000] },
  { rtype := 0x311, idxMax := 16383, len := some 20, rules := [.zeros 7 1, .zbits 5 1 0xFC, .nonzero 0 4, .range 0 4 1 0x07FFFFFF,
      .oneOf 4 1 [1, 2, 3, 4, 5, 8, 9, 10, 11, 12, 13, 14, 15], .range 6 1 0 2] },
  { rtype := 0x312, idxMax := 4095, len := some 16, rules := [.zeros 2 2, .range 0 1 0 1, .range 1 1 0 1] },
  { rtype := 0x313, idxMax := 15, len := none }]

/-- Order of two value words of a type; the value of a counter is a DINT. -/
def wordLe (type : Nat) (a b : Word) : Bool :=
  if type = 4 then fLe a b
  else if type = 2 ∨ type = 5 ∨ (11 ≤ type ∧ type ≤ 13) then decide (a.toInt ≤ b.toInt)
  else decide (a.toNat ≤ b.toNat)

def logicExtra (r : Rec) : RecFail :=
  let b := r.body
  if r.rtype = 0x311 then
    let t := u8 b 4
    if 5 < t ∧ u8 b 6 ≠ 0 then some (cRange, 6)
    else if !validWord t (f32 b 8) then some (cRange, 8)
    else if !validWord t (f32 b 12) ∨ !validWord t (f32 b 16) ∨ !wordLe t (f32 b 12) (f32 b 16) then some (cRange, 12)
    else none
  else if r.rtype = 0x312 then
    if u8 b 0 = 0 then (if srcIn [1, 3, 4, 7] (u32 b 4) then none else some (cRange, 4))
    else if u32 b 4 ≤ 95 then none else some (cRange, 4)
  else if r.rtype = 0x313 then (if b.length % 4 = 0 then none else some (cRecord, 4))
  else none

/-- TAG_COUNT, IO_COUNT, CYCLE_MAX_US, MIN_GAP_US, NET_COUNT of LGC_GLOBAL. -/
def Cst.lgcGlobal (c : Cst) : Bytes := (c.rec? 0x31 0x310 0).getD []
def Cst.tagCount (c : Cst) : Nat := u16 c.lgcGlobal 0
def Cst.cycleMaxUs (c : Cst) : Nat := u32 c.lgcGlobal 8
def Cst.minGapUs (c : Cst) : Nat := u16 c.lgcGlobal 12
def Cst.hasProgram (c : Cst) : Bool := c.lgcGlobal ≠ []

/-- The IO entries (R230). -/
def Cst.ioRecs (c : Cst) : List Rec := (c.recs 0x31).filter fun r => r.rtype = 0x312

/-- Who writes a tag: input map entries, slots with DST_KIND 3, HOST_WR, plan points (R232). -/
def Cst.tagWriters (c : Cst) (id : Nat) (points : Bool) : Nat :=
  (c.ioRecs.filter fun r => u8 r.body 0 = 0 && u32 r.body 8 = id).length
  + ((List.range 192).filter fun n => let b := c.slotRec n; u8 b 6 = 3 && u32 b 12 = id).length
  + (match c.tagRec id with
     | some r => ((u8 r.body 5).testBit 1).toNat
     | none => 0)
  + (if points then ((c.recs 0x71).filter fun r => r.rtype = 0x711 && u8 r.body 6 = 2 && u32 r.body 8 = id).length else 0)

/-- Whether a tag's type suits an IO link: an output needs BOOL, DINT, UDINT or REAL; an input likewise. -/
def ioTypeOk (t : Nat) : Bool := 1 ≤ t && t ≤ 4

def checkLogic (c : Cst) : Option CstErr :=
  let l := c.recs 0x31
  if l.isEmpty then none
  else
    let count := fun t => (l.filter fun r => r.rtype = t).length
    let segs := (List.range (u8 c.lgcGlobal 6)).map fun k => (c.rec? 0x31 0x313 k).getD []
    firstErr [
      sectNeed c.hasProgram cMissing 0x31 0,
      sectNeed (count 0x311 = c.tagCount && (List.range c.tagCount).all fun k => (c.rec? 0x31 0x311 k).isSome) cMissing 0x31 0,
      sectNeed (count 0x312 = u16 c.lgcGlobal 2 && (List.range (u16 c.lgcGlobal 2)).all fun k => (c.rec? 0x31 0x312 k).isSome)
        cMissing 0x31 0,
      sectNeed (count 0x313 = u8 c.lgcGlobal 6 && (List.range (u8 c.lgcGlobal 6)).all fun k => (c.rec? 0x31 0x313 k).isSome)
        cMissing 0x31 0,
      eachRec c 0x31 0x311 cRange fun r => decide ((c.lgcTagRecs.filter fun x => u32 x.body 0 = u32 r.body 0).length = 1),
      eachRec c 0x31 0x312 cRange fun r => (c.tagRec (u32 r.body 8)).isSome && ioTypeOk (c.tagType (u32 r.body 8))
        && validWord (c.tagType (u32 r.body 8)) (f32 r.body 12),
      eachRec c 0x31 0x311 cRange fun r => decide (c.tagWriters (u32 r.body 0) false ≤ 1),
      sectNeed ((List.range 192).all fun n => let b := c.slotRec n
        u8 b 6 ≠ 3 || c.tagType (u32 b 12) = 4) cRange 0x31 0,
      sectNeed ((List.range 192).all fun n => let b := c.slotRec n
        u8 b 6 ≠ 1 || !c.ioRecs.any fun r => u8 r.body 0 = 1 && u32 r.body 4 = slotDst b n) cRange 0x31 0,
      eachRec c 0x31 0x312 cRange fun r => u8 r.body 0 ≠ 1 ||
        decide ((c.ioRecs.filter fun x => u8 x.body 0 = 1 && u32 x.body 4 = u32 r.body 4).length = 1),
      sectNeed (decide ((segs.foldl (fun a x => a + x.length) 0) ≤ 512 * 1024)) cRecord 0x31 0,
      sectNeed (Config.codeOk segs (u16 c.lgcGlobal 4) (c.lgcTagRecs.map Rec.body)) cRange 0x31 0,
      sectNeed (decide (Config.codeUs segs (u16 c.lgcGlobal 2) ≤ 4 * c.cycleMaxUs)) cRange 0x31 0]

/-! CHANNELS (R252 to R254). -/

def channelsLayouts : List RecLayout := [
  { rtype := 0x401, idxMax := 0, len := some 8, rules := [.zeros 4 4] },
  { rtype := 0x402, idxMax := 15, len := some 8, rules := [.zeros 4 4, .nonzero 0 4, .range 0 4 50 1000000] },
  { rtype := 0x403, idxMax := 95, len := some 56, emptyForm := true, rules := [.zeros 52 4, .zbits 7 1 0xE0, .nonzero 4 2,
      .range 0 1 1 9, .range 2 1 0 2, .range 3 1 0 2, .range 4 2 1 1000, .range 6 1 0 8, .range 44 2 0 60000, .range 46 1 0 3,
      .finite 8, .finite 12, .finite 16, .finite 20, .finite 24, .finite 28, .finite 32, .finite 36, .finite 40] }]

def channelsExtra (r : Rec) : RecFail :=
  let b := r.body
  if r.rtype = 0x401 then
    if u32 b 0 = 0 ∨ (100 ≤ u32 b 0 ∧ u32 b 0 ≤ 60000) then none else some (cRange, 0)
  else if r.rtype = 0x403 then
    let t := chType b
    let two : Bool := t = 1 || t = 3 || t = 5 || t = 9
    if (if two then 1 < chRange b else chRange b ≠ 0) then some (cRange, 1)
    else if 3 < t ∧ chCalMode b ≠ 0 then some (cRange, 2)
    else if t ≠ 3 ∧ chLin b ≠ 0 then some (cRange, 3)
    else if (chFlag b 0 && t ≠ 2) || (chFlag b 1 && t ≠ 4) || (chFlag b 2 && !chIsOutput b) || (chFlag b 3 && 3 < t)
        || (chFlag b 4 && t ≠ 4 && t ≠ 8) then some (cRange, 7)
    else if single.isZero (u32 b 8) then some (cRange, 8)
    else if fLt (chFltHi b) (chFltLo b) then some (cRange, 16)
    else if chLin b = 1 ∧ (fLt (f32 b 32) (fOfNat 10) ∨ fLt (fOfNat 10000) (f32 b 32) ∨ fLt (f32 b 36) 0
        ∨ fLt (fOfNat 50) (f32 b 36)) then some (cRange, 32)
    else if chLin b = 2 ∧ !fLt 0 (f32 b 36) then some (cRange, 36)
    else if chLin b ≠ 0 ∧ ((linearise b (chFltLo b)).2 ∨ (linearise b (chFltHi b)).2) then some (cRange, 16)
    else if t ≠ 9 ∧ u32 b 48 ≠ 0 then some (cRange, 48)
    else none
  else none

/-- The longest pass of a group in µs, path checks included: the largest over one period of the dividers (R254). -/
def Cst.passUs (c : Cst) (g p : Nat) : Nat :=
  (groupChans g).foldl (fun a n =>
    let b := c.chan n
    a + (2 + 2 ^ chOvs b) * ((decide (chHasEntry b = true ∧ p % chSeqDiv b = 0)).toNat + (if chCalMode b = 2 then 2 else 0))) 0
def lcmList (l : List Nat) : Nat := l.foldl Nat.lcm 1
/-- Pass 0 runs every entry, so it is the longest one. -/
def Cst.longestPass (c : Cst) (g : Nat) : Nat := c.passUs g 0

def checkChannels (c : Cst) : Option CstErr :=
  firstErr [
    sectNeed (c.rec? 0x40 0x401 0).isSome cMissing 0x40 0,
    sectNeed ((List.range 16).all fun g => !c.groupHasEntries g || (c.rec? 0x40 0x402 g).isSome) cMissing 0x40 0,
    sectNeed ((List.range 16).all fun g => !c.groupHasEntries g || decide (c.longestPass g + 20 ≤ c.groupPeriod g)) cRange 0x40 0,
    sectNeed ((List.range 192).all fun n => let b := c.slotRec n
      u8 b 6 ≠ 1 || chIsOutput (c.chan (slotDst b n))) cRange 0x40 0,
    sectNeed (c.ioRecs.all fun r => u8 r.body 0 = 0 || chIsOutput (c.chan (u32 r.body 4))) cRange 0x40 0]

/-! FANS (R283, R284). -/

def fansLayouts : List RecLayout := [
  { rtype := 0x411, idxMax := 31, len := some 112, emptyForm := true, rules := [.zeros 109 3, .nonzero 8 4, .nonzero 16 2,
      .range 0 1 0 95, .range 3 1 0 2, .range 4 1 0 1, .range 7 1 0 4, .range 16 2 100 30000, .range 18 2 0 3600,
      .range 108 1 0 4] }]

def fansExtra (r : Rec) : RecFail :=
  let b := r.body
  let tach : Bool := u8 b 1 ≠ 0xFF
  let hundred := fOfNat 100
  if tach ∧ (u8 b 5 = 0 ∨ u16 b 20 = 0) then some (cZero, 5)
  else if (tach ∧ (95 < u8 b 1 ∨ 8 < u8 b 5 ∨ 60000 < u16 b 20)) ∨ (!tach ∧ (u8 b 5 ≠ 0 ∨ u16 b 20 ≠ 0)) then some (cRange, 5)
  else if u8 b 2 ≠ 0xFF ∧ 95 < u8 b 2 then some (cRange, 2)
  else if u8 b 3 ≠ 2 ∧ u32 b 12 ≠ 0 then some (cRange, 12)
  else if !finites b ([24, 28, 32, 36, 104] ++ (List.range 16).map (fun k => 40 + 4 * k)) then some (cRange, 24)
  else if fLt (f32 b 24) 0 ∨ fLt hundred (f32 b 24) ∨ fLt (f32 b 28) (f32 b 24) ∨ fLt hundred (f32 b 28)
      ∨ fLt (f32 b 32) (f32 b 24) ∨ fLt hundred (f32 b 32) ∨ fLt (f32 b 36) 0 then some (cRange, 24)
  else if (List.range 4).any fun k =>
      if k < u8 b 7 then fLe (f32 b (44 + 8 * k)) (f32 b (40 + 8 * k)) else u32 b (40 + 8 * k) ≠ 0 || u32 b (44 + 8 * k) ≠ 0 then
    some (cRange, 40)
  else if (List.range (u8 b 7 - 1)).any fun k => fLe (f32 b (48 + 8 * k)) (f32 b (44 + 8 * k)) then some (cRange, 40)
  else if (List.range (u8 b 7)).any fun k => fLt (f32 b (40 + 8 * k)) (f32 b 32) && fLt (f32 b 32) (f32 b (44 + 8 * k)) then
    some (cRange, 32)
  else if (if u8 b 2 = 0xFF then u8 b 108 ≠ 0 else u8 b 108 = 0) then some (cRange, 108)
  else if (List.range (u8 b 108 - 1)).any fun k => fLe (f32 b (76 + 4 * k)) (f32 b (72 + 4 * k)) then some (cRange, 72)
  else if (List.range (u8 b 108)).any fun k => fLt (f32 b (88 + 4 * k)) 0 || fLt hundred (f32 b (88 + 4 * k)) then some (cRange, 88)
  else if u8 b 108 ≠ 0 ∧ fLt (f32 b 104) (f32 b (72 + 4 * (u8 b 108 - 1))) then some (cRange, 104)
  else none

def checkFans (c : Cst) : Option CstErr :=
  let fans := (c.recs 0x41).filter fun r => r.body ≠ []
  -- the type 9 channels without a driver (R254)
  let own := (c.recs 0x40).filter fun r => r.rtype = 0x403 && chType r.body = 9 && !fans.any fun x => u8 x.body 0 = r.index
  firstErr [
    eachRec c 0x41 0x411 cRange fun r => let x := c.chan (u8 r.body 0)
      chType x = 9 && u32 x 48 = 0 && u32 x 8 = 0x3F800000 && u32 x 12 = 0,
    eachRec c 0x41 0x411 cZero fun r => !(chRange (c.chan (u8 r.body 0)) = 1 && u8 r.body 1 ≠ 0xFF)
      || (u8 r.body 6 ≠ 0 && u16 r.body 22 ≠ 0),
    eachRec c 0x41 0x411 cRange fun r => let x := c.chan (u8 r.body 0); let b := r.body
      pwmRangeOk (chRange x) (u32 b 8) && (chRange x = 0 || u8 b 4 = 0) &&
        (if chRange x = 1 ∧ u8 b 1 ≠ 0xFF then
          1 ≤ u8 b 6 && 20 ≤ u16 b 22 && u16 b 22 ≤ 1000 && u16 b 22 * 1000 ≤ u32 b 8 && u32 b 8 * u8 b 6 ≤ 1000000
         else u8 b 6 = 0 && u16 b 22 = 0),
    eachRec c 0x41 0x411 cRange fun r => u8 r.body 1 = 0xFF || chType (c.chan (u8 r.body 1)) = 5,
    eachRec c 0x41 0x411 cRange fun r => u8 r.body 2 = 0xFF || (1 ≤ chType (c.chan (u8 r.body 2)) && chType (c.chan (u8 r.body 2)) ≤ 3),
    eachRec c 0x41 0x411 cRange fun r => !fans.any fun x => x.index ≠ r.index &&
      (u8 x.body 0 = u8 r.body 0 || (u8 r.body 1 ≠ 0xFF && u8 x.body 1 = u8 r.body 1)),
    eachRec c 0x41 0x411 cRange fun r =>
      let named := (List.range 192).any fun n => u8 (c.slotRec n) 6 = 4 && u32 (c.slotRec n) 12 = r.index
      named = (u8 r.body 3 = 1 : Bool),
    eachRec c 0x41 0x411 cRange fun r => u8 r.body 3 ≠ 2 || c.tagType (u32 r.body 12) = 4,
    sectNeed ((List.range 192).all fun n => u8 (c.slotRec n) 6 ≠ 4 || c.fanRec (u32 (c.slotRec n) 12) ≠ []) cRange 0x41 0,
    eachRec c 0x41 0x411 cRange fun r => !((List.range 192).any fun n => u8 (c.slotRec n) 6 = 1 && slotDst (c.slotRec n) n = u8 r.body 0)
      && !c.ioRecs.any fun x => u8 x.body 0 = 1 && u32 x.body 4 = u8 r.body 0,
    sectNeed (own.all fun r => u32 r.body 48 ≠ 0) cZero 0x41 0,
    sectNeed (own.all fun r => pwmRangeOk (chRange r.body) (u32 r.body 48)) cRange 0x41 0]

/-! METERS (R300, R308): of the unit class. -/

def metersLayouts : List RecLayout := [
  { rtype := 0x501, idxMax := 7, len := some 32, emptyForm := true, rules := [.zeros 21 3, .zeros 28 4, .nonzero 2 2, .range 0 1 0 2,
      .oneOf 1 1 [50, 60], .range 2 2 1 1440, .range 20 1 0 3, .finite 4, .finite 8, .finite 12, .finite 16, .finite 24] },
  { rtype := 0x502, idxMax := 63, len := some 32, emptyForm := true, rules := [.zeros 24 8, .nonzero 6 2, .range 0 1 0 1,
      .range 5 1 0 1, .range 6 2 1 1440, .finite 8, .finite 12, .finite 16, .finite 20] }]

def metersExtra (c : Cst) (r : Rec) : RecFail :=
  let b := r.body
  if r.rtype = 0x501 then
    if 1440 % u16 b 2 ≠ 0 then some (cRange, 2)
    else if !fLt 0 (f32 b 4) ∨ !fLt 0 (f32 b 8) ∨ !fLt 0 (f32 b 12) then some (cRange, 4)
    else if fLt (f32 b 16) 0 ∨ fLt (f32 b 24) 0 then some (cRange, 16)
    else none
  else
    let t := fun o => chType (c.chan (u8 b o))
    let pulse : Bool := t 1 = 5
    let temp := fun o => t o = 1 || t o = 2 || (t o = 3 && chLin (c.chan (u8 b o)) ≠ 0)
    if 1440 % u16 b 6 ≠ 0 then some (cRange, 6)
    else if !(pulse || t 1 = 1 || t 1 = 2) then some (cRange, 1)
    else if u8 b 2 ≠ 0xFF ∧ (!pulse ∨ t 2 ≠ 4) then some (cRange, 2)
    else if !temp 3 ∨ !temp 4 ∨ u8 b 3 = u8 b 4 then some (cRange, 3)
    else if (if pulse then !fLt 0 (f32 b 8) else u32 b 8 ≠ 0) then some (cRange, 8)
    else if fLt (f32 b 12) (fOfNat 1) ∨ fLt (fOfNat 25) (f32 b 12) then some (cRange, 12)
    else if fLt (f32 b 16) 0 ∨ fLt (f32 b 20) 0 then some (cRange, 16)
    else none

/-! FALLBACK (R169 to R173). -/

def fallbackLayouts : List RecLayout := [
  { rtype := 0x710, idxMax := 0, len := some 8, rules := [.zeros 5 3, .nonzero 4 1, .range 0 2 0 256, .range 2 2 0 1440,
      .range 4 1 1 16] },
  { rtype := 0x711, idxMax := 255, len := some 32, rules := [.zeros 28 4, .range 0 1 0 3, .range 6 1 0 2, .range 7 1 0 63,
      .finite 12, .finite 16, .finite 20, .finite 24] },
  { rtype := 0x712, idxMax := 63, len := none, rules := [.zeros 1 3, .range 0 1 0 64] }]

def fallbackExtra (strict : Bool) (r : Rec) : RecFail :=
  let b := r.body
  if r.rtype = 0x711 then (if fLt (f32 b 24) (f32 b 20) then some (cRange, 20) else none)
  else if r.rtype = 0x712 then
    let n := u8 b 0
    if b.length ≠ 4 + 8 * n then some (cRecord, 4)
    else
      let e := fun k => (u8 b (4 + 8 * k) % 128, u16 b (6 + 8 * k))
      if strict && (List.range n).any fun k => (u8 b (4 + 8 * k)).testBit 7 || u8 b (5 + 8 * k) ≠ 0 then some (cRecord, 4)
      else if (List.range n).any fun k => (e k).1 = 0 || 1439 < (e k).2 || !fFinite (f32 b (8 + 8 * k)) then some (cRange, 4)
      else if (List.range (n - 1)).any fun k => decide ((e (k + 1)).2 < (e k).2) then some (cRange, 4)
      else if (List.range n).any fun k => (List.range k).any fun j => (e j).2 = (e k).2 && ((e j).1 &&& (e k).1) ≠ 0 then
        some (cRange, 4)
      else none
  else none

/-- R171: a source within the dimensions of the model. -/
def pointSourceOk (c : Cst) (b : Bytes) : Bool :=
  match u8 b 0 with
  | 0 => true
  | 1 => decide (u16 b 2 < c.substations ∧ u8 b 1 < (c.dims (c.subTpl (u16 b 2))).nu)
  | 2 => decide (u16 b 2 < c.substations ∧ u8 b 1 < (c.dims (c.subTpl (u16 b 2))).nx)
  | _ => (List.range c.horizon).all fun k => decide (u16 b 2 + k * u16 b 4 < c.hubN)

def Cst.stagingWords (c : Cst) : Nat := if c.legacy then 8952 else u32 c.system 20

def checkFallback (c : Cst) : Option CstErr :=
  let pts := (c.recs 0x71).filter fun r => r.rtype = 0x711
  firstErr [
    sectNeed (c.rec? 0x71 0x710 0).isSome cMissing 0x71 0,
    eachRec c 0x71 0x710 cRange fun r => decide (32 + u16 r.body 0 ≤ c.stagingWords),
    sectNeed (pts.length = c.nPoints && (List.range c.nPoints).all fun p => (c.rec? 0x71 0x711 p).isSome) cMissing 0x71 0,
    eachRec c 0x71 0x711 cMissing fun r => (c.rec? 0x71 0x712 (u8 r.body 7)).isSome,
    if c.optimiser then eachRec c 0x71 0x711 cRange fun r => pointSourceOk c r.body else none,
    eachRec c 0x71 0x711 cRange fun r => u8 r.body 6 ≠ 1 || (c.slotRec (u32 r.body 8) ≠ [] && (c.outerOf (u32 r.body 8)).isNone),
    eachRec c 0x71 0x711 cRange fun r => u8 r.body 6 ≠ 2 || (c.tagType (u32 r.body 8) = 4 && c.tagWriters (u32 r.body 8) true ≤ 1),
    eachRec c 0x71 0x711 cRange fun r => u8 r.body 6 = 0 ||
      !pts.any fun x => x.index ≠ r.index && u8 x.body 6 = u8 r.body 6 && u32 x.body 8 = u32 r.body 8]

/-! ISLAND (R183 to R187). -/

def islandLayouts : List RecLayout := [
  { rtype := 0x700, idxMax := 0, len := some 20, rules := [.zeros 18 2, .zbits 1 1 0xFC, .nonzero 2 2, .nonzero 8 2, .nonzero 10 2,
      .nonzero 12 4, .range 0 1 0 7, .range 1 1 1 3, .range 2 2 1 5000, .range 8 2 1 999, .range 10 2 1 3600, .range 16 2 0 60000] },
  { rtype := 0x701, idxMax := 255, len := some 12 },
  { rtype := 0x702, idxMax := 255, len := some 4, rules := [.zeros 1 3, .range 0 1 0 63] },
  { rtype := 0x703, idxMax := 15, len := none, rules := [.zeros 2 2, .range 0 1 0 1, .range 1 1 0 16] }]

def islandExtra (strict : Bool) (r : Rec) : RecFail :=
  let b := r.body
  if r.rtype = 0x701 then (if s32 b 8 < s32 b 4 then some (cRange, 4) else none)
  else if r.rtype = 0x703 then
    if b.length ≠ 16 + 8 * u8 b 1 then some (cRecord, 4)
    else if strict && (List.range (u8 b 1)).any fun k => u8 b (17 + 8 * k) ≠ 0 then some (cRecord, 16)
    else if !srcOk false (u32 b 4) then some (cRange, 4)
    else if s32 b 12 ≤ s32 b 8 then some (cRange, 8)
    else if (List.range (u8 b 1)).any fun k => u8 b (16 + 8 * k) = 0 || 4 < u8 b (16 + 8 * k) || !fFinite (f32 b (20 + 8 * k)) then
      some (cRange, 16)
    else none
  else none

def checkIsland (c : Cst) : Option CstErr :=
  let some_ := !(c.recs 0x70).isEmpty
  firstErr [
    sectNeed (!some_ || c.islGlobal.isSome) cMissing 0x70 0,
    eachRec c 0x70 0x701 cRange fun r => decide (u16 r.body 0 + u16 r.body 2 ≤ c.hubRows),
    eachRec c 0x70 0x700 cRange fun r => !(u8 r.body 1).testBit 1 || c.tagType (u32 r.body 4) = 1]

/-- R183: the points and schedules that ISLAND names, checked once FALLBACK is parsed. -/
def checkIslandFallback (c : Cst) : Option CstErr :=
  eachRec c 0x70 0x702 cMissing fun r => (c.rec? 0x71 0x711 r.index).isSome && (c.rec? 0x71 0x712 (u8 r.body 0)).isSome

end Sys2Proof.Machine
end

