-- ==== Sys2Proof/Machine/CheckNet.lean ====
section
/-! DEFINITION. LOAD's checks of the sections SYSTEM, SAFE_PROFILE, NETWORK, CAN, PAIR and CALENDAR (spec/03, spec/12 to spec/15,
spec/17). -/

namespace Sys2Proof.Machine

open Sys2Proof

/-! SYSTEM (R60, R61). -/

def systemLayouts : List RecLayout := [
  { rtype := 0x101, idxMax := 0, len := some 32, rules := [.zbits 24 4 0xFFFFFFFC, .zeros 28 4, .nonzero 0 2, .nonzero 4 4, .nonzero 8 4,
      .nonzero 12 2, .nonzero 14 1, .range 0 2 1 100, .range 2 1 0 2, .range 3 1 0 2, .range 12 2 1 60, .range 14 1 1 48,
      .range 15 1 0 8, .range 16 2 0 1024, .range 18 2 0 4095, .range 20 4 0 8952] }]

def systemExtra (r : Rec) : RecFail :=
  let b := r.body
  let cycle := u16 b 0 * u32 b 4
  if cycle < 10000 ∨ 900000 < cycle then some (cRange, 4)
  else if u32 b 4 - 1 < u32 b 8 then some (cRange, 8)
  else none

def checkSystem (c : Cst) : Option CstErr := sectNeed (c.system ≠ []) cMissing 0x10 0

/-! SAFE_PROFILE (R489). -/

def safeLayouts : List RecLayout := [
  { rtype := 0x111, idxMax := 95, len := some 8, emptyForm := true, rules := [.zeros 1 3, .range 0 1 0 2, .finite 4] }]

def safeExtra (r : Rec) : RecFail := if u8 r.body 0 ≠ 1 ∧ u32 r.body 4 ≠ 0 then some (cRange, 4) else none

/-- Step 6 of R79: checked once CHANNELS is parsed; R489 names SAFE_PROFILE as the section that fails. -/
def checkSafe (c : Cst) : Option CstErr := eachRec c 0x11 0x111 cRange fun r => chIsOutput (c.chan r.index)

/-- The SAFE_CH record of a channel: ACTION and VALUE; none for high-impedance. -/
def Cst.safeCh (c : Cst) (n : Nat) : Option (Nat × Word) :=
  match c.rec? 0x11 0x111 n with
  | some b => if b = [] ∨ u8 b 0 = 0 then none else some (u8 b 0, f32 b 4)
  | none => none

/-! NETWORK (R368 to R371). -/

def networkLayouts : List RecLayout := [
  { rtype := 0x601, idxMax := 1, len := some 28, rules := [.zbits 3 1 0xC0, .zeros 24 4, .range 0 1 0 2, .range 1 1 0 1, .range 16 2 0 4094,
      .range 18 2 0 4094, .range 20 2 0 4094, .srange 22 2 (-1000) 1000] },
  { rtype := 0x602, idxMax := 1, len := some 16, rules := [.zeros 3 1, .nonzero 2 1, .nonzero 4 2, .nonzero 6 2, .range 0 1 0 127,
      .range 1 1 0 2, .range 2 1 1 60, .range 4 2 1 10000, .range 6 2 1 3600] },
  { rtype := 0x603, idxMax := 0, len := some 16, rules := [.zeros 1 1, .zeros 14 2, .nonzero 2 2, .nonzero 4 4, .nonzero 8 2,
      .range 0 1 0 1, .range 2 2 1024 65535, .range 4 4 1000 100000, .range 8 2 1 300, .range 12 2 0 8] }]

def networkExtra (r : Rec) : RecFail :=
  let b := r.body
  if r.rtype = 0x601 then (if u8 b 2 ≠ 0 ∧ (u8 b 2 < 8 ∨ 30 < u8 b 2) then some (cRange, 2) else none)
  else if r.rtype = 0x602 then (if u32 b 8 < u32 b 12 then some (cRange, 12) else none)
  else none

/-- The NET_PORT, NET_PTP and NET_GLOBAL bodies. -/
def Cst.netPort (c : Cst) (p : Nat) : Bytes := (c.rec? 0x60 0x601 p).getD []
def Cst.netPtp (c : Cst) (d : Nat) : Bytes := (c.rec? 0x60 0x602 d).getD []
def Cst.netGlobal (c : Cst) : Bytes := (c.rec? 0x60 0x603 0).getD []
def Cst.portMode (c : Cst) (p : Nat) : Nat := u8 (c.netPort p) 0

def checkNetwork (c : Cst) : Option CstErr :=
  let some_ : Bool := !(c.recs 0x60).isEmpty
  let noAsym := fun (b : Bytes) => slice b 0 22 ++ slice b 24 4
  firstErr [
    sectNeed (!some_ || c.netGlobal ≠ []) cMissing 0x60 0,
    sectNeed (!some_ || c.substations = 0 || c.portMode 0 ≠ 0 || c.portMode 1 ≠ 0) cMissing 0x60 0,
    eachRec c 0x60 0x601 cRange fun r => u8 r.body 0 ≠ 2 || noAsym (c.netPort 0) = noAsym (c.netPort 1),
    eachRec c 0x60 0x601 cRange fun r => c.pairMode ≠ 0 || u32 r.body 8 = 0,
    eachRec c 0x60 0x602 cRange fun r => u8 r.body 1 = 0 || c.portMode 0 ≠ 0 || c.portMode 1 ≠ 0]

/-- R368: SUBSTATIONS above 0 need a NETWORK section. -/
def checkNoNetwork (c : Cst) : Option CstErr :=
  sectNeed (c.substations = 0 || !(c.recs 0x60).isEmpty) cMissing 0x60 0

/-! CAN (R395 to R398, R408): of the unit class, the unit being a controller. -/

def canLayouts : List RecLayout := [
  { rtype := 0x611, idxMax := 3, len := some 20, rules := [.zeros 15 1, .zeros 18 2, .nonzero 2 2, .nonzero 4 1, .nonzero 5 1, .nonzero 6 1,
      .range 0 1 0 3, .range 1 1 0 2, .range 2 2 1 256, .range 4 1 2 255, .range 5 1 1 128, .range 11 1 0 127, .range 12 2 0 2048,
      .range 14 1 0 64, .range 16 2 0 10000] },
  { rtype := 0x612, idxMax := 8191, len := some 4, rules := [.zeros 1 1, .range 0 1 1 2, .range 2 2 0 60000] },
  { rtype := 0x613, idxMax := 255, len := some 8, rules := [.zeros 6 2, .range 0 2 0 2047, .range 2 1 0 2, .range 4 2 0 60000] },
  { rtype := 0x614, idxMax := 1023, len := some 12, rules := [.zeros 7 1, .range 0 1 0 3, .range 1 1 0 1, .range 2 2 0 2047, .range 4 1 0 63,
      .range 5 1 1 8, .range 6 1 0 7] },
  { rtype := 0x615, idxMax := 3, len := some 24, rules := [.zeros 5 3, .range 0 2 0 2047, .range 2 2 0 2047, .range 4 1 0 8] }]

/-- The bytes of a field code (R398). -/
def canWidth (code : Nat) : Nat := if code ≤ 3 then 1 else if code ≤ 5 then 2 else 4

def canLenOk (format len : Nat) : Bool :=
  decide (len ≤ 8) || (format ≠ 0 && [12, 16, 20, 24, 32, 48, 64].contains len)

def canExtra (r : Rec) : RecFail :=
  let b := r.body
  if r.rtype = 0x611 then
    let nom := u16 b 2 * (1 + u8 b 4 + u8 b 5)
    let dat := u8 b 7 * (1 + u8 b 8 + u8 b 9)
    if u8 b 5 < u8 b 6 then some (cRange, 6)
    else if u8 b 0 = 2 ∧ (u8 b 7 = 0 ∨ u8 b 8 = 0 ∨ u8 b 9 = 0 ∨ u8 b 10 = 0) then some (cZero, 7)
    else if u8 b 0 ≠ 2 ∧ (u8 b 7 ≠ 0 ∨ u8 b 8 ≠ 0 ∨ u8 b 9 ≠ 0 ∨ u8 b 10 ≠ 0) then some (cRange, 7)
    else if 32 < u8 b 7 ∨ 32 < u8 b 8 ∨ 16 < u8 b 9 ∨ u8 b 9 < u8 b 10 then some (cRange, 7)
    else if nom < 80 ∨ (u8 b 0 = 2 ∧ dat < 16) then some (cRange, 2)
    else if u8 b 0 = 0 ∧ (u16 b 12 ≠ 0 ∨ u8 b 14 ≠ 0) then none
    else none
  else if r.rtype = 0x613 then (if canLenOk (u8 b 2) (u8 b 3) then none else some (cRange, 3))
  else if r.rtype = 0x614 then (if u8 b 5 ≠ 1 ∧ u8 b 6 ≠ 0 then some (cRange, 6) else none)
  else none

/-- The records of a controller, and of its objects and mailboxes. -/
def Cst.canCtrl (c : Cst) (k : Nat) : Bytes := (c.rec? 0x61 0x611 k).getD []
def Cst.canObj (c : Cst) (k id : Nat) : Option Bytes := c.rec? 0x61 0x612 (k * 2048 + id)
def Cst.canMb (c : Cst) (k m : Nat) : Option Bytes := c.rec? 0x61 0x613 (k * 64 + m)
def Cst.canMaps (c : Cst) : List Rec := (c.recs 0x61).filter fun r => r.rtype = 0x614
def Cst.canWake (c : Cst) (k : Nat) : Option Bytes := c.rec? 0x61 0x615 k
/-- The mailbox of an identifier. -/
def Cst.canMbOf (c : Cst) (k id : Nat) : Option Nat :=
  (List.range 64).find? fun m => match c.canMb k m with
    | some b => u16 b 0 = id
    | none => false

/-- The controller a record belongs to (R395). -/
def canUnit (r : Rec) : Nat :=
  if r.rtype = 0x612 then r.index / 2048 else if r.rtype = 0x613 then r.index / 64
  else if r.rtype = 0x614 then u8 r.body 0 else r.index

/-- Whether a tag type suits a field code. -/
def canTypeOk (code type : Nat) : Bool :=
  if code = 1 then type = 1 else if code = 8 then type = 4 else type = 2 || type = 3

/-- The rules that relate the records of one controller; `all` are the section's records whose own checks passed. -/
def checkCanUnit (c : Cst) (k : Nat) : Bool :=
  let b := c.canCtrl k
  let mine := (c.recs 0x61).filter fun r => canUnit r = k
  let count := fun t => (mine.filter fun r => r.rtype = t).length
  let epochMs := u16 c.system 0
  if b = [] then mine.isEmpty
  else
    decide (count 0x612 = u16 b 12) && decide (count 0x613 = u8 b 14)
      && (List.range (u8 b 14)).all (fun m => (c.canMb k m).isSome)
      && decide (count 0x615 = if u8 b 1 = 2 then 1 else 0)
      && (mine.all fun r =>
        if r.rtype = 0x613 then
          ((c.canObj k (u16 r.body 0)).map fun o => u8 o 0).getD 0 = 2 && (u8 r.body 2 = 0 || u8 b 0 = 2)
            && (u16 r.body 4 = 0 || epochMs = 0 || u16 r.body 4 % epochMs = 0)
            && c.canMbOf k (u16 r.body 0) = some (r.index % 64)
        else if r.rtype = 0x614 then
          let x := r.body
          let tag := u32 x 8
          canTypeOk (u8 x 5) (c.tagType tag) && (c.tagRec tag).isSome &&
            (if u8 x 1 = 0 then (c.canObj k (u16 x 2)).isSome && c.tagWriters tag true = 0
                && !(c.canMaps.any fun y => y.index ≠ r.index && u8 y.body 1 = 0 && u32 y.body 8 = tag)
              else match c.canMbOf k (u16 x 2) with
                | some m => decide (u8 x 4 + canWidth (u8 x 5) ≤ u8 ((c.canMb k m).getD []) 3)
                | none => false)
        else true)

/-! PAIR (R338, R362). -/

def pairLayouts : List RecLayout := [
  { rtype := 0x621, idxMax := 0, len := some 16, rules := [.zeros 3 1, .zeros 10 6, .nonzero 1 1, .nonzero 2 1, .nonzero 4 2, .nonzero 6 2,
      .range 0 1 0 1, .range 4 2 1 3600, .range 6 2 10 10000, .range 8 2 0 1000] }]

/-- PAIR_MODE in use: a format 1 casting with a pair runs as 2 (R354). -/
def Cst.pairInUse (c : Cst) : Nat := if c.pairMode ≠ 0 ∧ c.legacy then 2 else c.pairMode

/-- PAIR_GLOBAL, with the defaults of R362 where the casting carries none. -/
def Cst.pairGlobal (c : Cst) : Bytes := (c.rec? 0x62 0x621 0).getD [0, 50, 5, 0, 30, 0, 200, 0, 10, 0, 0, 0, 0, 0, 0, 0]

/-- The coupling load in Mbit/s (R338). -/
def Cst.couplingLoad (c : Cst) : Nat :=
  Config.couplingLoad [u16 c.system 0, c.stagingWords, c.tagCount, ((List.range 192).filter fun n => c.slotRec n ≠ []).length,
    ((List.range 32).filter fun d => c.fanRec d ≠ []).length, ((List.range 96).filter fun n => chIsOutput (c.chan n)).length]

def checkPair (c : Cst) : Option CstErr :=
  firstErr [sectNeed (c.pairMode ≠ 0) cRange 0x62 0, sectNeed (c.rec? 0x62 0x621 0).isSome cMissing 0x62 0,
    sectNeed (decide (c.couplingLoad ≤ 800)) cRange 0x62 0]

/-- R57: a pair needs PAIR, a single module has none; a format 1 casting carries none (R354). -/
def checkNoPair (c : Cst) : Option CstErr := sectNeed (c.pairMode = 0 || c.legacy || !(c.recs 0x62).isEmpty) cMissing 0x62 0

/-! CALENDAR (R420, R421, R427): of the unit class. -/

def calendarLayouts : List RecLayout := [
  { rtype := 0x901, idxMax := 0, len := some 32, rules := [.zeros 3 1, .zeros 11 1, .zeros 15 1, .zeros 21 1, .zeros 24 8, .nonzero 4 2,
      .range 0 1 0 3, .range 4 2 60 3600, .range 6 2 0 60000, .srange 8 2 (-720) 840, .range 10 1 0 120] },
  { rtype := 0x902, idxMax := 15, len := some 24, emptyForm := true, rules := [.zbits 1 1 0xFC, .zeros 2 2, .zeros 20 4, .range 0 1 1 2] }]

def calendarExtra (c : Cst) (r : Rec) : RecFail :=
  let b := r.body
  if r.rtype = 0x901 then
    let mains : Bool := u8 b 0 = 1 || u8 b 0 = 3
    let t := chType (c.chan (u8 b 1))
    let edge := fun o => decide (1 ≤ u8 b o) && decide (u8 b o ≤ 12) && decide (1 ≤ u8 b (o + 1)) && decide (u8 b (o + 1) ≤ 5)
      && decide (u8 b (o + 2) ≤ 6) && decide (u16 b (o + 4) ≤ 1439)
    if (if mains then !(t = 4 || t = 5) || 95 < u8 b 1 else u8 b 1 ≠ 0xFF) then some (cRange, 1)
    else if (if mains then !(u8 b 2 = 50 || u8 b 2 = 60) else u8 b 2 ≠ 0) then some (cRange, 2)
    else if (if u8 b 10 = 0 then !allZero (slice b 12 12) else !(edge 12 && edge 18)) then some (cRange, 12)
    else none
  else
    let tag := u32 b 16
    if u8 b 0 = 2 ∧ u32 b 12 = 0 then some (cZero, 12)
    else if (if u8 b 0 = 2 then 31536000 < u32 b 12 else u32 b 12 ≠ 0) then some (cRange, 12)
    else if tag ≠ 0 ∧ (c.tagType tag ≠ 1 ∨ c.tagWriters tag true ≠ 0
        ∨ (c.canMaps.any fun y => u8 y.body 1 = 0 && u32 y.body 8 = tag)) then some (cRange, 16)
    else none

end Sys2Proof.Machine
end

