-- ==== Sys2Proof/Machine/CanMap.lean ====
section
/-! DEFINITION. The maps between CAN data and logic tags (spec/14, R398, R400, R401). -/

namespace Sys2Proof.Machine

open Sys2Proof

/-- A controller, a receive object. -/
def Can.ctl (x : Can) (c : Nat) : CanCtl := tget x.ctls c {}
def Can.obj (x : Can) (c id : Nat) : CanObj := tget x.objs (c * 2048 + id) {}

/-- A field of a frame as the value word of a tag: integers saturate at the tag's range. -/
def canGet (d : Bytes) (byte code bitNo type : Nat) : Word :=
  let n := leNat (slice d byte (canWidth code))
  match code with
  | 1 => if (u8 d byte).testBit bitNo then 1 else 0
  | 8 => word n
  | _ =>
    let v : Int := if code = 3 ∨ code = 5 ∨ code = 7 then signed (8 * canWidth code) n else n
    if type = 3 then wordInt (clampInt 0 (2 ^ 32 - 1) v) else wordInt (clampInt (-(2 ^ 31)) (2 ^ 31 - 1) v)

/-- A tag's value as a field: saturating at the field's range. -/
def canField (code type : Nat) (w : Word) : Nat :=
  let bits := 8 * canWidth code
  let v : Int := if type = 3 then w.toNat else w.toInt
  if code = 8 then w.toNat
  else if code = 3 ∨ code = 5 ∨ code = 7 then unsigned bits (clampInt (-(2 ^ (bits - 1))) (2 ^ (bits - 1) - 1) v)
  else unsigned bits (clampInt 0 (2 ^ bits - 1) v)

/-- A field put into the data of a frame. -/
def canPut (d : Bytes) (byte code bitNo type : Nat) (w : Word) : Bytes :=
  if code = 1 then
    let old := u8 d byte
    let cleared := old - (if old.testBit bitNo then 2 ^ bitNo else 0)
    d.set byte (BitVec.ofNat 8 (cleared + (if w.toNat % 2 = 1 then 2 ^ bitNo else 0)))
  else d.take byte ++ leBytes (canWidth code) (canField code type w) ++ d.drop (byte + canWidth code)

/-- Mailboxes that transmit maps feed. -/
def Cst.canMapped (k : Cst) (c id : Nat) : Bool :=
  k.canMaps.any fun r => u8 r.body 0 = c && u8 r.body 1 = 1 && u16 r.body 2 = id

/-- The data that the maps give a mailbox. -/
def Core.canMapData (k : Core) (c id len : Nat) : Bytes :=
  k.cst.canMaps.foldl (fun d r =>
    let b := r.body
    if u8 b 0 = c ∧ u8 b 1 = 1 ∧ u16 b 2 = id then canPut d (u8 b 4) (u8 b 5) (u8 b 6) (k.cst.tagType (u32 b 8)) (k.tagWord (u32 b 8)) else d)
    (List.replicate len 0)

/-- R400: what the receive maps write at an input phase, from the objects of the epoch the phase reads: tag and value word. -/
def Core.canInputs (k : Core) : List (Nat × Word) :=
  k.cst.canMaps.filterMap fun r =>
    let b := r.body
    let o := k.can.obj (u8 b 0) (u16 b 2)
    if u8 b 1 = 0 ∧ o.stored ∧ !o.stale ∧ !o.quar then
      some (u32 b 8, canGet o.data (u8 b 4) (u8 b 5) (u8 b 6) (k.cst.tagType (u32 b 8)))
    else none

end Sys2Proof.Machine
end

