-- ==== Sys2Proof/Machine/Loops.lean ====
section
/-! DEFINITION. The loop engine (spec/07): the hysteretic law, ticks and output instants, hand, injection, registers. -/

namespace Sys2Proof.Machine

open Sys2Proof

/-! The SLOT record (R198). -/

def slNlev (b : Bytes) : Nat := u8 b 0
def slDiv (b : Bytes) : Nat := u16 b 2
def slPhase (b : Bytes) : Nat := u16 b 4
def slDstKind (b : Bytes) : Nat := u8 b 6
def slOutMin (b : Bytes) : Word := f32 b 36
def slOutMax (b : Bytes) : Word := f32 b 40
def slRate (b : Bytes) : Word := f32 b 44
def slV (b : Bytes) (l : Nat) : Word := f32 b (64 + 4 * l)

/-- Upward and downward thresholds of a band (R201). -/
def slUp (b : Bytes) (k : Nat) : Word := fAdd (f32 b (96 + 4 * k)) (fMul (f32 b (124 + 4 * k)) (fOfRat 1 2))
def slDown (b : Bytes) (k : Nat) : Word := fSub (f32 b (96 + 4 * k)) (fMul (f32 b (124 + 4 * k)) (fOfRat 1 2))

/-- R201: the level that the law calls for; at most seven steps either way. -/
def levelUp (b : Bytes) (e : Word) : Nat → Nat → Nat
  | 0, l => l
  | k + 1, l => if l + 1 < slNlev b ∧ fLt (slUp b l) e then levelUp b e k (l + 1) else l
def levelDown (b : Bytes) (e : Word) : Nat → Nat → Nat
  | 0, l => l
  | k + 1, l => if 0 < l ∧ fLt e (slDown b (l - 1)) then levelDown b e k (l - 1) else l
def nextLevel (b : Bytes) (e : Word) (l : Nat) : Nat :=
  let u := levelUp b e 7 l
  if u ≠ l then u else levelDown b e 7 l

/-- R201 to R203: the level and the dwell count after an evaluation; at the first one L starts at 0 and only rises. -/
def Slot.stepLevel (x : Slot) (b : Bytes) (e : Word) : Slot :=
  if x.evals = 0 then { x with level := levelUp b e 7 0, dwell := 0, dwellHeld := false }
  else
    let n := x.dwell + 1
    let l := nextLevel b e x.level
    if l = x.level then { x with dwell := n, dwellHeld := false }
    else if u8 b 18 ≤ n then { x with level := l, dwell := 0, dwellHeld := false }
    else { x with dwell := n, dwellHeld := true }

/-- R205: the compensation factor, and SUP_CLAMP. -/
def supply (b : Bytes) (v : Word) (faulted : Bool) : Word × Bool :=
  if u32 b 20 = 0 then (fOfNat 1, false)
  else if faulted || !fFinite v || fLe v 0 then (fOfNat 1, true)
  else
    let c := fDiv (f32 b 24) v
    let l := fClamp (fOfRat 1 2) (fOfNat 2) c
    (l, l ≠ c)

/-- R204: the feed-forward input, and whether it was faulted or not finite. -/
def feedForward (b : Bytes) (x : Slot) (sp : Word) (src : Word) (faulted : Bool) : Word × Bool :=
  match u8 b 7 with
  | 1 => if faulted || !fFinite src then (0, true) else (src, false)
  | 2 =>
    if x.evals < 2 then (0, false)
    else
      let ts := fDiv (fOfNat (slDiv b)) (fOfNat 1000)
      (fDiv (fAdd (fSub sp (fMul (fOfNat 2) x.sp1)) x.sp2) (fMul ts ts), false)
  | _ => (0, false)

/-- The largest step of the slew limit (R206). -/
def slewStep (b : Bytes) : Word := fDiv (fMul (slRate b) (fOfNat (slDiv b))) (fOfNat 1000)

/-- Step 4 of R206. -/
def slewLimit (b : Bytes) (yPrev u : Word) (skip : Bool) : Word × Bool :=
  if skip || !fLt 0 (slRate b) then (u, false)
  else
    let d := slewStep b
    let v := fClamp (fSub yPrev d) (fAdd yPrev d) u
    (v, v ≠ u)

/-! Injection (R215 to R220). -/

/-- Length of a PRBS sequence and its feedback taps (R218). -/
def prbsLen (order : Nat) : Nat := if order = 0 then 127 else if order = 1 then 511 else 2047
def prbsWidth (order : Nat) : Nat := if order = 0 then 7 else if order = 1 then 9 else 11
def prbsTap (order : Nat) : Nat := if order = 0 then 6 else if order = 1 then 5 else 9

/-- One shift of the Fibonacci register: the new bit is the sum of the bits of the polynomial's exponents. -/
def prbsShift (order r : Nat) : Nat :=
  let n := prbsWidth order
  let b := (r.testBit (n - 1)).toNat ^^^ (r.testBit (prbsTap order - 1)).toNat
  (2 * r + b) % 2 ^ n

/-- The output bit of the register: its last stage. -/
def prbsBit (order r : Nat) : Bool := r.testBit (prbsWidth order - 1)

/-- The injected evaluations of an injection (R216 to R218). -/
def Lpe.injTotal (x : Lpe) : Nat := if x.injType = 2 then x.injLen * prbsLen x.injOrder * x.injClk else x.injLen

/-- The offset or value of the injection at an evaluation with error `e`: on the setpoint an offset, on the output a value
before its limits. -/
def Lpe.injSignal (x : Lpe) : Word :=
  if x.injType = 0 then x.injAmp
  else if x.injType = 1 then (if x.relayHigh then fAdd x.injBias x.injAmp else fSub x.injBias x.injAmp)
  else if prbsBit x.injOrder x.lfsr then fAdd x.injBias x.injAmp else fSub x.injBias x.injAmp

/-- R217: the relay's level after an evaluation with error `e`; `first` at the first injected one. -/
def Lpe.relayStep (x : Lpe) (e : Word) (first : Bool) : Lpe :=
  let start := if first then { x with relayHigh := fLe 0 e } else x
  if fLt x.injHyst e then { start with relayHigh := true }
  else if fLt e (fNeg x.injHyst) then { start with relayHigh := false }
  else start

/-- R218: the register advances every CLK evaluations. -/
def Lpe.prbsStep (x : Lpe) : Lpe :=
  if (x.injDone + 1) % (max 1 x.injClk) = 0 then { x with lfsr := prbsShift x.injOrder x.lfsr } else x

/-- R219: an entry of the capture buffer at every DEC-th evaluation. -/
def Lpe.store (x : Lpe) (pv out : Word) : Lpe :=
  if x.injEvals % (max 1 x.injDec) = 0 ∧ x.capture.length < 4096 then { x with capture := x.capture ++ [(pv, out)] } else x

/-! One evaluation (R201 to R209). -/

/-- What an evaluation latches: PV, its fault, supply and feed-forward sources with their faults. -/
structure Latch where
  pv : Word
  pvFault : Bool
  sup : Word
  supFault : Bool
  ff : Word
  ffFault : Bool
deriving DecidableEq, Repr

/-- An evaluation's overrides: a setpoint offset, an output value. -/
structure Inject where
  spAdd : Option Word := none
  out : Option Word := none
deriving DecidableEq, Repr

/-- The result of an evaluation: the slot, events for LPE_NONFIN and LPE_PVFAULT, the applied output. -/
structure Eval where
  slot : Slot
  nonfin : Bool
  faulted : Bool

/-- R201 to R209 on one slot; `relay` gives the injected output for an error. -/
def Slot.eval (x : Slot) (b : Bytes) (l : Latch) (inj : Inject) : Eval :=
  let fault : Bool := l.pvFault || !fFinite l.pv
  let law : Bool := !fault || (u8 b 19 = 2 && fFinite l.pv)
  let spIn := match inj.spAdd with
    | some a => fAdd x.sp a
    | none => x.sp
  let spBad := !fFinite spIn
  let e := if u8 b 1 = 0 then fSub spIn l.pv else fSub l.pv spIn
  let ffr := feedForward b x spIn l.ff l.ffFault
  let sup := supply b l.sup l.supFault
  let y := if law then x.stepLevel b e else { x with dwellHeld := false }
  let ff := fMul (f32 b 28) ffr.1
  let u1 := fAdd (slV b y.level) ff
  let u2 := fMul u1 sup.1
  let bad : Bool := law && (spBad || !fFinite u1 || !fFinite u2)
  let u3 := fClamp (slOutMin b) (slOutMax b) u2
  let sl := slewLimit b x.yPrev u3 (x.skipSlew && x.evals = 0)
  let normal := if bad then x.yPrev else sl.1
  let out :=
    if !law then (if u8 b 19 = 1 then fClamp (slOutMin b) (slOutMax b) (f32 b 48) else x.yPrev) else normal
  let out := match inj.out with
    | some v => fClamp (slOutMin b) (slOutMax b) v
    | none => out
  -- L stays, and the evaluation counts (R202, R209)
  let y := if bad then { y with level := x.level, dwell := x.dwell + min 1 x.evals, dwellHeld := false } else y
  let act : Bool := law && !bad
  { slot := { y with
      evals := min 2 (x.evals + 1), yPrev := out, out := out
      sp1 := spIn, sp2 := x.sp1, spUsed := spIn, pv := l.pv, err := e, ff := ff
      pvFault := fault, nonfin := bad || ffr.2
      limHi := act && fLt (slOutMax b) u2, limLo := act && fLt u2 (slOutMin b), slew := act && sl.2
      supClamp := sup.2 }
    nonfin := bad
    faulted := fault && !x.pvFault }

/-! Ticks. -/

/-- The configured slots, in order of depth and then number (R210). -/
def Cst.slotOrder (c : Cst) : List Nat :=
  let used := (List.range 192).filter fun n => c.slotRec n ≠ []
  (List.range 4).flatMap fun d => used.filter fun n => c.depth n = d

/-- The value latched from a source: the latched core, the rule for 0xFFFF_FFFF applied before. -/
def latchOf (k : Core) (b : Bytes) (n : Nat) : Latch :=
  let pv := k.sourceBut (slotPv b n)
  let sup := k.sourceBut (u32 b 20)
  let ff := k.sourceBut (u32 b 32)
  { pv := pv.1, pvFault := pv.2, sup := sup.1, supFault := sup.2, ff := ff.1, ffFault := ff.2 }

/-- A fan or pump driver that does not follow its slot: KICK to LOW_SPEED and SUSPENDED (LPE_STAT.DRV_OVR). -/
def Core.drvOvr (k : Core) (b : Bytes) : Bool :=
  let st := (tget k.fan.drivers (u32 b 12) {}).st
  slDstKind b = 4 && st ≠ 0 && st ≠ 3 && st ≠ 7

/-- R187: the value that leaves a slot: its shed value, or the applied output. -/
def State.slotOut (s : State) (n : Nat) : Word :=
  (s.live.cst.shedValue s.live.pln.shed 2 n).getD (tget s.live.lpe.slots n {}).out

/-- The evaluation of a slot within a tick. `k` is the core as latched. -/
def State.evalSlot (k : Core) (s : State) (n : Nat) : State :=
  let b := s.live.cst.slotRec n
  let x := tget s.live.lpe.slots n {}
  let l := latchOf k b n
  let on : Bool := s.live.lpe.injecting && s.live.lpe.injSlot = n
  let guard : Bool := fLt l.pv s.live.lpe.guardLo || fLt s.live.lpe.guardHi l.pv
  let s := if on && (l.pvFault || !fFinite l.pv) then s.modLpe fun p => p.abort 3
    else if on && guard then s.modLpe fun p => p.abort 2 else s
  let on : Bool := s.live.lpe.injecting && s.live.lpe.injSlot = n
  -- the pre-samples end in the evaluation after PRE of them; an injection of no samples is done
  let active : Bool := on && s.live.lpe.injState = 2 && s.live.lpe.injDone < s.live.lpe.injTotal
  let e0 := if u8 b 1 = 0 then fSub x.sp l.pv else fSub l.pv x.sp
  let s := if active then s.modLpe fun p =>
      let p := if p.injDone = 0 then { p with injBase := x.yPrev } else p
      if p.injType = 1 then p.relayStep e0 (p.injDone = 0) else p
    else s
  let p := s.live.lpe
  let inj : Inject :=
    if !active then {}
    else if p.injPoint then { spAdd := some p.injSignal }
    else if p.injType = 0 then { out := some (fAdd p.injBase p.injAmp) }
    else { out := some p.injSignal }
  let r := x.eval b l inj
  let r := if x.hand then { r with slot := { r.slot with yPrev := x.yPrev, out := x.yPrev } } else r
  let r := { r with slot := { r.slot with inj := on, shed := k.cst.slotShed k.pln.shed n, drvOvr := k.drvOvr b } }
  let s := s.modLpe fun p => { p with
    slots := tset p.slots n r.slot
    due := p.due ++ [(n, r.slot.out)]
    nonfin := if r.nonfin then sat32 p.nonfin else p.nonfin
    nonfinSeen := p.nonfinSeen || r.nonfin
    pvFault := if r.faulted then sat32 p.pvFault else p.pvFault
    faultSeen := p.faultSeen || r.faulted }
  let s := if on && (active || p.injState = 1) then s.modLpe fun p =>
      let q : Lpe := { p.store l.pv r.slot.out with injEvals := p.injEvals + 1 }
      let t : Lpe := if q.injType = 2 then q.prbsStep else q
      if active then { t with injDone := t.injDone + 1 } else q
    else s
  -- an outer slot's output is its inner slot's setpoint at once
  if slDstKind b = 2 then s.modLpe fun p => { p with
    slots := tmod p.slots (u32 b 12) {} fun y => { y with sp := s.slotOut n } }
  else s

/-- The modes in which the loop engine evaluates (R194). -/
def Mode.loops (m : Mode) : Bool := m.running

/-- The engine runs: the mode, and an epoch 0 has configured it. -/
def State.loopsRun (s : State) : Bool := s.live.pwr.mode.loops && s.live.epc.casting && s.live.epc.served

/-- R214: a tick latches the hand commands; a slot in HAND applies its hand value from this tick's output instant on. -/
def Slot.latchHand (x : Slot) : Slot :=
  match x.handCmd with
  | some v => { x with hand := true, yPrev := v, out := v }
  | none => { x with hand := false }

/-- R32, R196: a tick of the present epoch is due: tick T of an epoch comes 200 µs + T ms after its boundary, and finds the epoch poured
(log entry 81). -/
def State.tickDue (s : State) : Bool :=
  let e := s.live.epc
  let j := s.live.lpe.nextTick - e.epoch * e.periodMs
  !e.pouring && decide (j < e.periodMs) && decide (e.boundaryAt + 200000 + j * 1000000 ≤ s.now + s.timerSlack)

/-- A tick of the loop engine (R195, R196): PULSE channels form their ms value, sources are latched, due slots are evaluated. `us` is the
time the evaluation took. -/
def State.loopTick (s : State) (us : Nat) : State :=
  if !s.loopsRun ∨ !s.tickDue then s
  else
    let s := s.modLpe fun p => { p with slots := p.slots.map fun q => (q.1, q.2.latchHand) }
    let s := s.modFch fun f => { f with chans := f.chans.map fun p =>
      (p.1, if chType (s.live.cst.chan p.1) = 5 then p.2.pulseTick (s.live.cst.chan p.1) s.now else p.2) }
    let n := s.live.lpe.nextTick
    let k := s.live
    let due := s.live.cst.slotOrder.filter fun i =>
      let b := s.live.cst.slotRec i
      decide (n % slDiv b = slPhase b)
    let s := s.modLpe fun p => { p with due := [], tickAt := some s.now, evalMax := min 1023 (max p.evalMax us) }
    let s := due.foldl (State.evalSlot k) s
    s.modLpe fun p => { p with nextTick := n + 1, tick := n }

/-- An output, `v` or the shed value of its slot (R187), reaches its destination (R212); fans take theirs from `Slot.out` in their own evaluation. -/
def State.deliver (s : State) (n : Nat) (v : Word) : State :=
  let b := s.live.cst.slotRec n
  let v := if slDstKind b = 1 then v else (s.live.cst.shedValue s.live.pln.shed 2 n).getD v
  match slDstKind b with
  | 1 => s.writeOut (slotDst b n) v
  | 2 => s.modLpe fun x => { x with slots := tmod x.slots (u32 b 12) {} fun y => { y with sp := v } }
  | 3 => s.modLgc fun x => { x with loopTags := tset x.loopTags (u32 b 12) v }
  | _ => s

/-- R220 causes 5 and 4: the module has lost the claim or begun a handover, or left TUNE. -/
def State.checkInjection (s : State) : State :=
  if !s.live.lpe.injecting then s
  else if !s.live.par.gate ∨ s.live.pwr.mode = .handover then s.modLpe fun p => p.abort 5
  else if s.live.pwr.mode ≠ .tune then s.modLpe fun p => p.abort 4
  else s

/-- At an output instant a hand value takes effect whether or not the slot is due (R214), and so does a shed value (R187). -/
def State.handOutputs (s : State) : State :=
  s.live.lpe.slots.foldl (fun s p =>
    if p.2.hand || (slDstKind (s.live.cst.slotRec p.1) ≠ 1 && (s.live.cst.shedValue s.live.pln.shed 2 p.1).isSome) then s.deliver p.1 p.2.yPrev else s) s

/-- The field channels that shed groups name (R187). -/
def Cst.shedChans (c : Cst) : List Nat :=
  (c.shedGroups.flatMap fun r => (shedMembers r.body).filterMap fun m =>
    if m.1 = 1 then some m.2.1 else if m.1 = 2 ∧ slDstKind (c.slotRec m.2.1) = 1 then some (slotDst (c.slotRec m.2.1) m.2.1) else none).eraseDups

/-- R187: shed values act at the output stage also where no writer writes. -/
def State.shedOutputs (s : State) : State :=
  s.live.cst.shedChans.foldl (fun s n => if (s.chan n).shed = s.shedOf n then s else s.driveOut n) s

/-- R195: the outputs of all evaluated slots applied together. -/
def State.applyOutputs (s : State) : State :=
  let due := s.live.lpe.due
  let s := s.modLpe fun p => { p with due := [] }
  (due.foldl (fun s p => s.deliver p.1 p.2) s).handOutputs.shedOutputs

/-! Hand (R214) and injection commands (R215, R220). -/

/-- A slot put in HAND with LPE_HAND_VAL, or a new value, from the next tick on. -/
def Slot.toHand (x : Slot) (b : Bytes) (v : Word) : Slot := { x with handCmd := some (fClamp (slOutMin b) (slOutMax b) v) }

/-- Every slot back to AUTO, from the next tick on. -/
def Lpe.autoAll (x : Lpe) : Lpe := { x with slots := x.slots.map fun p => (p.1, { p.2 with handCmd := none }) }

/-- R215: why an arm is ignored. -/
def State.armRefused (s : State) : Bool :=
  let p := s.live.lpe
  s.live.pwr.mode ≠ .tune || !s.live.par.gate || p.injecting || s.live.cst.slotRec p.injSlot = []
    || p.injType = 3 || (p.injType = 1 && p.injPoint) || (p.injType = 2 && p.injOrder = 3) || p.injClk = 0 || p.injDec = 0
    || fLt p.guardHi p.guardLo
    || !([p.injAmp, p.injBias, p.injHyst, p.guardLo, p.guardHi].all fFinite)

/-- The arm: pre-samples, or at once the injection. -/
def Lpe.arm (x : Lpe) : Lpe :=
  { x with injState := 1, injCause := 0, injEvals := 0, injDone := 0, capture := [], lfsr := 2 ^ prbsWidth x.injOrder - 1
           relayHigh := false }

/-- PRE_SAMPLES_DONE (R215). -/
def execPreSamplesDone (s : State) : Host.Outcome State Fault Refusal :=
  if s.live.lpe.injState = 1 ∧ s.live.lpe.injPre ≤ s.live.lpe.injEvals then
    .next (s.modLpe fun p => { p with injState := if p.injTotal = 0 then 3 else 2 })
  else .next s

/-- INJECTION_DONE (R215). -/
def execInjectionDone (s : State) : Host.Outcome State Fault Refusal :=
  if s.live.lpe.injState = 2 ∧ s.live.lpe.injTotal ≤ s.live.lpe.injDone then
    .next (s.modLpe fun p => { p with injState := 3 })
  else .next s

/-! Registers. -/

/-- The slot registers at 0x1400. -/
def readSlot (k : Core) (n r : Nat) : Word :=
  let b := k.cst.slotRec n
  let x := tget k.lpe.slots n {}
  if b = [] then 0
  else match r with
  | 0x0 => x.sp
  | 0x4 => x.pv
  | 0x8 => x.out
  | _ => pack [(0, 1, 1), (1, 3, x.level), (4, 1, x.hand.toNat), (5, 1, x.inj.toNat),
      (6, 1, x.pvFault.toNat), (7, 1, x.nonfin.toNat), (8, 1, x.limHi.toNat), (9, 1, x.limLo.toNat), (10, 1, x.slew.toNat),
      (11, 1, x.dwellHeld.toNat), (12, 1, x.shed.toNat), (13, 1, x.drvOvr.toNat),
      (14, 1, x.supClamp.toNat), (15, 1, (slDstKind b = 2 : Bool).toNat), (16, 2, k.cst.depth n)]

/-- The LPE_ registers at 0x1000. -/
def readLpe (k live : Core) (addr : Nat) : Word :=
  let x := k.lpe
  let y := live.lpe
  if 0x1400 ≤ addr then readSlot k ((addr - 0x1400) / 0x10) ((addr - 0x1400) % 0x10)
  else match addr with
  | 0x1000 => pack [(0, 1, (k.pwr.mode.loops && k.epc.casting).toNat), (1, 1, x.injecting.toNat),
      (2, 1, (x.slots.any fun p => p.2.hand).toNat), (3, 1, x.nonfinSeen.toNat), (4, 1, x.faultSeen.toNat),
      (5, 1, x.injAborted.toNat)]
  | 0x1004 => lo32 x.tick
  | 0x1008 => hi32 x.tick
  | 0x100C =>
    let used := (List.range 192).filter fun n => k.cst.slotRec n ≠ []
    pack [(0, 8, used.length), (8, 8, (used.filter fun n => slDstKind (k.cst.slotRec n) = 2).length), (16, 10, x.evalMax)]
  | 0x1010 => word x.nonfin
  | 0x1014 => word x.pvFault
  | 0x1020 => word y.handSel
  | 0x1024 => y.handVal
  | 0x1030 => pack [(0, 8, y.injSlot), (8, 2, y.injType), (10, 1, y.injPoint.toNat), (11, 2, y.injOrder), (13, 8, y.injClk),
      (21, 7, y.injDec)]
  | 0x1034 => y.injAmp
  | 0x1038 => y.injBias
  | 0x103C => y.injHyst
  | 0x1040 => y.guardLo
  | 0x1044 => y.guardHi
  | 0x1048 => pack [(0, 16, y.injLen), (16, 12, y.injPre)]
  | 0x1050 => pack [(0, 3, x.injState), (3, 3, x.injCause), (8, 13, x.capture.length)]
  | 0x1054 => word x.capPage
  | _ =>
    if 0x1200 ≤ addr ∧ addr < 0x1400 then
      let i := 128 * x.capPage + (addr - 0x1200) / 4
      if x.injecting then 0
      else match x.capture[i / 2]? with
        | some e => if i % 2 = 0 then e.1 else e.2
        | none => 0
    else 0

/-- R211: hosts write LPE_SP of a configured slot whose only writer they are, with a finite value. -/
def Cst.hostSetpoint (c : Cst) (n : Nat) : Bool :=
  c.slotRec n ≠ [] && (c.outerOf n).isNone
    && !((c.recs 0x71).any fun r => r.rtype = 0x711 && u8 r.body 6 = 1 && u32 r.body 8 = n)
def State.checkLpe (s : State) (addr : Nat) (w : Word) : Bool :=
  if 0x1400 ≤ addr ∧ addr % 0x10 = 0 then s.live.cst.hostSetpoint ((addr - 0x1400) / 0x10) && fFinite w else true

/-- A staged write of an LPE_ register at its commit. -/
def State.commitLpe (s : State) (addr : Nat) (w : Word) : State :=
  if 0x1400 ≤ addr ∧ addr < 0x2000 ∧ addr % 0x10 = 0 then
    s.modLpe fun p => { p with slots := tmod p.slots ((addr - 0x1400) / 0x10) {} fun y => { y with sp := w } }
  else match addr with
  | 0x1000 => s.modLpe fun p => { p with
      nonfinSeen := p.nonfinSeen && !bit w 3, faultSeen := p.faultSeen && !bit w 4, injAborted := p.injAborted && !bit w 5 }
  | 0x1018 => if bit w 0 then s.modLpe fun p => { p with nonfin := 0, pvFault := 0, evalMax := 0 } else s
  | 0x1054 => s.modLpe fun p => { p with capPage := field w 5 0 }
  | _ => s

/-- A HAND command (R214): 1 HAND, 2 AUTO, 3 AUTO for all; ignored outside COMMISSION or for an unconfigured slot. -/
def State.handCommand (s : State) (src : Source) (cmd : Nat) : State :=
  let n := s.live.lpe.handSel
  match cmd with
  | 1 =>
    if s.live.handMode ∧ s.live.cst.slotRec n ≠ [] then
      s.modLpe fun p => { p with slots := tmod p.slots n {} fun y => y.toHand (s.live.cst.slotRec n) p.handVal }
    else s.werr 0x1028 src .state
  | 2 => s.modLpe fun p => { p with slots := tmod p.slots n {} fun y => { y with handCmd := none } }
  | 3 => s.modLpe Lpe.autoAll
  | _ => s

/-- RW registers and immediate commands of the loop engine. -/
def State.immediateLpe (s : State) (src : Source) (addr : Nat) (w : Word) : State :=
  let set := fun (f : Lpe → Lpe) => if s.live.lpe.injecting then s.werr addr src .state else s.modLpe f
  match addr with
  | 0x1020 => if 191 < field w 7 0 then s.werr addr src .value else s.modLpe fun p => { p with handSel := field w 7 0 }
  | 0x1024 =>
    if fFinite w then
      let n := s.live.lpe.handSel
      let up := tmod s.live.lpe.slots n {} fun y => if y.handCmd.isSome then y.toHand (s.live.cst.slotRec n) w else y
      s.modLpe fun p => { p with handVal := w, slots := up }
    else s.werr addr src .value
  | 0x1028 => s.handCommand src (field w 1 0)
  | 0x1030 =>
    if field w 20 13 = 0 ∨ field w 27 21 = 0 then s.werr addr src .zero
    else set fun p => { p with injSlot := field w 7 0, injType := field w 9 8, injPoint := bit w 10, injOrder := field w 12 11
                               injClk := field w 20 13, injDec := field w 27 21 }
  | 0x1034 => set fun p => { p with injAmp := w }
  | 0x1038 => set fun p => { p with injBias := w }
  | 0x103C => set fun p => { p with injHyst := w }
  | 0x1040 => set fun p => { p with guardLo := w }
  | 0x1044 => set fun p => { p with guardHi := w }
  | 0x1048 => set fun p => { p with injLen := field w 15 0, injPre := field w 27 16 }
  | 0x104C =>
    let s1 := if bit w 1 then s.modLpe fun p => p.abort 1 else s
    if bit w 0 then (if s1.armRefused then s1.werr addr src .state else s1.modLpe Lpe.arm) else s1
  | _ => s

/-- The loop engine at epoch 0 (R203, R204, R207): y_prev is what the destination then holds, an inner slot SP_INIT; after a `warm`
reset outputs and tags held through it. -/
def State.configureLoops (s : State) (warm : Bool) : State :=
  let c := s.live.cst
  let fresh : Table Slot := ((List.range 192).filter fun n => c.slotRec n ≠ []).map fun n =>
    let b := c.slotRec n
    let y := match slDstKind b with
      | 1 => if warm then (s.chan (slotDst b n)).applied else chInit (c.chan (slotDst b n))
      | 2 => f32 (c.slotRec (u32 b 12)) 52
      | 3 => if warm then s.live.tagWord (u32 b 12) else ((c.tagRec (u32 b 12)).map fun r => f32 r.body 8).getD 0
      | 4 => if warm then (tget s.live.fan.drivers (u32 b 12) {}).duty else 0
      | _ => 0
    (n, { sp := f32 b 52, yPrev := y, skipSlew := !warm || slDstKind b = 0 })
  s.modLpe fun p => { p with slots := fresh, due := [], nextTick := 0, tick := 0, injState := 0, injCause := 0, injEvals := 0
                             injDone := 0, capture := [] }

end Sys2Proof.Machine
end

