-- ==== Sys2Proof/Machine/Logic.lean ====
section
/-! DEFINITION. The logic engine (spec/08): cycles, tags and function blocks, forcing, on-line change, registers. The
program's own operations come with the cycle's command (log entry 24). -/

namespace Sys2Proof.Machine

open Sys2Proof

/-! Function blocks (R231). `now` is the logic clock in µs. -/

/-- The word of a timer: ET in ms, truncated, and Q. -/
def timerWord (et : Nat) (q : Bool) : Word := pack [(0, 31, et / 1000), (31, 1, q.toNat)]

/-- ET advances by the difference of the logic clock between successive executions (R231). -/
def TagVal.advance (x : TagVal) (now : Nat) (runs : Bool) : Nat := if runs then x.et + (now - x.last) else x.et

def TagVal.ton (x : TagVal) (inp : Bool) (pt now : Nat) : TagVal :=
  let et := if inp then x.advance now (x.inp && !bit x.word 31) else 0
  { x with et := et, inp := inp, last := now, word := timerWord et (inp && decide (pt ≤ et)) }

def TagVal.tof (x : TagVal) (inp : Bool) (pt now : Nat) : TagVal :=
  let et := if inp then 0 else x.advance now (!x.inp && bit x.word 31)
  { x with et := et, inp := inp, last := now, word := timerWord et (inp || (bit x.word 31 && decide (et < pt))) }

def TagVal.tp (x : TagVal) (inp : Bool) (pt now : Nat) : TagVal :=
  let start : Bool := inp && !x.inp && !bit x.word 31
  let et := if start then 0 else if bit x.word 31 then x.advance now true else if inp then x.et else 0
  { x with et := et, inp := inp, last := now, word := timerWord et ((start || bit x.word 31) && decide (et < pt)) }

/-- A counter word one up or down, saturating at the DINT limits. -/
def countUp (w : Word) : Word := wordInt (min (w.toInt + 1) (2 ^ 31 - 1))
def countDown (w : Word) : Word := wordInt (max (w.toInt - 1) (-(2 ^ 31)))

def TagVal.ctu (x : TagVal) (up reset : Bool) : TagVal :=
  { x with inp := up, word := if reset then 0 else if up && !x.inp then countUp x.word else x.word }
def TagVal.ctd (x : TagVal) (down load : Bool) (pv : Word) : TagVal :=
  { x with inp := down, word := if load then pv else if down && !x.inp then countDown x.word else x.word }
def TagVal.ctud (x : TagVal) (up down reset load : Bool) (pv : Word) : TagVal :=
  let u : Bool := up && !x.inp
  let d : Bool := down && !x.inp2
  { x with inp := up, inp2 := down
           word := if reset then 0 else if load then pv else if u && !d then countUp x.word
             else if d && !u then countDown x.word else x.word }

/-- Edge detectors: Q from the input and the stored previous input, then the input is stored; a new one stores first (R241). -/
def TagVal.edge (x : TagVal) (rising inp : Bool) : TagVal :=
  let prev := if x.fresh then inp else bit x.word 0
  let q := if rising then inp && !prev else !inp && prev
  { x with fresh := false, word := pack [(0, 1, inp.toNat), (1, 1, q.toNat)] }

/-! Tags and forces. -/

/-- The forced value of a tag identifier (R234). -/
def Lgc.forced (x : Lgc) (id : Nat) : Option Word := (x.forces.find? fun f => f.tag = id).map Force.val

/-- The identifier and type of a tag slot. -/
def Cst.slotTag (c : Cst) (slot : Nat) : Nat × Nat :=
  match c.rec? 0x31 0x311 slot with
  | some b => (u32 b 0, u8 b 4)
  | none => (0, 0)

/-- A word set in a tag by identifier, if the program has it. -/
def Lgc.setTag (x : Lgc) (c : Cst) (id : Nat) (w : Word) : Lgc :=
  match c.tagSlot id with
  | some t => { x with tags := tmod x.tags t {} fun v => { v with word := w } }
  | none => x

/-- Forces applied to the tags (R223, R234). -/
def Lgc.applyForces (x : Lgc) (c : Cst) : Lgc := x.forces.foldl (fun x f => x.setTag c f.tag f.val) x

/-- The program writes a tag; a write to a forced tag is discarded (R234). -/
def Lgc.progSet (x : Lgc) (c : Cst) (slot : Nat) (f : TagVal → TagVal) : Lgc :=
  if (x.forced (c.slotTag slot).1).isSome ∨ (c.slotTag slot).2 = 0 then x else { x with tags := tmod x.tags slot {} f }

/-- A run-time fault of R229: counted; the first since CLR_STATS is kept. -/
def Lgc.noteFault (x : Lgc) (bad : Bool) (net code : Nat) : Lgc :=
  if !bad then x
  else { x with
    rterr := sat32 x.rterr, rterrSeen := true
    rterrNet := if x.rterrCode = 0 then net else x.rterrNet
    rterrCode := if x.rterrCode = 0 then code else x.rterrCode }

/-- An exact integer result overflows the tag's type: UDINT is unsigned, DINT and TIME are signed (R229, R231). -/
def intOverflows (type : Nat) (v : Int) : Bool :=
  if type = 3 then decide (v < 0 ∨ 2 ^ 32 ≤ v) else decide (v < -(2 ^ 31) ∨ 2 ^ 31 ≤ v)

/-- An operation of the program, with the results R229 fixes for its faults: an overflow wraps, a division by zero gives 0, an
index out of range reads 0 and discards a write, a non-finite REAL is kept. -/
def Lgc.runOp (c : Cst) (now : Nat) (x : Lgc) (op : LogicOp) : Lgc :=
  let upd := x.progSet c
  let int := fun net slot (v : Int) =>
    (upd slot fun y => { y with word := wordInt v }).noteFault (intOverflows (c.slotTag slot).2 v) net 1
  match op with
  | .write slot w => upd slot fun v => { v with word := w }
  | .ton slot i pt => upd slot fun v => v.ton i pt now
  | .tof slot i pt => upd slot fun v => v.tof i pt now
  | .tp slot i pt => upd slot fun v => v.tp i pt now
  | .ctu slot u r => upd slot fun v => v.ctu u r
  | .ctd slot d l pv => upd slot fun v => v.ctd d l pv
  | .ctud slot u d r l pv => upd slot fun v => v.ctud u d r l pv
  | .rTrig slot i => upd slot fun v => v.edge true i
  | .fTrig slot i => upd slot fun v => v.edge false i
  | .intResult net slot v => int net slot v
  | .quotient net slot d v => if d = 0 then (upd slot fun y => { y with word := 0 }).noteFault true net 2 else int net slot v
  | .arrayRead net slot n i w =>
    let ok : Bool := decide (0 ≤ i ∧ i < n)
    (upd slot fun y => { y with word := if ok then w else 0 }).noteFault (!ok) net 3
  | .arrayWrite net n i slot w =>
    if 0 ≤ i ∧ i < n then upd slot fun y => { y with word := w } else x.noteFault true net 3
  | .realResult net slot w => (upd slot fun y => { y with word := w }).noteFault (!fFinite w) net 4
  | .fault net code => x.noteFault true net code

/-! Force commands (R235, R236). -/

/-- FORCE, FLO, FHI of a tag. -/
def Cst.tagForce (c : Cst) (id : Nat) : Nat := ((c.tagRec id).map fun r => u8 r.body 6).getD 0
def Cst.inLimits (c : Cst) (id : Nat) (w : Word) : Bool :=
  match c.tagRec id with
  | some r => validWord (u8 r.body 4) w && wordLe (u8 r.body 4) (f32 r.body 12) w && wordLe (u8 r.body 4) w (f32 r.body 16)
  | none => false

/-- R236: whether a role may force a tag: Operator only with FORCE 2. -/
def Cst.mayForce (c : Cst) (role : Role) (id : Nat) : Bool := role ≠ .operator || c.tagForce id = 2

/-- The result code of a command and the force set after it (R235). -/
def Lgc.forceStep (x : Lgc) (c : Cst) (cmd id : Nat) (w : Word) (role : Role) : Nat × List Force :=
  match cmd with
  | 1 =>
    if (c.tagRec id).isNone then (1, x.forces)
    else if c.tagForce id = 0 then (2, x.forces)
    else if !c.mayForce role id then (5, x.forces)
    else if !c.inLimits id w then (3, x.forces)
    else if (x.forced id).isSome then (0, x.forces.map fun f => if f.tag = id then { f with val := w } else f)
    else if 256 ≤ x.forces.length then (4, x.forces)
    else (0, x.forces ++ [{ tag := id, val := w }])
  | 2 =>
    if (c.tagRec id).isNone then (1, x.forces)
    else if (x.forced id).isNone then (7, x.forces)
    else if !c.mayForce role id then (5, x.forces)
    else (0, x.forces.filter fun f => f.tag ≠ id)
  | _ => (0, x.forces.filter fun f => !c.mayForce role f.tag)

/-- The force set after commands that wait (R235). -/
def Lgc.forcesAfter (x : Lgc) (c : Cst) (cmds : List (Nat × Nat × Nat × Word × Role)) : List Force :=
  cmds.foldl (fun (fs : List Force) q => (({ x with forces := fs } : Lgc).forceStep c q.2.1 q.2.2.1 q.2.2.2.1 q.2.2.2.2).2) x.forces

/-- The present epoch is that of an accepted on-line change that is not installed yet (R240). -/
def State.changeDue (s : State) : Bool := s.live.lgc.change.any fun q => decide (q.1 = s.live.epc.epoch)

/-- A force command judged: the result code is shown; one that fails is dropped and counted (R235, R39); another waits for its
input phase. -/
def State.judgeForce (s : State) (cmd : Nat) (src : Source) (role : Role) : State :=
  let x := s.live.lgc
  let r := ({ x with forces := x.forcesAfter s.live.cst x.forceCmds } : Lgc).forceStep s.live.cst cmd x.forceTag x.forceVal role
  let s := s.modLgc fun x => { x with resCode := r.1, resTag := if cmd = 3 then 0 else x.forceTag }
  if r.1 = 0 then s.modLgc fun x => { x with forceCmds := x.forceCmds ++ [(s.live.epc.epoch, cmd, x.forceTag, x.forceVal, role)] }
  else s.werr 0x2048 src .value

/-- A force command at its commit; one committed at the change epoch waits for the new program (R243). -/
def State.commitForce (s : State) (cmd : Nat) (src : Source) (role : Role) : State :=
  if s.changeDue then s.modLgc fun x => { x with forceHeld := some (cmd, src, role) } else s.judgeForce cmd src role

/-- The command that waited for the new program (R243). -/
def State.takeHeld (s : State) : State :=
  match s.live.lgc.forceHeld with
  | some q => (s.modLgc fun x => { x with forceHeld := none }).judgeForce q.1 q.2.1 q.2.2
  | none => s

/-- The force commands whose commit epoch has been poured take effect at the input phase; FORCE_N follows the set (R235, R238). -/
def State.takeForce (s : State) : State :=
  let due : Nat × Nat × Nat × Word × Role → Bool := fun q => !s.live.epc.pouring || decide (q.1 < s.live.epc.epoch)
  let fs := s.live.lgc.forcesAfter s.live.cst (s.live.lgc.forceCmds.filter due)
  s.modLgc fun x => { x with forceCmds := x.forceCmds.filter fun q => !due q, forces := fs, forceN := !fs.isEmpty }

/-! A cycle (R223 to R229). -/

/-- The value an input map entry latches into its tag (R223): singles as they are, BOOL from 0.0 or not, integers rounded. -/
def inputWord (type : Nat) (v : Word) : Word :=
  if type = 4 then v
  else if type = 1 then (if single.isZero v.toNat then 0 else 1)
  else
    let i := (fValue v).toFixed 0
    if type = 3 then word (clampInt 0 (2 ^ 32 - 1) i).toNat else wordInt (clampInt (-(2 ^ 31)) (2 ^ 31 - 1) i)

/-- At a boundary: what the epoch now published brought and no input phase has taken yet (R223). -/
def Lgc.roll (x : Lgc) : Lgc := { x with
  planOld := x.planTags.foldl (fun t p => tset t p.1 p.2) x.planOld, planTags := []
  hostOld := x.hostOld ++ x.hostWrites, hostWrites := [] }

/-- The host tag writes and plan values of the published epoch, in this order; those of a pour still running wait (R223, R224). -/
def Lgc.takePublished (x : Lgc) (c : Cst) (pouring : Bool) : Lgc :=
  let y := if pouring then x else x.roll
  let y := y.hostOld.foldl (fun x p => x.setTag c p.1 p.2) { y with hostOld := [] }
  y.planOld.foldl (fun x p => x.setTag c p.1 p.2) { y with planOld := [] }

/-- A commit set's tag state in place of the own one (R244): elapsed times go on from here by the own clock (log entry 24). -/
def Lgc.takeAdopted (x : Lgc) : Lgc :=
  match x.adopt with
  | some t => { x with tags := t.map fun p => (p.1, { p.2 with last := x.clock / 1000 }), adopt := none }
  | none => x

/-- The input phase: what the published epoch brings, and, unless the cycle is to be aborted, the latched inputs. -/
def State.inputPhase (s : State) (latch : Bool) : State :=
  let c := s.live.cst
  let k := match s.pub with
    | some b => b.core
    | none => s.live
  let s := s.modLgc fun x =>
    let x := x.takeAdopted.takePublished c s.live.epc.pouring
    let x := x.pulsed.foldl (fun x id => x.setTag c id 0) { x with pulsed := [] }
    x.pulseTags.foldl (fun x id => x.setTag c id 1) { x with pulseTags := [], pulsed := x.pulseTags }
  let s := s.takeForce
  s.modLgc fun x =>
    let x := if latch then
        let x := c.ioRecs.foldl (fun x r =>
          if u8 r.body 0 = 0 then x.setTag c (u32 r.body 8) (inputWord (c.tagType (u32 r.body 8)) (k.sourceBut (u32 r.body 4)).1)
          else x) x
        let x := k.canInputs.foldl (fun x p => x.setTag c p.1 p.2) x
        x.loopTags.foldl (fun x p => x.setTag c p.1 p.2) x
      else x
    x.applyForces c

/-- R229 code 4 and R228: the HALT action of an output entry: hold, or HALT_VAL. -/
def State.haltOutput (s : State) (r : Rec) : State :=
  if u8 r.body 1 = 1 then s.writeOut (u32 r.body 4) (tagSingle (s.live.cst.tagType (u32 r.body 8)) (f32 r.body 12)) else s

/-- The output phase: output map entries to their channels; shed values of tags act after logic (R187, R223). -/
def State.outputPhase (s : State) : State :=
  let c := s.live.cst
  let s := s.modLgc fun x => x.shedTags.foldl (fun x p => if (x.forced p.1).isSome then x else x.setTag c p.1 p.2) x
  c.ioRecs.foldl (fun s r =>
    if u8 r.body 0 = 1 then
      let t := c.tagType (u32 r.body 8)
      let w := s.live.tagWord (u32 r.body 8)
      if t = 4 && !fFinite w then s.haltOutput r else s.writeOut (u32 r.body 4) (tagSingle t w)
    else s) s

/-- The engine runs (R222, R230). -/
def State.logicRuns (s : State) : Bool :=
  s.live.pwr.mode.loops && s.live.epc.casting && s.live.epc.served && s.live.cst.hasProgram && !s.live.lgc.halted

/-- The logic clock brought to the present instant. -/
def Lgc.tickClock (x : Lgc) (now : Nat) : Lgc := { x with clock := x.clock + (now - x.clockAt), clockAt := now }

/-- The pour of a change epoch runs: no input phase starts (R240). -/
def State.changeGap (s : State) : Bool :=
  s.live.epc.pouring && (s.changeDue || (decide (s.live.lgc.changeResult = 1) && decide (s.live.lgc.changeEpoch = s.live.epc.epoch)))

/-- A cycle may start: MIN_GAP_US after the previous one (R223), and not between a change epoch and the end of its pour (R240). -/
def State.cycleDue (s : State) : Bool :=
  !s.changeGap && match s.live.lgc.lastEnd with
  | none => true
  | some t => decide (t + s.live.cst.minGapUs * 1000 ≤ s.now)

/-- LOGIC_CYCLE (R223, R227, R229): a cycle of `us` µs in which the program performs `ops`. -/
def execLogicCycle (us : Nat) (ops : List LogicOp) (s : State) : Host.Outcome State Fault Refusal :=
  if !s.logicRuns ∨ !s.cycleDue ∨ 4 * s.live.cst.cycleMaxUs ≤ us then .next s
  else
    let s := s.modLgc fun x => x.tickClock s.now
    let s := s.inputPhase true
    let now := s.live.lgc.clock / 1000
    let s := s.modLgc fun x => ops.foldl (Lgc.runOp s.live.cst now) x
    let s := s.outputPhase
    let late : Bool := s.live.cst.cycleMaxUs < us
    .next ((s.modLgc fun x => { x with
      lastEnd := some (s.now + us * 1000)
      lastUs := min us 65535, maxUs := max x.maxUs (min us 65535), cycles := x.cycles + 1
      overrun := if late then sat32 x.overrun else x.overrun, overrunSeen := x.overrunSeen || late }).watchGrid)

/-- LOGIC_WATCHDOG (R228): the cycle that started is aborted while network `net` runs; the engine halts. -/
def execLogicWatchdog (net : Nat) (s : State) : Host.Outcome State Fault Refusal :=
  if !s.logicRuns ∨ !s.cycleDue then .next s
  else
    let s := s.modLgc fun x => x.tickClock s.now
    let s := s.inputPhase false
    let s := (s.live.cst.ioRecs.filter fun r => u8 r.body 0 = 1).foldl State.haltOutput s
    .next ((s.modLgc fun x => { x with halted := true }).journal 12 (leBytes 2 net))

/-- RESTART at its commit (R228): the next cycle starts from the held tag values. -/
def State.restartLogic (s : State) (src : Source) : State :=
  if s.live.lgc.halted then s.modLgc fun x => { x with halted := false, clockAt := s.now, lastEnd := none }
  else s.werr 0x2034 src .state

/-! Starting (R233) and on-line change (R240 to R243). -/

/-- The value a tag takes at a cold start: INIT. -/
def tagInit (b : Bytes) : TagVal :=
  let t := u8 b 4
  let w := f32 b 8
  if t ≤ 5 then { word := w }
  else if 14 ≤ t then { word := pack [(0, 1, w.toNat % 2)] }
  else if 11 ≤ t then { word := w }
  else {}

/-- The tags of a program; `keep` gives the value of an identifier and type that is carried over. -/
def Cst.tagTable (c : Cst) (keep : Nat → Nat → Option TagVal) (freshEdges : Bool) : Table TagVal :=
  (c.lgcTagRecs.map fun r =>
    let id := u32 r.body 0
    let t := u8 r.body 4
    (r.index, match keep id t with
      | some v => v
      | none => let v := tagInit r.body; if freshEdges && 14 ≤ t then { v with fresh := true } else v)).foldl
    (fun t p => tset t p.1 p.2) []

/-- The old value of a tag by identifier and type. -/
def oldTag (c : Cst) (tags : Table TagVal) (id type : Nat) : Option TagVal :=
  match c.tagRec id with
  | some r => if u8 r.body 4 = type then some (tget tags r.index {}) else none
  | none => none

/-- R233: a reset removes every force, journalled once. -/
def State.dropForces (s : State) : State :=
  let n := s.live.lgc.forces.length
  let s := if 0 < n then s.journal 11 (leBytes 4 0 ++ leBytes 1 0 ++ leBytes 2 n) else s
  s.modLgc fun x => { x with forces := [], forceCmds := [], forceHeld := none, forceN := false }

/-- R233: the tags at epoch 0. `old` is the casting that ran before. -/
def State.configureLogic (s : State) (warm : Bool) (old : Cst) : State :=
  let c := s.live.cst
  let x := s.live.lgc
  let s := s.dropForces
  s.modLgc fun _ => { ({} : Lgc) with
    tags := c.tagTable (fun id t =>
      if warm && (((c.tagRec id).map fun r => (u8 r.body 5).testBit 0).getD false) then
        (oldTag old x.tags id t).map fun v => { v with last := 0 } else none) false
    clockAt := s.now
    overrun := if warm then x.overrun else 0, rterr := if warm then x.rterr else 0
    rterrNet := if warm then x.rterrNet else 0, rterrCode := if warm then x.rterrCode else 0
    forceLost := if warm then x.forceLost else 0, collide := if warm then x.collide else 0
    maxUs := if warm then x.maxUs else 0 }

/-- R241 to R243: a new program is installed in place of the running one; the force commands committed before are those of the
old program. -/
def State.installProgram (s : State) (new : Cst) : State :=
  let old := s.live.cst
  let s := s.modLgc fun x => { x with forces := x.forcesAfter old x.forceCmds, forceCmds := [] }
  let x := s.live.lgc
  let lost := x.forces.filter fun f => !decide (new.tagType f.tag = old.tagType f.tag ∧ (new.tagRec f.tag).isSome)
  let s := lost.foldl (fun s f => s.journal 11 (leBytes 4 f.tag ++ leBytes 1 1)) s
  let s := s.modCst fun _ => new
  s.modLgc fun x => { x with
    tags := new.tagTable (oldTag old x.tags) true
    forces := x.forces.filter fun f => !lost.contains f
    forceN := !(x.forces.filter fun f => !lost.contains f).isEmpty
    forceLost := satAdd 32 x.forceLost lost.length
    changeCount := satAdd 16 x.changeCount 1, changeResult := 1, changeEpoch := s.live.epc.epoch, change := none }

/-! Registers. -/

/-- FORCE_OUTSIDE (R242). -/
def Core.forceOutside (k : Core) : Bool :=
  k.lgc.forces.any fun f => k.cst.tagForce f.tag = 0 || !k.cst.inLimits f.tag f.val

/-- The LGC_ registers at 0x2000. -/
def readLgc (k : Core) (addr : Nat) : Word :=
  let x := k.lgc
  match addr with
  | 0x2000 => pack [(0, 1, (k.pwr.mode.loops && k.epc.casting && k.cst.hasProgram && !x.halted).toNat), (1, 1, x.halted.toNat),
      (2, 1, (!k.cst.hasProgram).toNat), (3, 1, x.overrunSeen.toNat), (4, 1, x.rterrSeen.toNat), (5, 1, k.forceOutside.toNat)]
  | 0x2004 => pack [(0, 16, x.lastUs), (16, 16, x.maxUs)]
  | 0x2008 => lo32 x.cycles
  | 0x200C => hi32 x.cycles
  | 0x2010 => word x.overrun
  | 0x2014 => word x.rterr
  | 0x2018 => word x.forceLost
  | 0x201C => word x.collide
  | 0x2020 => pack [(0, 14, x.rterrNet), (16, 3, x.rterrCode)]
  | 0x2024 => word x.forces.length
  | 0x2028 => pack [(0, 16, x.changeCount), (16, 3, x.changeResult)]
  | 0x202C => lo32 x.changeEpoch
  | 0x2030 => hi32 x.changeEpoch
  | 0x2040 => word x.forceTag
  | 0x2044 => x.forceVal
  | 0x204C => pack [(0, 3, x.resCode), (5, 27, x.resTag)]
  | 0x20A0 => word x.tagBase
  | 0x20A4 => word (k.cst.slotTag x.tagBase).1
  | _ =>
    if 0x2060 ≤ addr ∧ addr < 0x20A0 then
      let i := (addr - 0x2060) / 8
      if addr % 8 = 0 then tget x.twrId i 0 else tget x.twrVal i 0
    else if 0x2100 ≤ addr ∧ addr < 0x2200 then
      let t := x.tagBase + (addr - 0x2100) / 4
      if t < k.cst.tagCount then (tget x.tags t {}).word else 0
    else if 0x2200 ≤ addr ∧ addr < 0x2400 then
      let i := (addr - 0x2200) / 4
      let at_ := fun n => match x.forces[n]? with
        | some f => (k.cst.tagSlot f.tag).getD 0xFFFF
        | none => 0xFFFF
      pack [(0, 16, at_ (2 * i)), (16, 16, at_ (2 * i + 1))]
    else 0

/-- R246: a host tag write names a tag with HOST_WR, a valid word, and no force stands on the tag. -/
def State.hostWriteOk (s : State) (id : Nat) (w : Word) : Bool :=
  match s.live.cst.tagRec id with
  | some r => (u8 r.body 5).testBit 1 && validWord (u8 r.body 4) w && (s.live.lgc.forced id).isNone
  | none => false

/-- R246 at the close of a transaction: a pair that it writes is dropped whole when it may not be written; `ws` are the transaction's
writes. -/
def State.pairOk (s : State) (ws : List (Nat × Word)) (k : Nat) : Bool :=
  let find := fun a (d : Word) => ((ws.find? fun x => x.1 = a).map Prod.snd).getD d
  let id := field (find (0x2060 + 8 * k) (tget s.live.lgc.twrId k 0)) 26 0
  decide (id = 0) || s.hostWriteOk id (find (0x2064 + 8 * k) (tget s.live.lgc.twrVal k 0))

/-- The pairs at the end of a commit: each with an identifier is taken and cleared (R246); one that fails now is a dropped write of the
source that gave its identifier (R39). -/
def State.takePairs (s : State) : State :=
  (List.range 8).foldl (fun s k =>
    let id := (tget s.live.lgc.twrId k 0).toNat
    let w := tget s.live.lgc.twrVal k 0
    if id = 0 then s
    else
      let clear := s.modLgc fun x => { x with twrId := tset x.twrId k 0, twrVal := tset x.twrVal k 0 }
      if s.hostWriteOk id w then clear.modLgc fun x => { x with hostWrites := x.hostWrites ++ [(id, w)] }
      else clear.werr (0x2060 + 8 * k) (tget s.live.lgc.twrSrc k .dp) .value) s

/-- A staged write of an LGC_ register at its commit, by a role. -/
def State.commitLgc (s : State) (src : Source) (role : Role) (addr : Nat) (w : Word) : State :=
  match addr with
  | 0x2000 => s.modLgc fun x => { x with overrunSeen := x.overrunSeen && !bit w 3, rterrSeen := x.rterrSeen && !bit w 4 }
  | 0x2034 =>
    let s1 := if bit w 0 then s.modLgc fun x => { x with
      overrun := 0, rterr := 0, rterrNet := 0, rterrCode := 0, forceLost := 0, collide := 0, maxUs := 0 } else s
    if bit w 1 then s1.restartLogic src else s1
  | 0x2040 => s.modLgc fun x => { x with forceTag := field w 26 0 }
  | 0x2044 => s.modLgc fun x => { x with forceVal := w }
  | 0x2048 => if field w 1 0 = 0 then s else s.commitForce (field w 1 0) src role
  | 0x20A0 => s.modLgc fun x => { x with tagBase := field w 13 0 }
  | _ =>
    if 0x2060 ≤ addr ∧ addr < 0x20A0 then
      let i := (addr - 0x2060) / 8
      if addr % 8 = 0 then s.modLgc fun x => { x with
          twrId := tset x.twrId i (word (field w 26 0)), twrSrc := tset x.twrSrc i src }
      else s.modLgc fun x => { x with twrVal := tset x.twrVal i w }
    else s

end Sys2Proof.Machine
end

