-- ==== Sys2Proof/Machine/Fans.lean ====
section
/-! DEFINITION. Fan and pump drivers (spec/10): the request, the target, the states, the tachometer, registers. -/

namespace Sys2Proof.Machine

open Sys2Proof

/-! The FAN record (R283). -/

def fnTach (b : Bytes) : Option Nat := if u8 b 1 = 0xFF then none else some (u8 b 1)
def fnTemp (b : Bytes) : Option Nat := if u8 b 2 = 0xFF then none else some (u8 b 2)
def fnMinRpm (b : Bytes) : Word := fOfNat (u16 b 20)
def fnBand (b : Bytes) (k : Nat) : Word × Word := (f32 b (40 + 8 * k), f32 b (44 + 8 * k))

/-- R285 item 2: the curve at a temperature, interpolated in single precision. -/
def fanCurve (b : Bytes) (t : Word) : Word :=
  let n := u8 b 108
  let ct := fun k => f32 b (72 + 4 * k)
  let cd := fun k => f32 b (88 + 4 * k)
  if n = 0 then 0
  else if fLt t (ct 0) then cd 0
  else
    match (List.range (n - 1)).find? fun k => fLe (ct k) t && fLe t (ct (k + 1)) with
    | some k => fAdd (cd k) (fDiv (fMul (fSub (cd (k + 1)) (cd k)) (fSub t (ct k))) (fSub (ct (k + 1)) (ct k)))
    | none => cd (n - 1)

/-- R286: the target for a request, with MIN_LIM, MAX_LIM and BAND. -/
def fanTarget (b : Bytes) (r dPrev : Word) : Word × Bool × Bool × Bool :=
  if single.isZero r.toNat then (0, false, false, false)
  else
    let lo := fLt r (f32 b 24)
    let hi := fLt (f32 b 28) r
    let t := fClamp (f32 b 24) (f32 b 28) r
    match (List.range (u8 b 7)).find? fun k => fLt (fnBand b k).1 t && fLt t (fnBand b k).2 with
    | some k => (if fLe dPrev (fnBand b k).1 then (fnBand b k).1 else (fnBand b k).2, lo, hi, true)
    | none => (t, lo, hi, false)

/-- R287: the duty in RUN, and whether the slew limits it. -/
def fanRamp (b : Bytes) (dPrev t : Word) : Word × Bool :=
  if !fLt 0 (f32 b 36) then (t, false)
  else
    let st := fMul (f32 b 36) (fOfRat 1 1000)
    let d := fClamp (fSub dPrev st) (fAdd dPrev st) t
    if d = t then (t, false)
    else
      match (List.range (u8 b 7)).find? fun k => fLt (fnBand b k).1 d && fLt d (fnBand b k).2 with
      | some k => (if fLt dPrev t then (fnBand b k).2 else (fnBand b k).1, true)
      | none => (d, true)

/-- The driver's channel value for a duty (R282). -/
def fanChannel (range profile : Nat) (d : Word) : Word := if range = 0 ∧ profile = 0 then fSub (fOfNat 100) d else d

/-- The request r (R285): writer, curve floor; the last finite writer value and TEMP_FLT. -/
def State.fanRequest (s : State) (d : Nat) (x : FanDrv) (b : Bytes) : Word × Word × Bool :=
  let raw := match u8 b 3 with
    | 1 => match (List.range 192).find? fun n => slDstKind (s.live.cst.slotRec n) = 4 && u32 (s.live.cst.slotRec n) 12 = d with
      | some n => s.slotOut n
      | none => 0
    | 2 => s.live.tagWord (u32 b 12)
    | _ => 0
  let rw := if fFinite raw then raw else x.rw
  let tmp := match fnTemp b with
    | none => ((0 : Word), false)
    | some c => let ch := s.chan c; (fanCurve b (if ch.fault then f32 b 104 else ch.val), ch.fault)
  (rw, fClamp 0 (fOfNat 100) (if fLt rw tmp.1 then tmp.1 else rw), tmp.2)

/-- The output channel is overridden (R291): in hand, shed, in SAFEHOLD, TRIP_LATCH set or NO_VFLD raised. -/
def State.fanOverridden (s : State) (b : Bytes) : Bool :=
  let c := s.chan (u8 b 0)
  c.hand || (s.shedOf (u8 b 0)).isSome || c.safe || c.tripLatch || c.conds.contains 9

/-- Continuous power (R288). -/
def fanPowered (range : Nat) (d : Word) : Bool := range = 0 || d = fOfNat 100

/-- R288: rpm from a frequency. -/
def fanSpeed (b : Bytes) (f : Word) : Word := fDiv (fMul (fOfNat 60) f) (fOfNat (u8 b 5))

/-- R289: rpm from the edges of a window. -/
def windowSpeed (b : Bytes) (edges : List Nat) : Word :=
  match edges with
  | [] => 0
  | l :: _ =>
    let f := edges.getLastD l
    if edges.length < 2 ∨ l = f then 0
    else fOfRat ((60 * (edges.length - 1) * 1000000000 : Nat) : Int) ((l - f) * u8 b 5)

/-- The tachometer's view at an evaluation: speed, and the last edge seen. -/
def State.fanTach (s : State) (x : FanDrv) (b : Bytes) : FanDrv :=
  match fnTach b with
  | none => { x with rpm := 0 }
  | some t =>
    let c := s.chan t
    if fanPowered (chRange (s.chRec (u8 b 0))) x.duty then
      { x with rpm := fanSpeed b c.freq, seenCount := c.count, seenAt := if c.count ≠ x.seenCount then s.now else x.seenAt }
    else
      match x.window with
      | some (a, z) =>
        let es := c.edges.filter fun e => decide (a ≤ e ∧ e ≤ z)
        let seen : Bool := match es with
          | e :: _ => decide (x.seenAt < e)
          | [] => false
        { x with seenCount := c.count, seenAt := if seen then es.headD 0 else x.seenAt,
                 rpm := if z ≤ s.now then windowSpeed b es else x.rpm }
      | none => { x with seenCount := c.count }

/-- A state entered. -/
def FanDrv.enter (x : FanDrv) (st : Nat) (now : Nat) : FanDrv :=
  { x with st := st, since := now, lowSince := none, okSince := none, seenAt := now }

/-- The duty a state sets (R290), RUN apart. -/
def FanDrv.stateDuty (x : FanDrv) (b : Bytes) : Word :=
  match x.st with
  | 1 => fOfNat 100
  | 5 => f32 b 32
  | 6 => x.duty
  | _ => 0

/-- The duty of an output channel's applied value: the inverse of `fanChannel`. -/
def fanDutyOf (range profile : Nat) (u : Word) : Word := fanChannel range profile u

/-- The rows of R291 that the request and the override decide; the timed rows have commands of their own. -/
def State.fanStep (s : State) (x : FanDrv) (b : Bytes) (temp : Bool) : FanDrv :=
  let zero := single.isZero x.req.toNat
  let turning : Bool := (fnTach b).isSome && fLe (fnMinRpm b) x.rpm
  let u := fanDutyOf (chRange (s.chRec (u8 b 0))) (u8 b 4) (s.chan (u8 b 0)).elec
  if temp then (if x.st = 6 then { x with duty := u } else { (x.enter 6 s.now) with duty := u })
  else if x.st = 6 then
    if zero then { (x.enter 0 s.now) with attempt := 0 }
    else if turning ∨ ((fnTach b).isNone ∧ fLt 0 x.duty) then x.enter 3 s.now
    else { (x.enter 1 s.now) with attempt := 1, retry := false }
  else if x.st = 0 then
    if zero then x
    else if s.live.epc.epoch = 0 ∧ turning then x.enter 3 s.now
    else { (x.enter 1 s.now) with attempt := 1, retry := false }
  else if zero ∧ x.st = 1 ∧ x.retry then x.enter 4 s.now
  else if zero ∧ (x.st = 1 ∨ x.st = 2 ∨ x.st = 3 ∨ x.st = 5) then { (x.enter 0 s.now) with attempt := 0 }
  else x

/-- One evaluation of a driver (R285 to R292). -/
def State.evalFan (s : State) (d : Nat) : State :=
  let b := s.live.cst.fanRec d
  let x := tget s.live.fan.drivers d {}
  if b = [] ∨ x.st = 7 then s
  else
    let r := s.fanRequest d x b
    let x := s.fanTach { x with rw := r.1, req := r.2.1, tempFlt := r.2.2 } b
    let low : Bool := x.st = 3 && fLt 0 x.rpm && fLt x.rpm (fnMinRpm b)
    let ok : Bool := x.st = 5 && fLe (fnMinRpm b) x.rpm
    let x := { x with lowSince := if low then some (x.lowSince.getD s.now) else none,
                      okSince := if ok then some (x.okSince.getD s.now) else none }
    let x := s.fanStep x b (s.fanOverridden b)
    let t := fanTarget b x.req x.duty
    let x := { x with band := x.st = 3 && t.2.2.2, minLim := x.st = 3 && t.2.1, maxLim := x.st = 3 && t.2.2.1 }
    let x := if x.st = 3 then
        let m := fanRamp b x.duty t.1
        { x with duty := m.1, ramp := m.2 }
      else { x with duty := x.stateDuty b, ramp := false }
    let s := s.modFan fun f => { f with drivers := tset f.drivers d x }
    if x.st = 6 then s else s.writeOut (u8 b 0) (fanChannel (chRange (s.chRec (u8 b 0))) (u8 b 4) x.duty)

/-- R285: all drivers, at the output instant after the loop outputs. -/
def State.evalFans (s : State) : State := (List.range 32).foldl State.evalFan s

/-- An output instant (R195, R285): the outputs of the tick applied, then the drivers evaluated. -/
def State.outputs (s : State) : State := (s.applyOutputs.evalFans).modLpe fun p => { p with tickAt := none }

/-- R195: the output instant of a tick comes 500 µs after it, once. -/
def State.outputDue (s : State) : Bool :=
  s.loopsRun && (match s.live.lpe.tickAt with
    | some t => decide (t + 500000 ≤ s.now + s.timerSlack)
    | none => false)

/-! Timed rows of R291. -/

def State.drv (s : State) (d : Nat) : FanDrv := tget s.live.fan.drivers d {}
def State.setDrv (s : State) (d : Nat) (x : FanDrv) : State := s.modFan fun f => { f with drivers := tset f.drivers d x }

/-- The channel value of a driver's state written at once. -/
def State.writeFan (s : State) (d : Nat) : State :=
  let b := s.live.cst.fanRec d
  s.writeOut (u8 b 0) (fanChannel (chRange (s.chRec (u8 b 0))) (u8 b 4) (s.drv d).duty)

/-- Entry into STALL: journal, count (R291). -/
def State.fanStall (s : State) (d : Nat) : State :=
  let s := s.setDrv d { ((s.drv d).enter 4 s.now) with duty := 0, stallSeen := true, stalls := satAdd 8 (s.drv d).stalls 1 }
  ((s.modFan fun f => { f with stallSeen := true }).journal 13 (ev2 d 0) true).writeFan d

/-- KICK_END (R290, R291): the kick has lasted KICK_MS; it is judged on the speed from the edges of its last 500 ms. -/
def execKickEnd (d : Nat) (s : State) : Host.Outcome State Fault Refusal :=
  let b := s.live.cst.fanRec d
  let x := s.drv d
  if x.st = 1 ∧ x.since + u16 b 16 * 1000000 ≤ s.now then
    let success : Bool := match fnTach b with
      | none => true
      | some t =>
        let es := (s.chan t).edges.filter fun e => decide (s.now ≤ e + 500000000 ∧ x.since ≤ e)
        fLe (fnMinRpm b) (windowSpeed b es)
    if success then
      let t := fanTarget b x.req (fOfNat 100)
      .next ((s.setDrv d { (x.enter 3 s.now) with
        duty := t.1, attempt := 0, retry := false, minLim := t.2.1, maxLim := t.2.2.1, band := t.2.2.2, rpm := x.rpm }).writeFan d)
    else if x.attempt < 4 ∧ !x.retry then .next ((s.setDrv d { (x.enter 2 s.now) with duty := 0 }).writeFan d)
    else .next (s.fanStall d)
  else .next s

/-- RETRY_WAIT_END (R291): 5 s have passed. -/
def execRetryWaitEnd (d : Nat) (s : State) : Host.Outcome State Fault Refusal :=
  let x := s.drv d
  if x.st = 2 ∧ x.since + 5000000000 ≤ s.now then
    .next ((s.setDrv d { (x.enter 1 s.now) with attempt := x.attempt + 1, duty := fOfNat 100 }).writeFan d)
  else .next s

/-- TACH_LOSS (R291, R292): no edge has been seen for 2 s in RUN with d > 0. -/
def execTachLoss (d : Nat) (s : State) : Host.Outcome State Fault Refusal :=
  let b := s.live.cst.fanRec d
  let x := s.drv d
  if x.st = 3 ∧ (fnTach b).isSome ∧ fLt 0 x.duty ∧ x.seenAt + 2000000000 ≤ s.now then
    let s1 := s.setDrv d { (x.enter 5 s.now) with duty := f32 b 32, tachSeen := true, losses := satAdd 8 x.losses 1 }
    .next (((s1.modFan fun f => { f with tachSeen := true }).journal 13 (ev2 d 1) true).writeFan d)
  else .next s

/-- LOW_SPEED_REKICK (R291): a speed above 0 and below MIN_RPM for 5 s without interruption. -/
def execLowSpeedRekick (d : Nat) (s : State) : Host.Outcome State Fault Refusal :=
  let x := s.drv d
  if x.st = 3 ∧ x.lowSince.any (fun t => decide (t + 5000000000 ≤ s.now)) then
    .next (((s.setDrv d { (x.enter 1 s.now) with attempt := 1, retry := false, duty := fOfNat 100 }).journal 13 (ev2 d 3)).writeFan d)
  else .next s

/-- TACH_RECOVERY (R291): a speed at or above MIN_RPM for 1 s without interruption. -/
def execTachRecovery (d : Nat) (s : State) : Host.Outcome State Fault Refusal :=
  let b := s.live.cst.fanRec d
  let x := s.drv d
  if x.st = 5 ∧ x.okSince.any (fun t => decide (t + 1000000000 ≤ s.now)) then
    .next ((s.setDrv d { (x.enter 3 s.now) with duty := f32 b 32 }).journal 13 (ev2 d 2))
  else .next s

/-- STALL_RETRY (R291): STALL_RETRY_S have passed since entry and r > 0. -/
def execStallRetry (d : Nat) (s : State) : Host.Outcome State Fault Refusal :=
  let b := s.live.cst.fanRec d
  let x := s.drv d
  if x.st = 4 ∧ 0 < u16 b 18 ∧ x.since + u16 b 18 * 1000000000 ≤ s.now ∧ !single.isZero x.req.toNat then
    .next ((s.setDrv d { (x.enter 1 s.now) with attempt := 1, retry := true, duty := fOfNat 100 }).writeFan d)
  else .next s

/-- RESTART of a driver at its commit (R291, R293). -/
def State.restartFan (s : State) (src : Source) (d : Nat) : State :=
  let x := s.drv d
  if x.st = 4 then (s.setDrv d { (x.enter 1 s.now) with attempt := 1, retry := false, duty := fOfNat 100 }).writeFan d
  else s.werr 0x2414 src .state

/-! PWM periods (R276, R289). -/

/-- The driver of an output channel. -/
def Cst.fanOf (c : Cst) (n : Nat) : Option Nat := (List.range 32).find? fun d => c.fanRec d ≠ [] && u8 (c.fanRec d) 0 = n

/-- PWM_PERIOD_START: a new duty takes effect; every STRETCH_EVERY-th period of a stretched supply switch has an on-phase of
at least STRETCH_MS, the excess being taken from the next period; its second half is a measurement window. -/
def execPwmPeriodStart (n : Nat) (s : State) : Host.Outcome State Fault Refusal :=
  let b := s.chRec n
  if chType b ≠ 9 then .next s
  else
    let c := s.chan n
    let s1 := s.setChan n { c with duty := c.elec }
    match s.live.cst.fanOf n with
    | none => .next s1
    | some d =>
      let f := s.live.cst.fanRec d
      let x := s.drv d
      if chRange b = 1 ∧ u8 f 6 ≠ 0 ∧ fLt 0 c.elec ∧ fLt c.elec (fOfNat 100) then
        let period := u32 f 8 * 1000
        -- d × period in ns, rounded half to even
        let on := ((fValue c.elec).mul { m := period }).toFixed 0 / 100
        let on := on.toNat
        if u8 f 6 ≤ x.periods + 1 then
          let long := max on (u16 f 22 * 1000000)
          .next (s1.setDrv d { x with periods := 0, owed := long - on, window := some (s.now + long / 2, s.now + long) })
        else .next (s1.setDrv d { x with periods := x.periods + 1, owed := x.owed - min x.owed on })
      else .next s1

/-! Registers. -/

/-- A map of drivers. -/
def fanMap (k : Core) (f : Nat → Bool) : Word := pack ((List.range 32).map fun d => (d, 1, (k.cst.fanRec d ≠ [] && f d : Bool).toNat))

/-- The FAN_ registers at 0x2400. -/
def readFan (k : Core) (addr : Nat) : Word :=
  let x := k.fan
  let st := fun d => if k.cst.fanRec d = [] then 7 else (tget x.drivers d {}).st
  match addr with
  | 0x2400 => pack [(0, 1, (k.pwr.mode.loops && k.epc.casting).toNat), (1, 1, ((List.range 32).any fun d => st d = 4).toNat),
      (2, 1, ((List.range 32).any fun d => st d = 5).toNat), (3, 1, ((List.range 32).any fun d => st d = 6).toNat),
      (4, 1, x.stallSeen.toNat), (5, 1, x.tachSeen.toNat)]
  | 0x2404 => fanMap k fun _ => true
  | 0x2408 => fanMap k fun d => st d = 4
  | 0x240C => fanMap k fun d => st d = 5
  | _ =>
    if 0x2500 ≤ addr ∧ addr < 0x2700 then
      let d := (addr - 0x2500) / 0x10
      let b := k.cst.fanRec d
      let y := tget x.drivers d {}
      if b = [] then (if addr % 0x10 = 0 then 7 else 0)
      else match addr % 0x10 with
      | 0x0 => pack [(0, 3, y.st), (3, 3, y.attempt), (6, 1, (y.st = 1 || y.st = 2 || y.st = 4 || y.st = 5 || y.st = 6 : Bool).toNat),
          (7, 1, y.band.toNat), (8, 1, y.minLim.toNat), (9, 1, y.maxLim.toNat), (10, 1, y.tempFlt.toNat), (11, 1, y.ramp.toNat),
          (12, 1, y.stallSeen.toNat), (13, 1, y.tachSeen.toNat), (14, 1, (fnTach b).isNone.toNat), (15, 1, (y.retry && y.st = 1 : Bool).toNat)]
      | 0x4 => y.req
      | 0x8 => y.duty
      | _ => pack [(0, 16, min 65535 ((fValue y.rpm).toFixed 0).toNat), (16, 8, y.stalls), (24, 8, y.losses)]
    else 0

/-- A staged write of a FAN_ register at its commit. -/
def State.commitFan (s : State) (src : Source) (addr : Nat) (w : Word) : State :=
  match addr with
  | 0x2400 => s.modFan fun x => { x with stallSeen := x.stallSeen && !bit w 4, tachSeen := x.tachSeen && !bit w 5 }
  | 0x2410 => if bit w 0 then s.modFan fun x => { x with drivers := x.drivers.map fun p => (p.1, { p.2 with stalls := 0, losses := 0 }) } else s
  | 0x2414 => (List.range 32).foldl (fun s d => if bit w d then s.restartFan src d else s) s
  | _ =>
    if 0x2500 ≤ addr ∧ addr < 0x2700 ∧ addr % 0x10 = 0 then
      let d := (addr - 0x2500) / 0x10
      s.setDrv d { s.drv d with stallSeen := (s.drv d).stallSeen && !bit w 12, tachSeen := (s.drv d).tachSeen && !bit w 13 }
    else s

/-- The drivers at epoch 0 (R294): OFF where configured. -/
def State.configureFans (s : State) (warm : Bool) : State :=
  s.modFan fun x => { x with
    stallSeen := false, tachSeen := false
    drivers := ((List.range 32).filter fun d => s.live.cst.fanRec d ≠ []).map fun d =>
      let y := tget x.drivers d {}
      (d, { ({} : FanDrv) with st := 0, since := s.now, seenAt := s.now, rpm := if warm then y.rpm else 0
                               stalls := if warm then y.stalls else 0, losses := if warm then y.losses else 0 }) }

end Sys2Proof.Machine
end

