-- ==== Sys2Proof/Machine/Energy.lean ====
section
/-! DEFINITION. Energy accounting (spec/11): accumulators, electrical and heat metering, intervals, saving, clearing,
registers. -/

namespace Sys2Proof.Machine

open Sys2Proof

/-! Accumulators (R295, R296). -/

/-- An accumulator increased; 80 bits. -/
def Nrg.add (x : Nrg) (i n : Nat) : Nrg :=
  if n = 0 then x else { x with accs := tset x.accs i ((tget x.accs i 0 + n) % 2 ^ 80) }

/-- A signed quantity added to the accumulator of its sign: `pos` or `neg`. -/
def Nrg.addSigned (x : Nrg) (pos neg : Nat) (v : Int) : Nrg := if 0 < v then x.add pos v.natAbs else x.add neg v.natAbs

/-- The unit of an accumulator is configured (R322). -/
def Cst.accConfigured (c : Cst) (i : Nat) : Bool :=
  if i < 128 then i % 16 < 10 && c.groupRec (i / 16) ≠ [] else i < 384 && c.heatRec ((i - 128) / 4) ≠ []

/-! Intervals (R313 to R315). -/

/-- The length of a unit's interval in seconds (kind 1 group, 2 meter). -/
def Cst.intervalS (c : Cst) (kind unit : Nat) : Nat :=
  60 * (if kind = 1 then u16 (c.groupRec unit) 2 else u16 (c.heatRec unit) 6)

/-- A new interval at a second: `flags` already set at its opening. -/
def openInterval (len sec epoch flags : Nat) : Interval :=
  let st := if len = 0 then sec else sec / len * len
  { startS := st, endS := st + len, openEpoch := epoch, flags := flags }

/-- A unit's open interval, and a change of it. -/
def Nrg.interval (x : Nrg) (kind unit : Nat) : Option Interval :=
  if kind = 1 then (tget x.groups unit {}).iv else (tget x.heats unit {}).iv
def Nrg.setInterval (x : Nrg) (kind unit : Nat) (iv : Option Interval) : Nrg :=
  if kind = 1 then { x with groups := tmod x.groups unit {} fun m => { m with iv := iv } }
  else { x with heats := tmod x.heats unit {} fun m => { m with iv := iv } }

/-- The flags of a record: those kept during the interval, FAULT and REVERSAL (R315). -/
def Interval.recFlags (iv : Interval) (flags : Nat) : Nat :=
  iv.flags ||| flags ||| (if 0 < iv.faultNs / 1000000000 then 8 else 0) ||| (if 0 < iv.reversals then 16 else 0)

/-- An interval closes with flags; FAULT, REVERSAL and the flags kept during it complete them. -/
def State.closeInterval (s : State) (kind unit flags : Nat) : State :=
  match s.live.nrg.interval kind unit with
  | none => s
  | some iv =>
    let f := iv.recFlags flags
    s.modNrg fun x => { x with
      closedRecs := x.closedRecs ++ [{ seq := 0, kind := kind, unit := unit, runId := s.live.epc.runId
                                       closeEpoch := s.live.epc.epoch, iv := { iv with flags := f } }] }

/-- A unit's interval closed and the next one opened at the present calendar time. -/
def State.nextInterval (s : State) (kind unit flags openFlags : Nat) : State :=
  let s := s.closeInterval kind unit flags
  s.modNrg fun x => x.setInterval kind unit
    (some (openInterval (s.live.cst.intervalS kind unit) s.calSec s.live.epc.epoch openFlags))

/-- The units configured: kind and number. -/
def Cst.units (c : Cst) : List (Nat × Nat) :=
  (((List.range 8).filter fun g => c.groupRec g ≠ []).map fun g => (1, g))
  ++ (((List.range 64).filter fun m => c.heatRec m ≠ []).map fun m => (2, m))

/-- INTERVAL_CLOSE (R313): a boundary of the unit's intervals has passed. -/
def execIntervalClose (kind unit : Nat) (s : State) : Host.Outcome State Fault Refusal :=
  match s.live.nrg.interval kind unit with
  | some iv => if s.live.nrg.run ∧ iv.endS ≤ s.calSec then .next (s.nextInterval kind unit 0 0) else .next s
  | none => .next s

/-- R314: what a calendar step does to the open intervals: a forward step past a boundary closes them; after a backward step
the record carries CLOCK_STEP when its interval closes at the first boundary after the new time. -/
def State.stepIntervals (s : State) (old new : Nat) : State :=
  if !s.live.nrg.run then s
  else s.live.cst.units.foldl (fun s u =>
    match s.live.nrg.interval u.1 u.2 with
    | none => s
    | some iv =>
      if old < new then
        (if iv.endS ≤ new then s.nextInterval u.1 u.2 5 (if new % s.live.cst.intervalS u.1 u.2 = 0 ∧ s.calSub = 0 then 0 else 1) else s)
      else if new < old then
        let len := s.live.cst.intervalS u.1 u.2
        let next := if len = 0 then new else new / len * len + len
        s.modNrg fun x => x.setInterval u.1 u.2 (some { iv with flags := iv.flags ||| 4, endS := next })
      else s) s

/-! Electrical metering (R301 to R307). -/

/-- rms of a sum of squares in millionths over n samples (computed in binary64, rounded once; log entry 27). -/
def rmsOf (squares n : Nat) : Word :=
  BitVec.ofNat 32 (double.convert single (double.sqrt (double.ofRat false squares (n * 1000000) 0)))

/-- An element's sum with the no-load threshold applied (R302). -/
def creeped (creep : Word) (n : Nat) (vi : Int) (v : Int) : Int :=
  if !((fValue creep).mul { m := (n * 1000000 : Nat) }).le { m := vi.natAbs } then 0 else v

/-- Millionths of a volt-ampere sample as µWh, rounded half to even: / 16,000 / 3,600. -/
def microWh (v : Int) : Int := divHalfEven v (16000 * 3600)

/-- Power in kW of a sum over n samples. -/
def kiloWatt (v : Int) (n : Nat) : Word := fOfRat v (n * 1000000000)

/-- A period of a group: quantities, accumulation, reversal, neutral watch (R302 to R304), with the validity and the reference it
leaves. -/
def State.meterSums (s : State) (g : Nat) (p : PeriodSums) (valid noRef : Bool) : State :=
  let b := s.live.cst.groupRec g
  let m := tget s.live.nrg.groups g {}
  let ph := wiredPhases (u8 b 0)
  let e := fun k => if ph.contains k then creeped (f32 b 24) p.n (p.vi.getD k 0) (p.vi.getD k 0) else 0
  let q := fun k => if ph.contains k then creeped (f32 b 24) p.n (p.vi.getD k 0) (p.qi.getD k 0) else 0
  let et := e 0 + e 1 + e 2
  let qt := q 0 + q 1 + q 2
  let pk := kiloWatt et p.n
  -- R312 gives no formula for S: a free value; the power factor is computed from it (log entry 28)
  let sk := Config.freeWord s.freeCtr
  let vals : Table Word := [(0, pk), (1, kiloWatt qt p.n), (2, rmsOf (p.vv.getD 0 0) p.n), (3, rmsOf (p.vv.getD 1 0) p.n),
    (4, rmsOf (p.vv.getD 2 0) p.n), (5, rmsOf (p.ii.getD 0 0) p.n), (6, rmsOf (p.ii.getD 1 0) p.n), (7, rmsOf (p.ii.getD 2 0) p.n),
    (8, rmsOf (p.ii.getD 3 0) p.n), (9, fOfRat 16000 p.n), (10, fDiv pk sk), (11, kiloWatt (e 0) p.n), (12, kiloWatt (e 1) p.n),
    (13, kiloWatt (e 2) p.n), (14, sk)]
  let excess : Bool := fLt 0 (f32 b 16) && fLt (f32 b 16) (rmsOf p.residual p.n)
  let nb := if excess then m.neutralBad + 1 else 0
  let ng := if excess then 0 else m.neutralGood + 1
  let neutral : Bool := if 10 ≤ nb then true else if 10 ≤ ng then false else m.neutral
  let sign := if et = 0 then m.lastSign else some (decide (0 < et))
  let rev : Bool := et ≠ 0 && m.lastSign.isSome && m.lastSign ≠ sign
  let ns := p.n * 62500
  let iv := m.iv.map fun i => { i with
    meteredNs := i.meteredNs + ns
    fwd := i.fwd + (if 0 < et then (microWh et).natAbs else 0), rev := i.rev + (if et < 0 then (microWh et).natAbs else 0)
    aux1 := i.aux1 + (if 0 < qt then (microWh qt).natAbs else 0), aux2 := i.aux2 + (if qt < 0 then (microWh qt).natAbs else 0)
    faultNs := if valid then i.faultNs else i.faultNs + ns
    reversals := if rev then min 65535 (i.reversals + 1) else i.reversals
    firstRev := if rev ∧ i.firstRev.isNone then some s.live.epc.epoch else i.firstRev }
  let back : Nat := if m.refPhase = 0 then 0 else if p.vaValid then m.vaPeriods + 1 else 0
  let inputs := (List.range 4).map fun k =>
    let c := tget m.inputs k {}
    (k, { c with peak1 := p.peaks.getD k 0, peak2 := c.peak1 })
  let m' := { m with
    vals := vals, valid := valid, noRef := noRef, periodAt := s.now, neutral := neutral, neutralBad := nb, neutralGood := ng
    lastSign := sign, iv := iv, vaPeriods := if 50 ≤ back then 0 else back
    refPhase := if 50 ≤ back then 0 else m.refPhase, inputs := inputs }
  let s := { s with freeCtr := s.freeCtr + 1 }
  let s := if neutral && !m.neutral then s.journal 0 (ev2 8 g) true else s
  s.modNrg fun x =>
    let x := { x with groups := tset x.groups g m', neutralSeen := x.neutralSeen || (neutral && !m.neutral) }
    let x := (x.addSigned (16 * g) (16 * g + 1) (microWh et)).addSigned (16 * g + 2) (16 * g + 3) (microWh qt)
    ph.foldl (fun x k => x.addSigned (16 * g + 4 + 2 * k) (16 * g + 5 + 2 * k) (microWh (e k))) x

/-- A period that ends at a crossing, or `forced` after 320 samples with no phase crossing zero (R301, R304). -/
def State.meterPeriod (s : State) (g : Nat) (p : PeriodSums) (forced : Bool) : State :=
  s.meterSums g p (!forced && 45 * p.n ≤ 16000 && 16000 ≤ 65 * p.n) forced

/-- The group is configured and metered now. -/
def State.metering (s : State) (g : Nat) : Bool := s.live.nrg.run && s.live.cst.groupRec g ≠ []

/-- REFERENCE_PERIOD_END (R302, R303). -/
def execReferencePeriodEnd (g : Nat) (p : PeriodSums) (s : State) : Host.Outcome State Fault Refusal :=
  if s.metering g ∧ 0 < p.n then .next (s.meterPeriod g p false).watchGrid else .next s

/-- FORCED_PERIOD_CLOSE (R301): 320 samples with no phase crossing zero. -/
def execForcedPeriodClose (g : Nat) (p : PeriodSums) (s : State) : Host.Outcome State Fault Refusal :=
  if s.metering g ∧ p.n = 320 then .next (s.meterPeriod g p true).watchGrid else .next s

/-- REFERENCE_SWITCH (R301): the reference voltage has shown no crossing for 25 ms. -/
def execReferenceSwitch (g : Nat) (s : State) : Host.Outcome State Fault Refusal :=
  if s.metering g then
    .next (s.modNrg fun x => { x with groups := tmod x.groups g {} fun m => { m with refPhase := min 2 (m.refPhase + 1), vaPeriods := 0 } })
  else .next s

/-- R306: whether an input may move to the next higher gain. -/
def CurIn.mayRise (x : CurIn) (now : Nat) : Bool :=
  decide (x.changedAt + 1000000000 ≤ now) &&
    (if x.gain = 0 then decide (x.peak1 < 25000 ∧ x.peak2 < 25000)
     else x.gain = 1 && decide (x.peak1 < 6250 ∧ x.peak2 < 6250))

/-- GAIN_CHANGE (R306, R307): a current input (0 A to 3 N) moves up one gain at a zero crossing, or down to ×1 after a sample at
90 % of its range; the seam is counted, its samples are interpolated before they enter the sums of a period. -/
def execGainChange (g k : Nat) (up : Bool) (s : State) : Host.Outcome State Fault Refusal :=
  let b := s.live.cst.groupRec g
  let m := tget s.live.nrg.groups g {}
  let c := tget m.inputs k {}
  let ok : Bool := if up then c.mayRise s.now else c.gain ≠ 0
  if s.metering g ∧ u8 b 20 = 0 ∧ k < 4 ∧ ok then
    let c' := { c with gain := if up then c.gain + 1 else 0, changedAt := s.now }
    let m' := { m with inputs := tset m.inputs k c', seams := satAdd 16 m.seams 1
                       iv := m.iv.map fun i => { i with seams := i.seams + 1 } }
    .next (s.modNrg fun x => { x with groups := tset x.groups g m', seamSeen := true })
  else .next s

/-! Heat and cold metering (R308 to R311). -/

/-- A dyadic times 10^k over a divisor as an integer, rounded half to even. -/
def Dy.scaleRound (d : Dy) (num den : Nat) : Int :=
  if 0 ≤ d.e then divHalfEven (d.m * 2 ^ d.e.toNat * num) den else divHalfEven (d.m * num) (den * 2 ^ (-d.e).toNat)

/-- The volume of a sample in µL, exact before rounding: its dyadic value and its divisor. -/
def State.heatVolume (s : State) (b : Bytes) (x : Heat) (ns : Nat) : Dy × Nat :=
  let ch := s.chan (u8 b 1)
  if chType (s.chRec (u8 b 1)) = 5 then
    let n : Nat := (ch.count + 2 ^ 32 - x.lastCount) % 2 ^ 32
    let neg : Bool := u8 b 2 ≠ 0xFF && fLe (fOfRat 1 2) (s.chan (u8 b 2)).val
    let v := (fValue (f32 b 8)).mul { m := Int.ofNat (n * 1000000) }
    (if neg then { v with m := -v.m } else v, 1)
  else
    let q := if fLt (fAbs ch.val) (f32 b 20) then (0 : Word) else ch.val
    ((fValue q).mul { m := Int.ofNat ns }, 3600)

/-- One accumulation sample of a meter over `ns` (R309 to R311). -/
def State.heatSample (s : State) (m ns : Nat) : State :=
  let b := s.live.cst.heatRec m
  let x := tget s.live.nrg.heats m {}
  let faults := s.live.heatFaults b
  let code := faults.foldl max 0
  let flowOk : Bool := !(faults.contains 1 || faults.contains 2)
  let vol := s.heatVolume b x ns
  let dv : Int := if flowOk then vol.1.scaleRound 1 vol.2 else 0
  let d := double
  let thF := (s.chan (u8 b 3)).val
  let thR := (s.chan (u8 b 4)).val
  let f64 := fun (w : Word) => single.convert d w.toNat
  let p := f64 (f32 b 12)
  let hf := Config.enthalpy64 (f64 thF) p
  let hr := Config.enthalpy64 (f64 thR) p
  let rho := Config.density64 (f64 (if u8 b 5 = 0 then thF else thR)) p
  let dh := if u8 b 0 = 0 then d.sub hf hr else d.sub hr hf
  let v64 := d.ofRat false (if 0 ≤ vol.1.e then vol.1.m * 2 ^ vol.1.e.toNat else vol.1.m)
    (vol.2 * 1000000000 * (if 0 ≤ vol.1.e then 1 else 2 ^ (-vol.1.e).toNat)) 0
  -- kJ, then µWh
  let kj := d.mul (d.mul v64 rho) dh
  let dtLow : Bool := fLt (fAbs (fSub thF thR)) (f32 b 16)
  let counted : Bool := code = 0 && !dtLow
  let e : Int := if counted ∧ d.finite kj then (d.value kj).scaleRound 1000000000 3600 else 0
  let sec := d.ofRat false ns 1000000000 0
  let power := if counted then BitVec.ofNat 32 (d.convert single (d.div kj sec)) else 0
  let flow := if flowOk then BitVec.ofNat 32 (d.convert single (d.mul (d.div v64 sec) (d.ofNat 3600))) else 0
  let dth := d.sub (f64 thF) (f64 thR)
  let coeff := if thF = thR then 0
    else BitVec.ofNat 32 (d.convert single (d.div (d.div (d.mul rho (d.sub hf hr)) dth) (d.ofNat 3600)))
  let flowing : Bool := flowOk && vol.1.m ≠ 0
  let sign := if flowing then some (decide (0 < vol.1.m)) else x.lastSign
  let rev : Bool := flowing && x.lastSign.isSome && x.lastSign ≠ sign
  let iv := x.iv.map fun i => { i with
    meteredNs := i.meteredNs + ns
    fwd := i.fwd + (if 0 < e then e.natAbs else 0), rev := i.rev + (if e < 0 then e.natAbs else 0)
    aux1 := i.aux1 + (if 0 < dv then dv.natAbs else 0), aux2 := i.aux2 + (if dv < 0 then dv.natAbs else 0)
    faultNs := if code = 0 then i.faultNs else i.faultNs + ns
    reversals := if rev then min 65535 (i.reversals + 1) else i.reversals
    firstRev := if rev ∧ i.firstRev.isNone then some s.live.epc.epoch else i.firstRev }
  let x' := { x with
    lastCount := (s.chan (u8 b 1)).count, lastAt := some s.now
    samples := (x.samples ++ [(power, flow, ns)]).drop (x.samples.length + 1 - 10)
    thF := thF, thR := thR, coeff := coeff, dtLow := dtLow
    reverse := sign = some false, lastSign := sign, reversals := if rev then satAdd 16 x.reversals 1 else x.reversals, iv := iv }
  s.modNrg fun y =>
    let y := { y with heats := tset y.heats m x' }
    (y.addSigned (128 + 4 * m) (129 + 4 * m) e).addSigned (130 + 4 * m) (131 + 4 * m) dv

/-- The number of the present loop tick (R196); where the loop engine does not run, of the tick that the epoch has reached (R32). -/
def State.gridTick (s : State) : Nat :=
  if s.loopsRun then s.live.lpe.tick
  else s.live.epc.epoch * s.live.epc.periodMs + (s.now - (s.live.epc.boundaryAt + 200000)) / 1000000

/-- A meter that is due a sample: at a loop tick whose number is a multiple of 100, once (R309). -/
def State.heatDue (s : State) (m : Nat) : Bool :=
  s.live.nrg.run && s.live.cst.heatRec m ≠ [] && s.gridTick % 100 = 0 && (tget s.live.nrg.heats m {}).lastTick ≠ some s.gridTick

/-- A sample on the 100 ms grid (R309). -/
def State.gridSample (s : State) (m : Nat) : State :=
  (s.heatSample m 100000000).modNrg fun x => { x with
    heats := tmod x.heats m {} fun h => { h with lastTick := some s.gridTick } }

/-- HEAT_SAMPLE (R309): a meter's evaluation at a loop tick whose number is a multiple of 100. -/
def execHeatSample (m : Nat) (s : State) : Host.Outcome State Fault Refusal :=
  if s.heatDue m then .next (s.gridSample m) else .next s

/-! Saving (R316 to R321). -/

/-- The newest valid copy. -/
def Nrg.newest (x : Nrg) : Option AccFile :=
  match x.slot0, x.slot1 with
  | some a, some b => if a.seq < b.seq then some b else some a
  | some a, none => some a
  | none, y => y

/-- The accumulator file of the moment (R316). -/
def State.accFile (s : State) (closed : Bool) : AccFile :=
  let x := s.live.nrg
  { accs := x.accs
    increase := x.accs.map fun p => (p.1, p.2 - tget x.capturedAccs p.1 0)
    groups := x.groups.filterMap fun p => p.2.iv.map fun i => (p.1, i)
    meters := x.heats.filterMap fun p => p.2.iv.map fun i => (p.1, i)
    runId := s.live.epc.runId, epoch := s.live.epc.epoch, counts := s.live.clk.counts
    seq := (x.newest.map AccFile.seq).getD 0 + 1, closed := closed
    spacingNs := s.now - x.capturedAt, periodMs := s.live.epc.periodMs }

/-- The slot a copy goes to: the one not holding the newest copy, or the one still in service. -/
def Nrg.saveSlot (x : Nrg) : Nat :=
  match x.single with
  | some k => k
  | none =>
    match x.slot0, x.slot1 with
    | some a, some b => if a.seq < b.seq then 0 else 1
    | some _, none => 1
    | none, _ => 0

/-- Interval records that have closed go into the ring of 1,280 with the next IREC_SEQ (R315, R317). -/
def Nrg.writeRecs (x : Nrg) : Nrg :=
  let recs := x.closedRecs.zipIdx.map fun p => { p.1 with seq := x.nextSeq + p.2 }
  let ring := x.ring ++ recs
  { x with ring := ring.drop (ring.length - 1280), nextSeq := x.nextSeq + recs.length, closedRecs := [] }

/-- R319: pages that failed readback: a spare for each, and with none left the slot is abandoned. -/
def State.failPages (s : State) (fails : Nat) : State :=
  (List.range fails).foldl (fun s _ =>
    let x := s.live.nrg
    let s := (s.modNrg fun x => { x with saveFail := sat32 x.saveFail, failSeen := true }).journal 7
      (leBytes 1 2 ++ leBytes 1 x.spares ++ leBytes 1 0)
    if x.spares = 0 then
      (if x.single.isNone then s.journal 0 (ev1 9) true else s).modNrg fun y => { y with single := some (y.single.getD (1 - y.saveSlot)) }
    else s.modNrg fun y => { y with spares := y.spares - 1 }) s

/-- A save (R317, R318): `us` its duration, `fails` the readback failures in it. -/
def State.save (s : State) (closed : Bool) (us fails : Nat) : State :=
  let f := s.accFile closed
  let s := s.failPages fails
  s.modNrg fun x =>
    let k := x.saveSlot
    { x.writeRecs with
      slot0 := if k = 0 then some f else x.slot0, slot1 := if k = 1 then some f else x.slot1
      capturedAt := s.now, capturedAccs := x.accs, saveEpoch := f.epoch, saveDue := false
      lastUs := min us 4095, maxUs := max x.maxUs (min us 4095) }

/-- PERIODIC_CAPTURE (R317): at the first boundary 500 ms or more after the last capture. -/
def execPeriodicCapture (us fails : Nat) (s : State) : Host.Outcome State Fault Refusal :=
  if s.live.nrg.run ∧ s.atBoundary ∧ (s.live.nrg.saveDue ∨ s.live.nrg.capturedAt + 500000000 ≤ s.now) then .next (s.save false us fails)
  else .next s

/-- The sums of a period that a power-fail warning or a reset ends (R318): no command states them, so they are free values. -/
def freeSums (n i : Nat) : PeriodSums :=
  let f := fun k => Config.freeInt (i + k)
  { n := n, vi := [f 0, f 1, f 2], qi := [f 3, f 4, f 5], vv := [(f 6).natAbs, (f 7).natAbs, (f 8).natAbs]
    ii := [(f 9).natAbs, (f 10).natAbs, (f 11).natAbs, (f 12).natAbs], residual := (f 13).natAbs
    peaks := [(f 14).natAbs, (f 15).natAbs, (f 16).natAbs, (f 17).natAbs], vaValid := false }

/-- The open period of a group ended at this instant and accumulated (R318): as many samples as have passed since it began. -/
def State.closePeriod (s : State) (g : Nat) : State :=
  let m := tget s.live.nrg.groups g {}
  let n := (s.now - m.periodAt) / 62500
  if n = 0 then s else State.meterSums { s with freeCtr := s.freeCtr + 18 } g (freeSums n s.freeCtr) m.valid m.noRef

/-- R318: open periods and samples ended and accumulated, a copy with CLOSED written within 1.2 ms (how long it takes is a free
value), accumulation stopped. -/
def State.closeMetering (s : State) : State :=
  if !s.live.nrg.run then s
  else
    let s := ((List.range 8).filter fun g => s.live.cst.groupRec g ≠ []).foldl State.closePeriod s
    let s := ((List.range 64).filter fun m => s.live.cst.heatRec m ≠ []).foldl (fun s m =>
      s.heatSample m (s.now - ((tget s.live.nrg.heats m {}).lastAt.getD s.now))) s
    let s := State.save { s with freeCtr := s.freeCtr + 1 } true (min 1200 (Config.freeInt s.freeCtr).natAbs) 0
    s.modNrg fun x => { x with run := false }

/-- R321: the unsaved interval of a copy without CLOSED, from the supply loss stamp; its epochs are those of the lost run. -/
def unsavedOf (f : AccFile) (loss : Option Nat) : Unsaved :=
  let usable := loss.filter fun t => decide (f.counts ≤ t)
  let raw := match usable with
    | some t => (t - f.counts) * 1000 / 32768
    | none => f.spacingNs / 1000000
  let ms := min raw 1000
  { startEpoch := f.epoch, endEpoch := f.epoch + (if f.periodMs = 0 then 0 else (ms + f.periodMs - 1) / f.periodMs), runId := f.runId, ms := ms
    timeS := f.counts / 32768, noTime := usable.isNone, clamped := decide (1000 < raw) }

/-- R321: an estimate: the stored increase times the duration over the capture spacing, rounded to the unit. -/
def AccFile.estimate (f : AccFile) (ms increase : Nat) : Nat :=
  if f.spacingNs = 0 then 0 else (divHalfEven ((increase * ms * 1000000 : Nat) : Int) f.spacingNs).toNat

/-- R321: the accumulators and interval totals restored before epoch 0. -/
def State.restoreMetering (s : State) : State :=
  match s.live.nrg.newest with
  | none =>
    (s.modNrg fun x => { x with accs := [], framInit := true }).journal 26 (ev1 0)
  | some f =>
    let s := s.modNrg fun x => { x with
      accs := f.accs, framInit := false, capturedAccs := f.accs, saveEpoch := f.epoch }
    if f.closed then s
    else
      let u := unsavedOf f s.live.clk.loss
      let est := f.increase.map fun p => (p.1, f.estimate u.ms p.2)
      (s.modNrg fun x => { x with unsaved := some u, estimates := est }).journal 16 (leBytes 8 u.startEpoch ++ leBytes 4 u.ms)

/-- Intervals open at the pour of epoch 0 (R298, R313, R315): a run that begins inside an interval gives GAP and PARTIAL; the part
metered by the run before gives a record with PARTIAL. -/
def State.startMetering (s : State) : State :=
  let x := s.live.nrg
  let old := x.newest
  let s := s.modNrg fun y => { y with
    run := true, capturedAt := s.now
    groups := (List.range 8).filterMap fun g => if s.live.cst.groupRec g = [] then none else
      some (g, { seams := (tget x.groups g {}).seams, periodAt := s.now })
    heats := (List.range 64).filterMap fun m => if s.live.cst.heatRec m = [] then none else
      some (m, { lastCount := (s.chan (u8 (s.live.cst.heatRec m) 1)).count, lastAt := some s.now }) }
  -- an interval that the copy left open and that did not get its record
  let s := match old with
    | some f =>
        let uns := fun (i : Interval) => if !f.closed ∧ i.startS ≤ f.counts / 32768 ∧ f.counts / 32768 < i.endS then 32 else 0
        let rec_ := fun kind (p : Nat × Interval) => ({ seq := 0, kind := kind, unit := p.1, runId := f.runId, closeEpoch := f.epoch
                                                        iv := { p.2 with flags := p.2.recFlags (1 ||| uns p.2) } } : IRec)
        s.modNrg fun y => { y with closedRecs := y.closedRecs ++ f.groups.map (rec_ 1) ++ f.meters.map (rec_ 2) }
    | none => s
  s.live.cst.units.foldl (fun s u =>
    let iv := openInterval (s.live.cst.intervalS u.1 u.2) s.calSec s.live.epc.epoch 0
    let gap := if iv.startS < s.calSec ∨ 0 < s.calSub then 65 else 0
    s.modNrg fun y => y.setInterval u.1 u.2 (some { iv with flags := gap })) s

/-! Clearing (R323). -/

/-- The accumulators of a target: those the table of R295 gives the group or the meter, or all 384 that the device keeps. -/
def clearTargets (target unit : Nat) : List Nat :=
  if target = 0 then (List.range 10).map fun k => 16 * unit + k
  else if target = 1 then (List.range 4).map fun k => 128 + 4 * unit + k
  else List.range 384

/-- A clear accepted: values journalled and set to 0, open intervals closed with CLEARED, the generation counts, a save follows. -/
def State.clearAccs (s : State) (target unit : Nat) : State :=
  let s := (clearTargets target unit).foldl (fun s i =>
    (s.journal 15 (leBytes 2 i ++ leBytes 10 (tget s.live.nrg.accs i 0))).modNrg fun x => { x with accs := tdel x.accs i }) s
  let s := s.live.cst.units.foldl (fun s u =>
    if target = 2 ∨ (target = 0 ∧ u = (1, unit)) ∨ (target = 1 ∧ u = (2, unit)) then s.nextInterval u.1 u.2 3 1 else s) s
  s.modNrg fun x => { x with clearGen := (x.clearGen + 1) % 65536, clearedSeen := true, saveDue := true }

/-- A clear is accepted by its fields (R323): TARGET, UNIT and CONFIRM. -/
def Nrg.clearOk (x : Nrg) (w : Word) : Bool :=
  field w 1 0 ≠ 3 && (field w 1 0 ≠ 0 || field w 7 2 < 8) && field w 31 16 = (x.clearGen + 1) % 65536

/-- The word of a clear. -/
def clearWord (target unit confirm : Nat) : Word := pack [(0, 2, target), (2, 6, unit), (16, 16, confirm)]

/-! Registers. -/

/-- The 96 bytes of an interval record (R315). -/
def IRec.bytes (r : IRec) : Bytes :=
  let i := r.iv
  let b := leBytes 4 r.seq ++ leBytes 1 r.kind ++ leBytes 1 r.unit ++ leBytes 2 i.flags ++ leBytes 4 r.runId.toNat
    ++ leBytes 4 (i.meteredNs / 1000000) ++ leBytes 8 i.startS ++ leBytes 8 i.openEpoch ++ leBytes 8 r.closeEpoch
    ++ leBytes 8 i.fwd ++ leBytes 8 i.rev ++ leBytes 8 i.aux1 ++ leBytes 8 i.aux2
    ++ leBytes 8 (i.firstRev.getD (2 ^ 64 - 1)) ++ leBytes 2 i.reversals ++ leBytes 2 (min 65535 (i.faultNs / 1000000000))
    ++ leBytes 4 i.seams ++ leBytes 4 0
  b ++ leBytes 4 (crc32 b)

/-- IREC_SEQ of the oldest and newest record in the ring. -/
def Nrg.firstSeq (x : Nrg) : Nat := match x.ring with
  | r :: _ => r.seq
  | [] => x.nextSeq
def Nrg.lastSeq (x : Nrg) : Nat := match x.ring.getLast? with
  | some r => r.seq
  | none => x.nextSeq - 1

/-- The group registers at 0x2900. -/
def readGroup (k : Core) (g r : Nat) : Word :=
  let m := tget k.nrg.groups g {}
  let gain := fun i => (tget m.inputs i {}).gain
  let mode := u8 (k.cst.groupRec g) 20
  let gn := fun i => if mode = 0 then gain i else mode - 1
  -- the order of the registers against the codes of R312
  let order := [2, 3, 4, 5, 6, 7, 8, 9, 0, 1, 14, 10, 11, 12, 13]
  if k.cst.groupRec g = [] then 0
  else if r < 15 then tget m.vals (order.getD r 0) 0
  else pack [(0, 1, 1), (1, 1, m.valid.toNat), (2, 1, m.noRef.toNat), (3, 2, m.refPhase), (5, 2, gn 0), (7, 2, gn 1), (9, 2, gn 2),
    (11, 2, gn 3), (13, 1, m.neutral.toNat), (16, 16, m.seams)]

/-- The heat meter registers at 0x2E00. -/
def readHeat (k : Core) (m r : Nat) : Word :=
  let x := tget k.nrg.heats m {}
  if k.cst.heatRec m = [] then 0
  else if r = 4 then x.quantity 0
  else pack [(0, 1, 1), (1, 1, (k.heatValid m).toNat), (2, 3, k.heatCode m), (5, 1, x.reverse.toNat), (6, 1, x.dtLow.toNat),
    (16, 16, x.reversals)]

/-- The NRG_ registers at 0x2800. -/
def readNrg (k : Core) (addr : Nat) : Word :=
  let x := k.nrg
  let u := x.unsaved.getD {}
  match addr with
  | 0x2800 => pack [(0, 1, x.run.toNat), (1, 1, x.unsaved.isSome.toNat), (2, 1, x.framInit.toNat), (3, 1, x.single.isSome.toNat),
      (4, 1, x.seamSeen.toNat), (5, 1, x.neutralSeen.toNat), (6, 1, x.failSeen.toNat), (7, 1, x.clearedSeen.toNat)]
  | 0x2804 => pack (((List.range 8).map fun g => (g, 1, (k.cst.groupRec g ≠ [] : Bool).toNat))
      ++ [(8, 7, ((List.range 64).filter fun m => k.cst.heatRec m ≠ []).length)])
  | 0x2808 => pack ((List.range 32).map fun m => (m, 1, (k.cst.heatRec m ≠ [] : Bool).toNat))
  | 0x280C => pack ((List.range 32).map fun m => (m, 1, (k.cst.heatRec (32 + m) ≠ [] : Bool).toNat))
  | 0x2810 => word x.clearGen
  | 0x281C => pack [(0, 12, x.lastUs), (12, 12, x.maxUs), (24, 5, x.spares)]
  | 0x2820 => word x.saveFail
  | 0x2824 => pack [(0, 9, x.accBase), (9, 1, x.accBank.toNat)]
  | 0x2828 => lo32 x.saveEpoch
  | 0x282C => hi32 x.saveEpoch
  | 0x2B00 => word x.firstSeq
  | 0x2B04 => word x.lastSeq
  | 0x2B08 => word x.irecSel
  | 0x2B70 => word x.hmSel
  | 0x2B74 => if k.cst.heatRec x.hmSel = [] then 0 else (tget x.heats x.hmSel {}).quantity 1
  | 0x2B78 => if k.cst.heatRec x.hmSel = [] then 0 else (tget x.heats x.hmSel {}).quantity 2
  | 0x2B7C => if k.cst.heatRec x.hmSel = [] then 0 else (tget x.heats x.hmSel {}).quantity 3
  | 0x2B80 => if k.cst.heatRec x.hmSel = [] then 0 else (tget x.heats x.hmSel {}).quantity 5
  | 0x2BC0 => pack [(0, 1, x.unsaved.isSome.toNat), (1, 1, u.noTime.toNat), (2, 1, u.clamped.toNat)]
  | 0x2BC4 => lo32 u.startEpoch
  | 0x2BC8 => hi32 u.startEpoch
  | 0x2BCC => lo32 u.endEpoch
  | 0x2BD0 => hi32 u.endEpoch
  | 0x2BD4 => u.runId
  | 0x2BD8 => word u.ms
  | 0x2BDC => lo32 u.timeS
  | 0x2BE0 => hi32 u.timeS
  | _ =>
    if 0x2900 ≤ addr ∧ addr < 0x2B00 then readGroup k ((addr - 0x2900) / 0x40) ((addr - 0x2900) % 0x40 / 4)
    else if 0x2B10 ≤ addr ∧ addr < 0x2B70 then
      match x.ring.find? fun r => r.seq = x.irecSel with
      | some r => wordAt r.bytes ((addr - 0x2B10) / 4)
      | none => 0
    else if 0x2C00 ≤ addr ∧ addr < 0x2E00 then
      let i := x.accBase + (addr - 0x2C00) / 0x10
      let v := if 384 ≤ i then 0 else if x.accBank then tget x.estimates i 0 else tget x.accs i 0
      match addr % 0x10 with
      | 0x0 => word v
      | 0x4 => word (v / 2 ^ 32)
      | 0x8 => pack [(0, 16, v / 2 ^ 64)]
      | _ => pack [(0, 1, (k.cst.accConfigured i).toNat), (1, 1, (k.cst.accConfigured i &&
          (if i < 128 then !(tget x.groups (i / 16) {}).valid else !k.heatValid ((i - 128) / 4))).toNat)]
    else if 0x2E00 ≤ addr then readHeat k ((addr - 0x2E00) / 8) (addr % 8)
    else 0

/-- A staged write of an NRG_ register is accepted by value (R39, R323). A standby does not check CONFIRM. -/
def State.checkNrg (s : State) (addr : Nat) (w : Word) : Bool :=
  if addr = 0x2814 then s.live.nrg.clearOk w else if addr = 0x2824 then field w 8 0 < 384 else true

/-- A staged write of an NRG_ register at its commit. -/
def State.commitNrg (s : State) (addr : Nat) (w : Word) : State :=
  match addr with
  | 0x2800 => s.modNrg fun x => { x with
      seamSeen := x.seamSeen && !bit w 4, neutralSeen := x.neutralSeen && !bit w 5, failSeen := x.failSeen && !bit w 6
      clearedSeen := x.clearedSeen && !bit w 7 }
  | 0x2814 => s.clearAccs (field w 1 0) (field w 7 2)
  | 0x2818 =>
    let s1 := if bit w 0 then s.modNrg fun x => { x with
      saveFail := 0, maxUs := 0, groups := x.groups.map fun p => (p.1, { p.2 with seams := 0 }) } else s
    if bit w 1 then s1.modNrg fun x => { x with unsaved := none } else s1
  | 0x2824 => s.modNrg fun x => { x with accBase := field w 8 0, accBank := bit w 9 }
  | 0x2B08 => s.modNrg fun x => { x with irecSel := w.toNat }
  | 0x2B70 => s.modNrg fun x => { x with hmSel := field w 5 0 }
  | _ => s

end Sys2Proof.Machine
end

