-- ==== Sys2Proof/Machine/Claim.lean ====
section
/-! DEFINITION. The claim (spec/12): roles and codes, the claim gate, the kill line, the health word. -/

namespace Sys2Proof.Machine

open Sys2Proof

/-- Role B (R325, R475), and the codes of a role (R326). -/
def Core.roleB (k : Core) : Bool := k.pwr.strapCode.testBit 0
def Core.activeCode (k : Core) : Nat := if k.roleB then 4 else 5
def Core.readyCode (k : Core) : Nat := if k.roleB then 1 else 2

/-- Codes of an active unit, a ready standby. -/
def isActiveCode (c : Nat) : Bool := c = 4 || c = 5
def isReadyCode (c : Nat) : Bool := c = 1 || c = 2

/-- R328, R329: the gate closes at once when the comparison fails, and stays closed under KILL_IN; that it may open is noted
with the instant from which the comparison has held (GATE_OPEN). -/
def Par.settleGate (p : Par) (now : Nat) : Par :=
  if p.killIn then { p with gate := false, compareSince := none, keepGate := false }
  else if p.pcode < p.code then { p with compareSince := some (p.compareSince.getD now), keepGate := false }
  else if p.keepGate ∧ p.pcode = 0 then { p with compareSince := none }
  else { p with gate := false, compareSince := none, keepGate := false }

/-- KILL_OUT released (R348), journalled. -/
def State.releaseKill (s : State) : State :=
  if s.live.par.killOut then (s.journal 29 (ev1 3)).modPar fun p => { p with killOut := false } else s

/-- KILL_OUT asserted (R346, R347); never with PAIR_MODE 0 (R330). -/
def State.assertKill (s : State) : State :=
  if s.live.par.killOut ∨ s.live.cst.pairInUse = 0 then s
  else (s.journal 29 (ev1 2)).modPar fun p => { p with killOut := true, killOutAt := s.now }

/-- The own code changes: the gate follows, KILL_OUT is asserted only under SEIZE or ACTIVE_x, an injection needs the claim. -/
def State.setClaim (s : State) (code : Nat) : State :=
  let s := s.modPar fun p => Par.settleGate { p with code := code, keepGate := false } s.now
  (if isActiveCode code || code = 7 then s else s.releaseKill).checkInjection

/-- R329: the code falls to NONE by a reset or the watchdog: the gate keeps its state while the partner shows NONE. -/
def State.dropClaim (s : State) : State :=
  let s := s.modPar fun p => Par.settleGate { p with code := 0, keepGate := p.gate } s.now
  s.releaseKill.checkInjection

/-- The claim generation and NCLAIM (R332). -/
def Par.nclaim (p : Par) : Nat := (p.gen % 2 ^ 29) * 8 + p.code
def Par.raise (p : Par) : Par := { p with gen := max p.gen (p.partner.nclaim / 8) + 1 }

/-! Health (R361). -/

/-- The health word. -/
def Core.health (k : Core) : Nat :=
  let b := fun (i : Nat) (c : Bool) => if c then 2 ^ i else 0
  b 0 k.par.loopKat + b 1 k.par.logicKat + b 2 k.lgc.halted + b 3 k.par.sramUe + b 4 k.par.gateTest
    + b 5 (k.fch.groups.any fun g => g.2.noSlice) + b 6 k.fch.vfldLow + b 7 k.sys.reserveOsc + b 8 k.epc.dpAbsent
    + b 9 (k.slv.code = 4 && k.slv.cause = 4) + b 10 k.nrg.single.isSome

/-- The classes of a health word: critical bits 0 to 7, planning bits 8 and 9. -/
def critical (h : Nat) : Bool := h % 256 ≠ 0
def planning (h : Nat) : Bool := h / 256 % 4 ≠ 0

/-- PREFERRED, CMP_TICKS, CMP_EPOCHS, HOLDOFF_S, WAIT_MS, LGC_TOL_PM of R362. -/
def Cst.preferredB (c : Cst) : Bool := u8 c.pairGlobal 0 = 1
def Cst.cmpTicks (c : Cst) : Nat := u8 c.pairGlobal 1
def Cst.cmpEpochs (c : Cst) : Nat := u8 c.pairGlobal 2
def Cst.holdoffS (c : Cst) : Nat := u16 c.pairGlobal 4
def Cst.waitMs (c : Cst) : Nat := u16 c.pairGlobal 6
def Cst.lgcTolPm (c : Cst) : Nat := u16 c.pairGlobal 8

/-- The module is single or holds the claim (R331, R333, R494). -/
def State.holdsClaim (s : State) : Bool := s.live.cst.pairInUse = 0 || !s.live.epc.casting || s.live.par.gate

/-- The module counts as ACTIVE in the sense of R45, R47 and R48 (R331): a single module always, one of a pair while it holds the claim
in any mode but SAFEHOLD. -/
def State.isActive (s : State) : Bool :=
  s.holdsClaim && (s.live.cst.pairInUse = 0 || !s.live.epc.casting || decide (s.live.pwr.mode ≠ .safehold))

/-- The coupling protocol version in use (PAR_VER, R354): that of the running firmware; major 1 in PAIR_MODE 2. -/
def Core.cplMinor (k : Core) : Nat := k.upd.cplVer % 256
def Core.cplMajor (k : Core) : Nat := if k.cst.pairInUse = 2 then 1 else k.upd.cplVer / 256 % 256

end Sys2Proof.Machine
end

