-- ==== Sys2Proof/Machine/Modes.lean ====
section
/-! DEFINITION. The operating modes (spec/17, R489 to R496): what entering and leaving a mode does, SAFEHOLD, the run mode. -/

namespace Sys2Proof.Machine

open Sys2Proof

/-- The casting configures an optimiser, available or not (R88, R181). -/
def Cst.planned (c : Cst) : Bool := decide (0 < c.scenarios) && !c.legacy

/-- The run mode (R493); `comm` admits COMMISSION. -/
def State.runMode (s : State) (comm : Bool) : Mode :=
  if comm && s.live.pwr.startCommission then .commission
  else if s.live.cst.planned && s.live.pln.causes ≠ 0 then .degraded
  else .active

/-- Hand ends on every slot and every channel (R214, R277). -/
def State.handEnds (s : State) : State :=
  let s := s.modLpe Lpe.autoAll
  s.live.fch.chans.foldl (fun s p => if p.2.hand then s.setHand p.1 false else s) s

/-- R492: a window running at an entry into a mode without the optimiser ends at once. -/
def State.abandonWindow (s : State) : State :=
  let s := match s.live.slv.run with
    | some r => (s.abortFlight.modSlv fun x => { x with run := none, phase := 0 }).windowEnds r
    | none => s
  s.modAsm fun a => { a with busy := false, cycle := none, todo := [] }

/-- A mode entered, with what leaving the old one does. -/
def State.switchMode (s : State) (m : Mode) : State :=
  let old := s.live.pwr.mode
  if old = m then s
  else
    let s := s.enterMode m
    let s := if old = .commission then s.handEnds.calEnds else s
    let s := if old.optimises && !m.optimises then s.abandonWindow else s
    s.checkInjection

/-- R489, R490: an output in SAFEHOLD. -/
def State.safeOut (s : State) (n : Nat) : State :=
  let b := s.chRec n
  if !chIsOutput b then s
  else
    let x := { s.chan n with safe := true, hand := false, hiz := false }
    match s.live.cst.safeCh n with
    | none => s.setChan n { x with hiz := true }
    | some (1, v) => s.setChan n { x with applied := v, elec := elecOf b v }
    | some _ => s.setChan n x

/-- Entry into SAFEHOLD with a cause of PWR_MODE.SAFE_CAUSE: the profile takes effect, the claim code is SAFE when the module
held the claim with a loaded casting and NONE otherwise (R330, R339), FORCE_N is released (R487). -/
def State.safehold (s : State) (cause : Nat) : State :=
  let held : Bool := s.live.epc.casting && (s.live.cst.pairInUse = 0 || s.live.par.gate) && !s.live.par.wdFired
  let s := (s.switchMode .safehold).modPwr fun p => { p with safeCause := cause }
  let s := s.handEnds
  let s := if s.live.fch.configured then (List.range 96).foldl State.safeOut s else s
  let s := if s.live.par.wdFired then s else s.setClaim (if held then 3 else 0)
  s.releaseKill.modLgc fun x => { x with forceN := false }

/-! The end of an update (R509, R516, R522), which several chapters cause. -/

/-- The bank of UPD registers of a source (R505). -/
def Upd.bank (u : Upd) : Source → UpdBank
  | .yml => u.bankYml
  | .dbg => u.bankDbg
  | _ => u.bankYra

/-- A bank changed. -/
def Upd.setBank (u : Upd) (src : Source) (f : UpdBank → UpdBank) : Upd :=
  match src with
  | .yml => { u with bankYml := f u.bankYml }
  | .dbg => { u with bankDbg := f u.bankDbg }
  | _ => { u with bankYra := f u.bankYra }

/-- What UPD_STATUS shows of the lock: stage, holder, role, kind, version. -/
def Upd.shown (u : Upd) : Nat × Nat × Nat × Nat × Nat :=
  match u.lock with
  | some l => (l.stage, srcCode l.src, roleCode l.role, l.kind, l.version)
  | none => (if u.trial.isSome then 6 else 0, 0, 0, 0, 0)

/-- An answer to a source: the result with the holder, its role, the kind, the stage and the version held now (R507). -/
def State.updReply (s : State) (src : Source) (result : Nat) : State :=
  let h := s.live.upd.shown
  s.modUpd fun u => u.setBank src fun b =>
    { b with result := result, stage := h.1, holder := h.2.1, role := h.2.2.1, kind := h.2.2.2.1, version := h.2.2.2.2 }

/-- An update ends with a result: the lock is free, LAST and the holder's reply show it, the event is journalled (code 22). -/
def State.endUpdate (s : State) (result : Nat) : State :=
  match s.live.upd.lock with
  | none => s
  | some l =>
    let s := s.journal 22 (ev1 result ++ ev1 s.live.upd.detailComp ++ leBytes 4 l.version)
    (s.modUpd fun u => { u with lock := none, last := result }).updReply l.src result

/-- Entry into ISLAND (`why` 1) or TAKING (2): below INSTALLING the update is aborted, from INSTALLING on its swap point is held. -/
def State.holdUpdate (s : State) (why : Nat) : State :=
  match s.live.upd.lock with
  | none => s
  | some l =>
    if l.stage < 4 then s.endUpdate 16
    else s.modUpd fun u => { u with lock := some { l with swapHeld := true, hold := max l.hold why } }

/-- The hold of ISLAND or of TAKING ends; that of HOLD_SWAP (R514) goes on. -/
def State.unholdUpdate (s : State) (why : Nat) : State :=
  s.modUpd fun u => { u with lock := u.lock.map fun l =>
    if l.hold = why then { l with swapHeld := (u8 l.header 76).testBit 1, hold := 0 } else l }

end Sys2Proof.Machine
end

