-- ==== Sys2Proof/Machine/Pair.lean ====
section
/-! DEFINITION. The redundant pair (spec/12): pair states, takeover, handover, frames that need no register access, comparison,
self-test, registers. -/

namespace Sys2Proof.Machine

open Sys2Proof

/-- The module runs in a pair since epoch 0 (R339): its pair state can change; it is frozen in SAFEHOLD. -/
def State.paired (s : State) : Bool :=
  s.live.par.pstate ≠ 0 && s.live.epc.casting && s.live.pwr.mode ≠ .safehold

/-- The coupling link runs (R337, R23): pairing enabled, crystal present, the watchdog has not fired, no reset is held. -/
def State.linkRuns (s : State) : Bool :=
  s.live.cst.pairInUse ≠ 0 && !s.live.sys.reserveOsc && !s.live.par.wdFired && !s.live.pwr.inReset && s.live.epc.casting

/-- The event that the claim holder changed (R538 code 9): PAR_LAST and the epoch. -/
def Par.lastWord (p : Par) : Word := pack [(0, 4, p.lastCause), (4, 16, p.lastGap)]
def State.holderChange (s : State) (cause : Nat) : State :=
  let s := s.modPar fun p => { p with lastCause := cause, lastEpoch := s.live.epc.epoch, cause := 0 }
  s.journal 9 (leBytes 4 s.live.par.lastWord.toNat ++ leBytes 8 s.live.epc.epoch)

/-- Entry into WAIT (R340). -/
def State.enterWait (s : State) : State :=
  let s := s.setClaim 0
  let s := s.modPar fun p => { p with
    pstate := 1, waitAt := s.now, imageIn := false, adopted := false, stale := false, handover := none, holdoffSince := none
    hoLeft := 0, planned := false, cutover := false, barredWhy := 0 }
  (s.modEpc fun e => { e with pairLock := false }).switchMode .standby

/-- Entry into BARRED with a reason (R341). -/
def State.enterBarred (s : State) (why : Nat) : State :=
  let s := s.setClaim 0
  (s.modPar fun p => { p with pstate := 5, barredWhy := why, hoLeft := 0, planned := false, cutover := false }).switchMode .standby

/-- Entry into JOIN: the JOIN frame is sent with versions, role and digest (R341). -/
def State.enterJoin (s : State) : State :=
  let s := s.modPar fun p => { p with pstate := 2, adopted := false, imageIn := false, barredWhy := 0 }
  s.send (.coupling 0x0A [s.live.cplMinor, s.live.cplMajor, s.live.pwr.strapCode % 2, leNat s.live.cst.digest])

/-- Entry into TAKING: after a failure the code `code` (SEIZE, or ACTIVE_x) with KILL_OUT and a raised generation (R346, R347);
in a planned handover the READY code is kept until TAKING_ACTIVE_CODE (R351). The epoch timer follows nobody any more (R33, R46). -/
def State.enterTaking (s : State) (code cause : Nat) (planned : Bool) : State :=
  let s := s.modPar fun p => { p with
    pstate := 8, hoLeft := 2, planned := planned, cause := cause, handover := none, aTakeover := true
    takeovers := satAdd 16 p.takeovers 1, stale := false, barredWhy := 0, divTake := false
    takenMode := p.partner.mode, takenSafe := p.partner.nclaim % 8 = 3 }
  let s := if planned then s else (s.modPar Par.raise).assertKill
  let s := if planned then s else s.setClaim code
  ((s.modEpc fun e => { e with pairLock := false }).switchMode .handover).holdUpdate 2

/-- R361: the code of a module in READY: NONE while a critical fault is set or its self-test failed (R358). -/
def State.readyOr (s : State) : Nat :=
  if critical s.live.health || s.live.par.barredByTest then 0 else s.live.readyCode

/-- A named handover is abandoned (R351): 0 partner left READY, 1 STALE set, 2 heartbeat path lost. -/
def State.abandonHandover (s : State) (why : Nat) : State :=
  match s.live.par.handover with
  | none => s
  | some (e, _) => (s.journal 30 (leBytes 8 e ++ ev1 why)).modPar fun p => { p with handover := none, cutover := false }

/-- The partner is a standby in READY without STALE, and both paths are up (R351). -/
def Par.partnerReady (p : Par) : Bool := p.heard && p.partner.pstate = 4 && isReadyCode p.pcode
def Par.canHandOver (p : Par) : Bool := p.partnerReady && !p.partner.stale && p.hbOk && p.linkOk

/-- The active unit names E_h, two epochs ahead, in a HANDOVER frame (R351). -/
def State.nameHandover (s : State) (cause : Nat) : State :=
  let e := s.live.epc.epoch + 2
  (s.modPar fun p => { p with handover := some (e, cause), holdoffSince := none }).send (.coupling 7 [e, cause])

/-- R343: the active unit stages SLV_CTRL.COLD_NEXT. -/
def State.stageCold (s : State) : State :=
  { s with staged := s.staged ++ [{ txn := 0, src := .dp, role := .owner, addr := 0x0A38, val := 1, readEpoch := s.live.epc.epoch
                                    closedAt := s.now }] }

/-- R340, R348: KILL_IN energised puts a module of a pair into KILLED. -/
def State.enterKilled (s : State) : State :=
  (((s.abandonHandover 0).setClaim 0).modPar fun p => { p with pstate := 10, handover := none, hoLeft := 0, stale := false }).switchMode .standby

/-- R347: SEIZE gives way to ACTIVE_x once the accepted partner code is NONE or READY_x. -/
def State.yieldSeize (s : State) : State :=
  if s.live.par.code = 7 ∧ (s.live.par.pcode = 0 ∨ isReadyCode s.live.par.pcode) then s.setClaim s.live.activeCode else s

/-- The rows of R340 that follow from codes, paths and the partner's reports: the first that applies. -/
def State.settlePair (s : State) : State :=
  let p := s.live.par
  if !s.paired then s
  else if p.killIn then (if p.pstate = 10 then s else s.enterKilled)
  else if (p.pstate = 6 ∨ p.pstate = 7) ∧ p.code < p.pcode then
    (s.modPar fun p => { p with aConflict := true }).enterWait.holderChange 8
  else if p.pstate = 1 ∧ (isActiveCode p.pcode ∨ p.pcode = 7) ∧ p.linkOk then s.enterJoin
  else if (p.pstate = 2 ∨ p.pstate = 3 ∨ p.pstate = 5) ∧ p.pcode = 0 ∧ (p.partnerFailed ∨ !p.linkOk) then s.enterWait
  else if p.pstate = 4 ∧ p.partnerFailed then (s.enterTaking 7 3 false).yieldSeize
  else if p.pstate = 4 ∧ !p.linkOk ∧ p.pcode ≠ 0 then
    (s.abandonHandover 2).modPar fun p => { p with stale := true }
  else if p.pstate = 6 ∧ p.partnerReady then (s.modPar fun p => { p with pstate := 7 }).stageCold
  else if p.pstate = 7 ∧ !p.partnerReady then
    (s.abandonHandover 0).modPar fun p => { p with pstate := 6, holdoffSince := none }
  else if p.pstate = 9 ∧ isActiveCode p.pcode then
    let s := s.unholdUpdate 2
    if p.cutover then (s.modPar fun p => { p with pstate := 5, barredWhy := 3 })
    else (s.modPar fun p => { p with pstate := 4, cmpFrom := s.live.epc.epoch + 2, excluded := [] }).setClaim s.readyOr
  else if p.pstate = 4 ∧ p.code ≠ s.readyOr then s.setClaim s.readyOr
  else s

/-- R351: conditions that abandon a named handover. -/
def State.checkHandover (s : State) : State :=
  let p := s.live.par
  if p.handover.isNone ∨ p.cutover then s
  else if !p.hbOk ∨ !p.linkOk then s.abandonHandover 2
  else if p.pstate = 7 ∧ p.partner.pstate ≠ 4 then s.abandonHandover 0
  else if p.pstate = 7 ∧ p.partner.stale then s.abandonHandover 1
  else s

/-- R352 take-back: since when the preferred partner could take the claim back. -/
def State.watchHoldoff (s : State) : State :=
  let p := s.live.par
  let ok : Bool := s.live.cst.pairInUse = 1 && p.pstate = 7 && s.live.roleB ≠ s.live.cst.preferredB && p.partnerReady
    && !p.partner.stale && !critical p.partner.health && !planning p.partner.health && p.handover.isNone
  s.modPar fun p => { p with holdoffSince := if ok then some (p.holdoffSince.getD s.now) else none }

/-- R352 health: the active unit names a handover when its partner is healthier. -/
def State.healthHandover (s : State) : State :=
  let p := s.live.par
  let h := s.live.health
  let q := p.partner.health
  if s.paired ∧ p.pstate = 7 ∧ p.canHandOver ∧ p.handover.isNone
      ∧ ((critical h ∧ !critical q) ∨ (planning h ∧ !critical q ∧ !planning q)) then s.nameHandover 6
  else s

/-- What the pair does at an epoch boundary before the modes are settled. -/
def State.pairBoundary (s : State) : State :=
  let s := s.modPar fun p => { p with hoLeft := p.hoLeft - 1 }
  s.settlePair.checkHandover.watchHoldoff.healthHandover

/-- R353: at an output instant, an active unit with a critical fault and a lost link path drives NONE when its partner last
reported READY; otherwise it keeps the claim and raises the alarm. -/
def State.pairInstant (s : State) : State :=
  let p := s.live.par
  if s.paired ∧ (p.pstate = 6 ∨ p.pstate = 7) ∧ critical s.live.health ∧ !p.linkOk ∧ p.code ≠ 0 then
    if p.heard ∧ p.partner.pstate = 4 then (s.setClaim 0).holderChange 6
    else s.modPar fun p => { p with aPathLink := true }
  else s

/-! Events on the claim pins, the gate, the watchdog, the paths, the kill line. -/

/-- Odd parity over the four bits of a claim word: its code and its parity bit (R327). -/
def claimWordOk (code : Nat) (parity : Bool) : Bool :=
  let ones := (code.testBit 0).toNat + (code.testBit 1).toNat + (code.testBit 2).toNat + parity.toNat
  (decide (code < 8) && decide (ones % 2 = 1) && code ≠ 6) || (code = 0 && !parity)

/-- A fault of the claim pins: flagged and journalled. -/
def State.claimPinFault (s : State) : State := (s.modPar fun p => { p with aClaimPin := true }).journal 0 (ev1 4)

/-- The accepted code against the code of the heartbeat frames (R327): a difference of more than 1 ms is a fault. -/
def State.compareCodes (s : State) : State :=
  let p := s.live.par
  if !p.heard ∨ p.partner.nclaim % 8 = p.pcode then s.modPar fun p => { p with diffSince := none, diffNoted := false }
  else
    match p.diffSince with
    | none => s.modPar fun p => { p with diffSince := some s.now }
    | some t => if t + 1000000 < s.now ∧ !p.diffNoted then (s.modPar fun p => { p with diffNoted := true }).claimPinFault else s

/-- PARTNER_CODE_CHANGE (R327, R330): the partner's claim word, stable for 200 ns; a single module ignores it. -/
def execPartnerCodeChange (code : Nat) (parity : Bool) (s : State) : Host.Outcome State Fault Refusal :=
  if s.live.epc.casting ∧ s.live.cst.pairInUse = 0 then .next s
  else if !claimWordOk code parity then .next s.claimPinFault
  else
    let s := s.modPar fun p => Par.settleGate { p with
      pcode := code, pcodeAt := s.now
      noneSince := if code = 0 ∧ p.hbOk then some s.now else none } s.now
    let s := s.checkInjection.compareCodes
    let p := s.live.par
    -- R347: SEIZE gives way to ACTIVE_x
    let s := if p.code = 7 ∧ (code = 0 ∨ isReadyCode code) then s.setClaim s.live.activeCode else s
    -- R346, R351: the partner of a READY standby has fallen to NONE
    let s := if s.paired ∧ p.pstate = 4 ∧ code = 0 ∧ !p.partnerFailed then
        match p.handover with
        | some (e, c) => if e = s.live.epc.epoch then s.enterTaking 0 c true else s.enterTaking s.live.activeCode 2 false
        | none => s.enterTaking s.live.activeCode (if p.divAt.isSome || p.divTake then 7 else 2) false
      else s
    .next s.settlePair

/-- GATE_OPEN (R328, R349): the gate opens; in TAKING the time since the partner's last heartbeat edge at which the stages
drive is shown in PAR_LAST.GAP, in units of 10 ns. -/
def execGateOpen (gapNs : Nat) (s : State) : Host.Outcome State Fault Refusal :=
  let p := s.live.par
  match p.compareSince with
  | none => .next s
  | some t =>
    if p.gate ∨ p.killIn ∨ s.now < t + 3000 ∨ (p.code = 7 ∧ (!p.killOut ∨ s.now < p.killOutAt + 8000)) then .next s
    else
      let s := s.modPar fun p => { p with gate := true, lastGap := if p.pstate = 8 then min 65535 (gapNs / 10) else p.lastGap }
      .next (if p.cause ≠ 0 ∧ p.pstate ≠ 0 then s.holderChange p.cause else s)

/-- WATCHDOG_FIRE (R334): cause 0 clock, 1 late tick, 2 late pour, 3 power-fail warning, 4 a reset's assertion. -/
def State.fireWatchdog (s : State) (cause : Nat) : State :=
  if s.live.par.wdFired then s
  else (s.modPar fun p => { p with wdFired := true, wdCause := cause, wdAt := s.now }).dropClaim
def execWatchdogFire (cause : Nat) (s : State) : Host.Outcome State Fault Refusal :=
  if cause ≤ 4 ∧ (s.live.par.wdArmed ∨ (cause ≠ 1 ∧ cause ≠ 2)) ∧ !s.live.pwr.inReset then .next (s.fireWatchdog cause) else .next s

/-- HEARTBEAT_SEND (R335, R337). -/
def execHeartbeatSend (s : State) : Host.Outcome State Fault Refusal :=
  if s.linkRuns then
    .next (s.send (.coupling 1 [s.live.par.nclaim, s.live.par.pstate, s.live.pwr.mode.code, s.live.health, s.live.par.stale.toNat]))
  else .next s

/-- A frame whose CRC fails is discarded and counted (R337). -/
def State.crcError (s : State) : State := s.modPar fun p => { p with crcErr := satAdd 16 p.crcErr 1 }

/-- The active unit has left COMMISSION: hand operation and calibration that the standby follows end with it (R214, R266, R277, R355). -/
def State.followHand (s : State) (h : Heartbeat) : State :=
  if s.live.pwr.mode = .standby ∧ s.live.par.partner.mode = 3 ∧ h.mode ≠ 3 ∧ h.mode ≠ 6 then s.handEnds.calEnds else s

/-- R101, R343: the partner's report that its STALE is over ends a repetition of R342, at which the active unit stages COLD_NEXT. -/
def State.staleOver (s : State) (h : Heartbeat) : State :=
  let p := s.live.par
  if s.paired ∧ p.pstate = 7 ∧ p.partner.stale ∧ p.partner.pstate = 4 ∧ !h.stale ∧ h.pstate = 4 then s.stageCold else s

/-- HEARTBEAT_FRAME (R332, R336, R361). -/
def execHeartbeatFrame (ok : Bool) (h : Heartbeat) (s : State) : Host.Outcome State Fault Refusal :=
  if !s.linkRuns then .next s
  else if !ok then .next s.crcError
  else
    let s := (s.followHand h).staleOver h
    let s := s.modPar fun p => { p with
      partner := h, heard := true
      gen := if !p.gate ∧ (isActiveCode (h.nclaim % 8) ∨ h.nclaim % 8 = 7) then h.nclaim / 8 else p.gen }
    .next s.compareCodes.settlePair.checkHandover.watchHoldoff

/-- A path is lost (R336): flag, count, journal; both lost declare the partner failed. -/
def State.losePath (s : State) (hb : Bool) : State :=
  let s := (s.journal 27 (ev2 (if hb then 0 else 1) 0)).modPar fun p => { p with
    hbOk := p.hbOk && !hb, linkOk := p.linkOk && hb, aPathHb := p.aPathHb || hb, aPathLink := p.aPathLink || !hb
    pathLoss := satAdd 16 p.pathLoss 1, noneSince := if hb then none else p.noneSince }
  let s := if hb then s else s.modEpc fun e => { e with pairLock := false }
  if !s.live.par.hbOk ∧ !s.live.par.linkOk ∧ !s.live.par.partnerFailed then
    s.modPar fun p => { p with partnerFailed := true, aPartnerFail := true }
  else s

/-- HB_PATH_LOST. -/
def execHbPathLost (s : State) : Host.Outcome State Fault Refusal :=
  if s.live.cst.pairInUse ≠ 0 ∧ s.live.par.hbOk then .next (s.losePath true).checkHandover.settlePair else .next s

/-- LINK_PATH_LOST: in READY the standby keeps its code and sets STALE (R345). -/
def execLinkPathLost (s : State) : Host.Outcome State Fault Refusal :=
  if s.live.cst.pairInUse ≠ 0 ∧ s.live.par.linkOk then .next (s.losePath false).checkHandover.settlePair else .next s

/-- PATH_RESTORED (R336): `hb` names the path; the coupling link stays down while the crystal is lost (R23). A standby in READY with STALE repeats R342; with the link path a BARRED module joins again. -/
def execPathRestored (hb : Bool) (s : State) : Host.Outcome State Fault Refusal :=
  let p := s.live.par
  if s.live.cst.pairInUse = 0 ∨ (if hb then p.hbOk else p.linkOk || s.live.sys.reserveOsc) then .next s
  else
    let s := (s.journal 27 (ev2 (if hb then 0 else 1) 1)).modPar fun p => { p with
      hbOk := p.hbOk || hb, linkOk := p.linkOk || !hb, partnerFailed := false
      noneSince := if hb ∧ p.pcode = 0 then some s.now else p.noneSince, imageIn := p.imageIn && hb }
    .next (if s.paired ∧ p.pstate = 5 ∧ !hb then s.enterJoin else s.settlePair)

/-- KILL_IN_ENERGISED (R348, R340). -/
def execKillInEnergised (s : State) : Host.Outcome State Fault Refusal :=
  if s.live.par.killIn then .next s
  else
    let s := (s.journal 29 (ev1 0)).modPar fun p => Par.settleGate { p with killIn := true } s.now
    let s := s.checkInjection
    if s.paired then
      .next s.enterKilled
    else .next s

/-- KILL_IN_RELEASED (R348). -/
def execKillInReleased (s : State) : Host.Outcome State Fault Refusal :=
  if !s.live.par.killIn then .next s
  else
    let s := (s.journal 29 (ev1 1)).modPar fun p => Par.settleGate { p with killIn := false } s.now
    .next (if s.paired ∧ s.live.par.pstate = 10 then s.enterWait.settlePair else s)

/-- KILL_OUT_RELEASE (R348). -/
def execKillOutRelease (s : State) : Host.Outcome State Fault Refusal :=
  let p := s.live.par
  match p.noneSince with
  | some t =>
    if p.killOut ∧ p.pstate ≠ 8 ∧ p.pcode = 0 ∧ p.hbOk ∧ t + 10000000 ≤ s.now then .next s.releaseKill else .next s
  | none => .next s

/-- WAIT_TIMEOUT (R340): no claiming partner for WAIT_MS: the module is ALONE, with a raised generation. -/
def execWaitTimeout (s : State) : Host.Outcome State Fault Refusal :=
  let p := s.live.par
  let partnerFirst : Bool := p.heard && p.linkOk && p.partner.pstate = 1 && s.live.cst.preferredB = !s.live.roleB
  if s.paired ∧ p.pstate = 1 ∧ p.waitAt + s.live.cst.waitMs * 1000000 ≤ s.now ∧ p.pcode = 0 ∧ !partnerFirst then
    let s := (s.modPar fun p => { p.raise with pstate := 6, cause := 1 }).setClaim s.live.activeCode
    .next (s.switchMode (s.runMode true))
  else .next s

/-! Joining and resynchronisation (R341, R342, R345). -/

/-- JOIN_FRAME (R341): the partner's JOIN or ACCEPT: role B, an IRS-4800 (R354), minor and major of its protocol, its casting's SEQUENCE and digest. The joining module
judges it; the other one answers with ACCEPT. -/
def execJoinFrame (ok roleB ir4800 : Bool) (minor major seq : Nat) (digest : Bytes) (s : State) : Host.Outcome State Fault Refusal :=
  if !s.linkRuns then .next s
  else if !ok then .next s.crcError
  else
    let s := s.modPar fun p => { p with pMinor := minor, pMajor := major, pSeq := seq, p4800 := ir4800 }
    let answer := s.send (.coupling 0x0A [s.live.cplMinor, s.live.cplMajor, s.live.pwr.strapCode % 2, leNat s.live.cst.digest])
    if s.paired ∧ s.live.par.pstate = 2 then
      if roleB = s.live.roleB then .next (s.enterBarred 1)
      else if major ≠ s.live.cplMajor ∨ 1 < minor - s.live.cplMinor ∨ 1 < s.live.cplMinor - minor then .next (s.enterBarred 2)
      else if digest ≠ s.live.cst.digest then .next (s.enterBarred 3)
      else .next (s.modPar fun p => { p with pstate := 3, barredWhy := 0, imageIn := false })
    else .next (if s.paired then answer else s)

/-- The EPOCH frame concerns a module that has passed the JOIN exchange and does not hold the claim (R46). -/
def State.follows (s : State) : Bool :=
  s.paired && (s.live.par.pstate = 3 || s.live.par.pstate = 4 || s.live.par.pstate = 5) && !s.live.par.gate

/-- R46: a module that has passed the JOIN exchange and has still to lock its timer takes the boundary of the next EPOCH frame. -/
def State.toLock (s : State) : Bool := s.linkRuns && s.follows && !s.live.par.adopted

/-- COMMIT_FRAME (R48, R101): the commit set of an epoch of the active unit, poured at the next boundary, with the snapshot of an
opening epoch and the source values of a horizon step boundary. -/
def execCommitFrame (ok : Bool) (epoch : Nat) (writes : List CommitWrite) (snap steps : Option (List (Nat × Machine.Dy × Bool)))
    (commits : List Nat) (s : State) : Host.Outcome State Fault Refusal :=
  if !s.linkRuns ∨ !s.follows then .next s
  else if !ok then .next s.crcError
  else
    let st : List Staged := writes.map fun w =>
      { txn := w.txn, src := w.src, role := w.role, addr := w.addr, val := w.val, readEpoch := epoch, closedAt := s.now, mirror := true }
    let s1 := (s.send (.coupling 3 [epoch])).modPar fun p => { p with
      commitEpoch := max p.commitEpoch epoch
      snapIn := snap.map (fun x => (epoch, x)) <|> p.snapIn
      stepIn := steps.map (fun x => (epoch, x)) <|> p.stepIn }
    let s1 := s1.modEpc fun e => { e with
      commitYra := max e.commitYra (commits.getD 0 0), commitYml := max e.commitYml (commits.getD 1 0)
      commitDbg := max e.commitDbg (commits.getD 2 0) }
    .next { s1 with staged := s1.staged ++ st }

/-- STALE_TIMEOUT (R337, R345): the commit set or the tag state of the present epoch has not come within one epoch period. -/
def execStaleTimeout (s : State) : Host.Outcome State Fault Refusal :=
  let p := s.live.par
  if s.follows ∧ p.adopted ∧ p.pstate = 4 ∧ s.live.epc.boundaryAt + s.live.epc.periodMs * 1000000 ≤ s.now
      ∧ (p.commitEpoch < s.live.epc.epoch ∨ p.tagsEpoch < s.live.epc.epoch) then
    .next ((s.abandonHandover 1).modPar fun p => { p with stale := true, imageIn := false })
  else .next s

/-- TAGS_FRAME (R244): the tag state of the active unit, adopted at the next input phase. -/
def execTagsFrame (ok : Bool) (epoch : Nat) (tags : Machine.Table Machine.TagVal) (s : State) : Host.Outcome State Fault Refusal :=
  if !s.linkRuns ∨ !s.follows then .next s
  else if !ok then .next s.crcError
  else .next (((s.send (.coupling 4 [epoch])).modPar fun p => { p with tagsEpoch := max p.tagsEpoch epoch }).modLgc fun x =>
    { x with adopt := some tags })

/-- RESYNC_COMPLETE (R342, R345, R353): the image is in, the commit set of the epoch before the present one is poured, and the
own self-test passed. -/
def execResyncComplete (passed : Bool) (s : State) : Host.Outcome State Fault Refusal :=
  let p := s.live.par
  if s.paired ∧ (p.pstate = 3 ∨ (p.pstate = 4 ∧ p.stale)) ∧ p.imageIn ∧ p.adopted ∧ s.live.epc.epoch ≤ p.commitEpoch + 1 ∧ passed then
    let s := s.modPar fun p => { p with
      pstate := 4, stale := false, excluded := [], mismatch := [], cmpFrom := s.live.epc.epoch + 2, barredByTest := false }
    .next (s.setClaim s.readyOr)
  else .next s

/-- CHANGE_FRAME (R240): the active unit names E_c; the standby applies the change with the casting carried to it (R521), or is
BARRED when it cannot. -/
def execChangeFrame (ok : Bool) (epoch : Nat) (seq : Nat) (digest : Bytes) (sects : Option (List Machine.Sect))
    (s : State) : Host.Outcome State Fault Refusal :=
  if !s.linkRuns ∨ !s.follows then .next s
  else if !ok then .next s.crcError
  else
    match sects with
    | none => .next (s.enterBarred 3)
    | some l =>
      .next (s.modLgc fun x => { x with change := some (epoch, l, seq, digest) })

/-! Planned handover (R350 to R352). -/

/-- HANDOVER_FRAME (R351): the active unit names E_h. -/
def execHandoverFrame (ok : Bool) (epoch cause : Nat) (s : State) : Host.Outcome State Fault Refusal :=
  if !s.linkRuns then .next s
  else if !ok then .next s.crcError
  else if s.paired ∧ (s.live.par.pstate = 4 ∨ s.live.par.pstate = 5) then
    .next (s.modPar fun p => { p with handover := some (epoch, cause), cutover := p.pstate = 5 })
  else .next s

/-- HANDOVER_START (R340, R351): the output instant of the first tick of E_h. -/
def execHandoverStart (s : State) : Host.Outcome State Fault Refusal :=
  let p := s.live.par
  match p.handover with
  | none => .next s
  | some (e, c) =>
    if !s.paired ∨ s.live.epc.epoch ≠ e ∨ s.now < s.live.epc.boundaryAt + 700000 then .next s
    else if p.pstate = 7 ∨ (p.pstate = 6 ∧ p.cutover) then
      let s := s.setClaim 0
      let s := s.modPar fun p => { p with pstate := 9, planned := true, hoLeft := 2, handover := none, cause := c }
      .next ((s.switchMode .handover).holderChange c)
    else if p.pstate = 4 ∨ (p.pstate = 5 ∧ p.cutover) then .next (s.enterTaking 0 c true)
    else .next s

/-- TAKING_ACTIVE_CODE (R351): 10 us after NONE was accepted. -/
def execTakingActiveCode (s : State) : Host.Outcome State Fault Refusal :=
  let p := s.live.par
  if s.paired ∧ p.pstate = 8 ∧ p.planned ∧ !isActiveCode p.code ∧ p.pcode = 0 ∧ p.pcodeAt + 10000 ≤ s.now then
    .next ((s.modPar Par.raise).setClaim s.live.activeCode)
  else .next s

/-- R350: the mode a taking unit enters, from the last heartbeat frame of the former holder before it took the claim. -/
def State.modeTaken (s : State) : Mode :=
  let m := s.live.par.takenMode
  if m = 8 then .island else if m = 3 then .commission else if m = 9 then .tune else s.runMode false

/-- HANDOVER_END (R350, R340): the second boundary after the entry. -/
def execHandoverEnd (s : State) : Host.Outcome State Fault Refusal :=
  let p := s.live.par
  if !s.atBoundary ∨ s.live.pwr.mode ≠ .handover ∨ p.hoLeft ≠ 0 ∨ !s.paired then .next s
  else
    let s := s.modPar fun p => { p with
      handovers := if p.planned then satAdd 16 p.handovers 1 else p.handovers, planned := false, cmpFrom := s.live.epc.epoch + 2 }
    if p.pstate = 8 then
      let s := s.modPar fun p => { p with pstate := if p.partnerReady then 7 else 6, cutover := false }
      if p.takenMode = 11 ∧ p.takenSafe then .next (s.safehold 6).repour
      else
        let s := s.switchMode s.modeTaken
        .next (if s.live.pwr.mode = .island then s.modPln fun x => { x with island := true } else s).repour
    else .next (s.switchMode .standby).repour

/-- TAKE_BACK (R352): the preferred partner has been ready for HOLDOFF_S. -/
def execTakeBack (s : State) : Host.Outcome State Fault Refusal :=
  match s.live.par.holdoffSince with
  | some t =>
    if s.paired ∧ s.live.par.canHandOver ∧ t + s.live.cst.holdoffS * 1000000000 ≤ s.now then .next (s.nameHandover 5) else .next s
  | none => .next s

/-- SWITCH at its commit (R352, R521): a planned handover, or a cutover with a partner BARRED for its casting; ignored and counted
otherwise. `seq` is the partner's CST_SEQ as its JOIN exchange gave it. -/
def State.switchClaim (s : State) (src : Source) : State :=
  let p := s.live.par
  if s.paired ∧ p.pstate = 7 ∧ p.canHandOver ∧ p.handover.isNone then s.nameHandover 4
  else if s.paired ∧ p.pstate = 6 ∧ p.partner.pstate = 5 ∧ p.hbOk ∧ p.linkOk ∧ !critical p.partner.health
      ∧ !planning p.partner.health ∧ p.handover.isNone ∧ s.live.cst.seq < p.pSeq then
    (s.nameHandover 4).modPar fun p => { p with cutover := true }
  else s.werr 0x303C src .state

/-! Output comparison and divergence (R356 to R359). -/

/-- What R357 excludes. -/
def State.cmpExcluded (s : State) (x : CmpItem) : Bool :=
  let k := s.live
  k.epc.epoch < k.par.cmpFrom || k.par.excluded.contains (x.kind * 1000 + x.index) || k.pwr.mode = .safehold ||
    k.par.partner.mode = 11 ||
    (match x.kind with
     | 0 => (tget k.lpe.slots x.index {}).hand || (k.lpe.injecting && k.lpe.injSlot = x.index) || k.cst.slotShed k.pln.shed x.index
     | 1 => (s.chan x.index).hand || (s.shedOf x.index).isSome
     | _ => [1, 2, 6].contains (tget k.fan.drivers x.index {}).st)

/-- The own value of an item, and whether the partner's lies outside the tolerance (R356). -/
def State.cmpOwn (s : State) (x : CmpItem) : Word :=
  match x.kind with
  | 0 => (tget s.live.lpe.slots x.index {}).out
  | 1 => (s.chan x.index).elec
  | _ => (tget s.live.fan.drivers x.index {}).duty
def State.cmpDiffers (s : State) (x : CmpItem) : Bool :=
  let d := fAbs (fSub (s.cmpOwn x) x.value)
  match x.kind with
  | 0 => fLt (f32 (s.live.cst.slotRec x.index) 56) d
  | 1 =>
    let b := s.chRec x.index
    if chType b = 8 then doutOn b (s.cmpOwn x) ≠ doutOn b x.value
    else fLt (fOfRat (s.live.cst.lgcTolPm * (match chType b with | 6 => 10 | 7 => 24 | _ => 100) : Nat) 1000) d
  | _ => fLt (fOfNat 1) d

/-- A sustained mismatch: DIVERGE is sent, the self-test begins, the divergence is counted (R358, R359). -/
def State.diverge (s : State) (x : CmpItem) : State :=
  let s := s.modPar fun p => { p with
    divKind := x.kind, divIndex := x.index, divCount := satAdd 16 p.divCount 1, divVals := (x.value, s.cmpOwn x)
    divAt := some s.now, divOwn := none, divPartner := none, testSince := some s.now
    mismatch := tdel p.mismatch (x.kind * 1000 + x.index) }
  s.send (.coupling 8 [x.kind, x.index])

/-- OUTPUTS_FRAME (R356): the active unit's comparison data of a tick: the slots and drivers evaluated in it, and at the first
tick of an epoch the logic-driven channels. -/
def execOutputsFrame (ok : Bool) (items : List CmpItem) (s : State) : Host.Outcome State Fault Refusal :=
  if !s.linkRuns ∨ !s.follows ∨ s.live.par.pstate ≠ 4 ∨ !s.live.par.linkOk ∨ s.live.par.p4800 then .next s
  else if !ok then .next s.crcError
  else .next (items.foldl (fun s x =>
    let key := x.kind * 1000 + x.index
    if s.cmpExcluded x ∨ !s.cmpDiffers x then s.modPar fun p => { p with mismatch := tdel p.mismatch key }
    else
      let n := tget s.live.par.mismatch key 0 + 1
      let lim := if x.kind = 1 then s.live.cst.cmpEpochs else s.live.cst.cmpTicks
      if lim ≤ n ∧ s.live.par.divAt.isNone then s.diverge x
      else s.modPar fun p => { p with mismatch := tset p.mismatch key n }) s)

/-- DIVERGE_FRAME (R358): the standby has found a sustained mismatch; the self-test runs here too. `value` is the standby's. -/
def execDivergeFrame (ok : Bool) (kind index : Nat) (value : Word) (s : State) : Host.Outcome State Fault Refusal :=
  if !s.linkRuns ∨ !s.paired then .next s
  else if !ok then .next s.crcError
  else
    let own := s.cmpOwn { kind := kind, index := index, value := value }
    .next (s.modPar fun p => { p with
      divKind := kind, divIndex := index, divCount := satAdd 16 p.divCount 1, divVals := (own, value)
      divAt := some s.now, divOwn := none, divPartner := none, testSince := some s.now })

/-- SELFTEST_FRAME (R358): the partner's result. -/
def execSelftestFrame (ok passed : Bool) (s : State) : Host.Outcome State Fault Refusal :=
  if !s.linkRuns ∨ !s.paired then .next s
  else if !ok then .next s.crcError
  else .next (if s.live.par.divAt.isSome then s.modPar fun p => { p with divPartner := some passed } else s)

/-- SELFTEST_COMPLETE (R360): a requested full self-test ends with the results of the four tests (loop, logic, SRAM, gate). -/
def execSelftestComplete (loop logic sram gate : Bool) (s : State) : Host.Outcome State Fault Refusal :=
  match s.live.par.testSince with
  | none => .next s
  | some _ =>
    let passed := loop && logic && sram && gate
    let s := s.modPar fun p => { p with
      testSince := none, loopKat := !loop, logicKat := !logic, sramUe := p.sramUe || !sram, gateTest := !gate
      divOwn := if p.divAt.isSome then some passed else p.divOwn
      barredByTest := if passed then false else p.barredByTest }
    let s := if passed then s.modUpd fun u => { u with trial := u.trial.map fun t => { t with selftestPassed := true } } else s
    let s := if s.linkRuns then s.send (.coupling 9 [passed.toNat]) else s
    .next s.settlePair

/-- DIVERGENCE_RESOLVE (R358): at the first boundary after both results are known, or 50 ms after the divergence. -/
def execDivergenceResolve (s : State) : Host.Outcome State Fault Refusal :=
  let p := s.live.par
  match p.divAt, p.divOwn with
  | some t, some own =>
    if !s.atBoundary ∨ !s.paired ∨ (p.divPartner.isNone ∧ s.now < t + 50000000) then .next s
    else
      let other := p.divPartner.getD false
      let isActive : Bool := p.gate
      let act := if isActive then own else other
      let stb := if isActive then other else own
      let w := pack [(0, 2, p.divKind), (2, 8, p.divIndex), (16, 16, p.divCount)]
      let s := s.journal 10 (leBytes 4 w.toNat ++ leBytes 4 p.divVals.1.toNat ++ leBytes 4 p.divVals.2.toNat ++ ev2 act.toNat stb.toNat)
      let s := s.modPar fun p => { p with
        divAt := none, divOwn := none, divPartner := none
        aDivergence := p.aDivergence || (act && stb), aBothFail := p.aBothFail || (!act && !stb)
        excluded := if act && stb then addOnce p.excluded (p.divKind * 1000 + p.divIndex) else p.excluded
        barredByTest := if isActive then p.barredByTest else !stb
        divTake := !isActive && !act && stb }
      let s := if isActive ∧ !act ∧ stb then (s.setClaim 0).holderChange 7 else s
      .next s.settlePair.repour
  | _, _ => .next s

/-- SELFTEST_PERIODIC (R360): a periodic test (0 loop, 1 logic, 2 SRAM, 3 gate supply, the last on a standby with its gate
closed) sets or clears its health bit; an SRAM error stays until reset. -/
def execSelftestPeriodic (test : Nat) (passed : Bool) (s : State) : Host.Outcome State Fault Refusal :=
  if !s.live.epc.casting then .next s
  else
    match test with
    | 0 => .next (s.modPar fun p => { p with loopKat := !passed }).settlePair
    | 1 => .next (s.modPar fun p => { p with logicKat := !passed }).settlePair
    | 2 => .next (s.modPar fun p => { p with sramUe := p.sramUe || !passed }).settlePair
    | 3 => if s.live.par.gate ∨ !s.paired then .next s else .next (s.modPar fun p => { p with gateTest := !passed }).settlePair
    | _ => .next s

/-- The pair at the pour of epoch 0 (R330, R339, R388): the code of a single module, or WAIT. The late causes of the watchdog
become active. -/
def State.startPair (s : State) : State :=
  let s := s.modPar fun p => { p with wdArmed := true, mismatch := [], excluded := [] }
  if s.live.cst.pairInUse = 0 then
    (s.modPar fun p => { p with pstate := 0, pcode := 0, gen := p.gen + 1 }).setClaim 5
  else s.enterWait.settlePair

/-! Registers at 0x3000. -/

def readPar (k : Core) (addr : Nat) : Word :=
  let p := k.par
  match addr with
  | 0x3000 => pack [(0, 4, p.pstate), (4, 1, k.roleB.toNat), (5, 3, p.code), (8, 3, p.pcode), (11, 1, p.gate.toNat), (12, 1, p.hbOk.toNat),
      (13, 1, p.linkOk.toNat), (14, 1, p.killOut.toNat), (15, 1, p.killIn.toNat), (16, 1, p.stale.toNat),
      (17, 1, p.p4800.toNat), (18, 3, p.barredWhy)]
  | 0x3004 => pack [(0, 1, p.aPathHb.toNat), (1, 1, p.aPathLink.toNat), (2, 1, p.aPartnerFail.toNat), (3, 1, p.aTakeover.toNat),
      (4, 1, p.aClaimPin.toNat), (5, 1, p.aDivergence.toNat), (6, 1, p.aBothFail.toNat), (7, 1, p.aConflict.toNat)]
  | 0x3008 => word k.health
  | 0x300C => word p.partner.health
  | 0x3010 => word p.nclaim
  | 0x3014 => pack [(0, 8, k.cplMinor), (8, 8, k.cplMajor), (16, 8, p.pMinor), (24, 8, p.pMajor)]
  | 0x3018 => pack [(0, 2, k.cst.pairInUse), (2, 1, u8 k.cst.pairGlobal 0), (8, 8, k.cst.cmpTicks), (16, 8, k.cst.cmpEpochs)]
  | 0x301C => match p.holdoffSince with
    | some t => word (k.cst.holdoffS - (k.epc.boundaryAt - t) / 1000000000)
    | none => 0
  | 0x3020 => pack [(0, 16, p.takeovers), (16, 16, p.handovers)]
  | 0x3024 => lo32 p.lastEpoch
  | 0x3028 => hi32 p.lastEpoch
  | 0x302C => p.lastWord
  | 0x3030 => pack [(0, 2, p.divKind), (2, 8, p.divIndex), (16, 16, p.divCount)]
  | 0x3034 => pack [(0, 16, p.pathLoss), (16, 16, p.crcErr)]
  | 0x3038 => if k.cst.pairInUse = 0 then 0 else word (k.cst.couplingLoad % 1024)
  | _ => 0

/-- Staged commands of PAR_CTRL, and the alarm flags (W1C). -/
def State.commitPar (s : State) (src : Source) (addr : Nat) (w : Word) : State :=
  match addr with
  | 0x3004 => s.modPar fun p => { p with
      aPathHb := p.aPathHb && !bit w 0, aPathLink := p.aPathLink && !bit w 1, aPartnerFail := p.aPartnerFail && !bit w 2
      aTakeover := p.aTakeover && !bit w 3, aClaimPin := p.aClaimPin && !bit w 4, aDivergence := p.aDivergence && !bit w 5
      aBothFail := p.aBothFail && !bit w 6, aConflict := p.aConflict && !bit w 7 }
  | 0x303C =>
    let s := if bit w 1 then s.modPar fun p => { p with excluded := [] } else s
    let s := if bit w 2 then s.modPar fun p => { p with testSince := some s.now } else s
    let s := if bit w 3 then s.modPar fun p => { p with takeovers := 0, handovers := 0, divCount := 0, pathLoss := 0, crcErr := 0 } else s
    if bit w 0 then s.switchClaim src else s
  | _ => s

end Sys2Proof.Machine
end

