-- ==== Sys2Proof/Machine/Time.lean ====
section
/-! DEFINITION. Network time (spec/13, R372 to R380): domain clocks, servo, the clock in use, time-stamp queues, captures, loads. -/

namespace Sys2Proof.Machine

open Sys2Proof

/-! Clocks. A clock value counts 2^-28 ns; the offset O counts 10^-8 of that. -/

def nsUnit : Nat := 2 ^ 28

/-- The value of a domain clock: its addend every 10 ns. -/
def PtpSlot.value (x : PtpSlot) (now : Nat) : Nat := x.clk + (now - x.at_) / 10 * x.addend

/-- The clock's value taken as its new base. -/
def PtpSlot.rebase (x : PtpSlot) (now : Nat) : PtpSlot := { x with clk := x.value now, at_ := x.at_ + (now - x.at_) / 10 * 10 }

/-- Nanoseconds of a domain clock, and as a time-stamp with 2 ns resolution (R373). -/
def PtpSlot.ns (x : PtpSlot) (now : Nat) : Nat := x.value now / nsUnit
def PtpSlot.stamp (x : PtpSlot) (now : Nat) : Int := ((x.ns now / 2 * 2 : Nat) : Int)

/-- A domain slot, and one changed. -/
def Ptp.slot (p : Ptp) (d : Nat) : PtpSlot := if d = 0 then p.slot0 else p.slot1
def Ptp.setSlot (p : Ptp) (d : Nat) (x : PtpSlot) : Ptp := if d = 0 then { p with slot0 := x } else { p with slot1 := x }

/-- MODE, LOSS_S, STEP_US, RETURN_S, KP, KI of a slot (R370); PREF and SLEW_PPB (R371). -/
def Cst.ptpMode (c : Cst) (d : Nat) : Nat := u8 (c.netPtp d) 1
def Cst.lossS (c : Cst) (d : Nat) : Nat := u8 (c.netPtp d) 2
def Cst.stepUs (c : Cst) (d : Nat) : Nat := u16 (c.netPtp d) 4
def Cst.returnS (c : Cst) (d : Nat) : Nat := u16 (c.netPtp d) 6
def Cst.ptpPref (c : Cst) : Nat := u8 c.netGlobal 0
def Cst.slewPpb (c : Cst) : Nat := u32 c.netGlobal 4

/-- The offset O now: it moves towards 0 by SLEW_PPB * 10^-8 ns every control-plane cycle (R377). -/
def Ptp.ofsNow (p : Ptp) (slew now : Nat) : Int :=
  let d : Int := (((now - p.ofsAt) / 10 * slew * nsUnit : Nat) : Int)
  if 0 ≤ p.ofs then max 0 (p.ofs - d) else min 0 (p.ofs + d)

def ofsScale : Int := 100000000

/-- The clock in use, in 2^-28 ns (R377). -/
def Ptp.inUse (p : Ptp) (slew now : Nat) : Nat := (((p.slot p.use).value now : Int) + (p.ofsNow slew now).fdiv ofsScale).toNat

/-- O set now. -/
def Ptp.setOfs (p : Ptp) (o : Int) (now : Nat) : Ptp := { p with ofs := o, ofsAt := now / 10 * 10 }

/-- The followed slot changes; O takes the value that keeps the clock in use. -/
def Ptp.follow (p : Ptp) (d slew now : Nat) : Ptp :=
  let o := p.ofsNow slew now + (((p.slot p.use).value now : Int) - (p.slot d).value now) * ofsScale
  { (p.setOfs o now) with use := d, switchSeen := true }

/-- A domain clock stepped by a number of 2^-28 ns; a step of the followed one is absorbed into O. -/
def Ptp.stepClock (p : Ptp) (d : Nat) (by_ : Int) (slew now : Nat) : Ptp :=
  let x := (p.slot d).rebase now
  let p' := p.setSlot d { x with clk := ((x.clk : Int) + by_).toNat }
  if p.use = d then p'.setOfs (p.ofsNow slew now - by_ * ofsScale) now else p'

/-- Whether the device has time domains and the slot takes part. -/
def Cst.ptpOn (c : Cst) (d : Nat) : Bool := decide (d < 2) && (c.ptpMode d = 1 || c.ptpMode d = 2)

/-- What follows from the lock states (R377): the first LOCKED slot followed in a run sets O to 0; a followed slot that is not
LOCKED gives way to the other one. And R33: the epoch reference. -/
def State.settlePtp (s : State) : State :=
  let c := s.live.cst
  let slew := c.slewPpb
  let p := s.live.ptp
  let s := if !(p.slot p.use).locked ∧ (p.slot (1 - p.use)).locked ∧ c.ptpOn (1 - p.use) then
      s.modPtp fun p => p.follow (1 - p.use) slew s.now else s
  let p := s.live.ptp
  let s := if (p.slot p.use).locked ∧ !p.stepped then
      let old := p.inUse slew s.now / nsUnit / 1000000000
      let p' := { (p.setOfs 0 s.now) with stepped := true }
      (s.modPtp fun _ => p').journal 18 (ev1 1 ++ leBytes 7 old ++ leBytes 8 (p'.inUse slew s.now / nsUnit / 1000000000))
    else s
  let ref := c.epochRef
  let lock : Bool := ref ≠ 0 && s.live.ptp.use = ref - 1 && (s.live.ptp.slot (ref - 1)).locked
  s.modEpc fun e => { e with refLock := lock, refLost := e.refLost || (e.refLock && !lock) }

/-- R33: the offset of a boundary from the multiples of the epoch period in the reference's time, in ns. -/
def State.refOffset (s : State) : Int :=
  let per := s.live.epc.periodMs * 1000000
  if per = 0 then 0
  else
    let r : Nat := s.live.ptp.inUse s.live.cst.slewPpb s.now / nsUnit % per
    if 2 * r ≤ per then r else (r : Int) - per

/-! Ports (R363, R373). -/

def Eth.port (e : Eth) (p : Nat) : Port := if p = 0 then e.port0 else e.port1
def Eth.setPort (e : Eth) (p : Nat) (x : Port) : Eth := if p = 0 then { e with port0 := x } else { e with port1 := x }

/-- Ingress and egress corrections. -/
def ingressNs (gig : Bool) : Int := if gig then 236 else 298
def egressNs (gig : Bool) : Int := if gig then 164 else 122
def Cst.asymNs (c : Cst) (p : Nat) : Int := s16 (c.netPort p) 22

/-- The network stack runs: the control processor is up, a port is configured and has a link, and the crystal is there (R23). -/
def State.portOn (s : State) (p : Nat) : Bool := decide (p < 2) && s.live.cst.portMode p ≠ 0 && (s.live.eth.port p).up && s.live.epc.casting
  && !s.live.sys.reserveOsc

/-! Masters and the servo (R374, R375). -/

/-- Whether a data set is better: the first difference decides; at equality ETH0 is preferred. -/
def betterSet : List Nat → List Nat → Option Bool
  | [], _ => none
  | _, [] => none
  | a :: as, b :: bs => if a < b then some true else if b < a then some false else betterSet as bs
def betterMaster (port : Nat) (ds : List Nat) (oldPort : Nat) (old : List Nat) : Bool :=
  match betterSet ds old with
  | some b => b
  | none => decide (port < oldPort)

/-- A slot back to ACQUIRING. -/
def PtpSlot.acquire (x : PtpSlot) : PtpSlot := { x with locked := false, acquired := false, small := 0 }

/-- A master that has sent neither Announce nor Sync for LOSS_S no longer stands against another one (log entry 86). -/
def PtpSlot.silent (x : PtpSlot) (lossS now : Nat) : Bool := decide (max x.heardAt x.syncAt + lossS * 1000000000 ≤ now)

/-- ANNOUNCE (R374): domainNumber, port, data set (priority1, class, accuracy, variance, priority2, grandmaster identity, steps
removed) and currentUtcOffset of an Announce message. -/
def execPtpAnnounce (d port dom : Nat) (ds : List Nat) (utc : Int) (s : State) : Host.Outcome State Fault Refusal :=
  if !s.portOn port ∨ !s.live.pwr.cpRunning ∨ d ≥ 2 ∨ s.live.cst.ptpMode d ≠ 1 ∨ dom ≠ u8 (s.live.cst.netPtp d) 0 then .next s
  else
    let x := s.live.ptp.slot d
    let gm := fun (l : List Nat) => l.getD 5 0
    let y := match x.master with
      | none => { x with master := some (port, ds), utcOfs := utc, heardAt := s.now }
      | some (q, old) =>
        if q = port ∧ gm old = gm ds then { x with master := some (port, ds), utcOfs := utc, heardAt := s.now }
        else if betterMaster port ds q old || x.silent (s.live.cst.lossS d) s.now then
          let y := { x with master := some (port, ds), utcOfs := utc, heardAt := s.now }
          if gm old = gm ds then y else y.acquire
        else x
    .next (s.modPtp fun p => p.setSlot d y).settlePtp

/-- The addend of a rate y in ppb (R375), rounded to the nearest integer. -/
def addendOf (y : Dy) : Nat :=
  let k := (-y.e).toNat
  let m := if 0 ≤ y.e then y.m * 2 ^ y.e.toNat else y.m
  (divHalfEven (0xA0000000 * ((1000000000 * 2 ^ k : Nat) - m)) (1000000000 * 2 ^ k)).toNat

/-- A dyadic limited to a symmetric bound. -/
def Dy.limit (y : Dy) (b : Nat) : Dy := if !(y.le { m := b }) then { m := b } else if !(({ m := -(b : Int) } : Dy).le y) then { m := -(b : Int) } else y

/-- A dyadic as an integer, rounded half to even and saturating as a signed 32-bit number. -/
def Dy.ns32 (y : Dy) : Int := clampInt (-(2 ^ 31)) (2 ^ 31 - 1) (y.scaleRound 1 1)

/-- SYNC (R375): a Sync, or a Follow_Up `ago` ns after its Sync, of slot `d` on a port: t1, the correction, and log2 of the Sync
interval. -/
def execPtpSync (d port : Nat) (t1 corr logI : Int) (ago : Nat) (s : State) : Host.Outcome State Fault Refusal :=
  let x := s.live.ptp.slot d
  if d ≥ 2 ∨ s.live.cst.ptpMode d ≠ 1 ∨ !s.portOn port ∨ !s.live.pwr.cpRunning ∨ x.master.map Prod.fst ≠ some port then .next s
  else
    let t2 := x.stamp (s.now - ago) - ingressNs (s.live.eth.port port).gig - s.live.cst.asymNs port
    let dl := x.delta.getD {}
    let theta := ({ m := t2 - t1 - corr } : Dy).add { dl with m := -dl.m }
    let mag : Dy := { theta with m := theta.m.natAbs }
    let x := { x with t1 := t1, t2 := t2, syncAt := s.now - ago, theta := theta.ns32 }
    let n := if !(({ m := 1000 } : Dy).le mag) then x.small + 1 else 0
    if x.servoOff then .next (s.modPtp fun p => p.setSlot d x)
    else if !x.acquired ∨ !(mag.le { m := s.live.cst.stepUs d * 1000 }) then
      let s := s.modPtp fun p => p.setSlot d { x with acquired := true, small := n }
      .next (s.modPtp fun p => p.stepClock d (-((theta.mul { m := 1, e := 28 }).scaleRound 1 1)) s.live.cst.slewPpb s.now).settlePtp
    else
      let rate : Dy := { theta with e := theta.e - logI }
      let gain := fun (o : Nat) => (rate.mul { m := u32 (s.live.cst.netPtp d) o, e := -16 })
      let y := ((gain 8).add x.integral).limit 500000
      let lock : Bool := x.locked || decide (8 ≤ n)
      let x := { (x.rebase s.now) with
        integral := x.integral.add (gain 12), addend := addendOf y, small := n
        lockedAt := if lock && !x.locked then s.now else x.lockedAt, locked := lock, wasLocked := x.wasLocked || lock }
      .next (s.modPtp fun p => p.setSlot d x).settlePtp

/-- DELAY_REQ (R374, R378): the slot sends a Delay_Req; its time-stamp enters the port's queue, or is dropped. -/
def execDelayReq (d : Nat) (s : State) : Host.Outcome State Fault Refusal :=
  let x := s.live.ptp.slot d
  match x.master with
  | none => .next s
  | some (port, _) =>
    if d ≥ 2 ∨ s.live.cst.ptpMode d ≠ 1 ∨ !s.portOn port ∨ !s.live.pwr.cpRunning then .next s
    else
      let q := s.live.eth.port port
      let t3 := x.stamp s.now + egressNs q.gig
      let full : Bool := decide (16 ≤ q.tsq.length)
      let q := { q with tx := sat32 q.tx, ovf := q.ovf || full, tsq := if full then q.tsq else q.tsq ++ [(x.dseq, d, 1, t3)] }
      let s := (s.send (.eth 3 [d, port, x.dseq])).modEth fun e => e.setPort port q
      .next (s.modPtp fun p => { (p.setSlot d { x with dseq := (x.dseq + 1) % 65536 }) with
        tsqDrop := if full then satAdd 16 p.tsqDrop 1 else p.tsqDrop })

/-- R378: the servo takes the time-stamp of a request out of the queue, and with it those of its slot's earlier requests (log entry 86). -/
def tsqAfter (l : List (Nat × Nat × Nat × Int)) (d seq : Nat) : List (Nat × Nat × Nat × Int) :=
  let i := l.findIdx fun e => e.1 = seq && e.2.1 = d
  (l.take i).filter (fun e => e.2.1 ≠ d) ++ l.drop (i + 1)

/-- DELAY_RESP (R375): the Delay_Resp to request `seq` with t4; without its time-stamp the mean path delay is kept. -/
def execDelayResp (d seq : Nat) (t4 : Int) (s : State) : Host.Outcome State Fault Refusal :=
  let x := s.live.ptp.slot d
  match x.master with
  | none => .next s
  | some (port, _) =>
    let q := s.live.eth.port port
    match q.tsq.find? fun e => e.1 = seq ∧ e.2.1 = d with
    | none => .next s
    | some e =>
      if d ≥ 2 ∨ s.live.cst.ptpMode d ≠ 1 ∨ !s.live.pwr.cpRunning then .next s
      else
        let new : Dy := { m := (x.t2 - x.t1) - (t4 - e.2.2.2), e := -1 }
        let dl := match x.delta with
          | none => new
          | some old =>
            let diff := new.add { old with m := -old.m }
            old.add { diff with e := diff.e - 3 }
        let s := s.modEth fun n => n.setPort port { q with tsq := tsqAfter q.tsq d seq }
        .next (s.modPtp fun p => p.setSlot d { x with delta := some dl })

/-- PTP_SYNC_LOSS (R375): no Sync for LOSS_S. -/
def execPtpSyncLoss (d : Nat) (s : State) : Host.Outcome State Fault Refusal :=
  let x := s.live.ptp.slot d
  if d < 2 ∧ s.live.cst.ptpMode d = 1 ∧ (x.locked ∨ x.acquired) ∧ x.syncAt + s.live.cst.lossS d * 1000000000 ≤ s.now then
    .next (s.modPtp fun p => p.setSlot d x.acquire).settlePtp
  else .next s

/-- PTP_RETURN (R377): PREF has been LOCKED for RETURN_S. -/
def execPtpReturn (s : State) : Host.Outcome State Fault Refusal :=
  let p := s.live.ptp
  let d := s.live.cst.ptpPref
  let x := p.slot d
  if p.use ≠ d ∧ s.live.cst.ptpOn d ∧ x.locked ∧ x.lockedAt + s.live.cst.returnS d * 1000000000 ≤ s.now then
    .next (s.modPtp fun p => p.follow d s.live.cst.slewPpb s.now).settlePtp
  else .next s

/-- PTP_ARMED_LOAD (R380): the armed clock has reached its first second boundary since the commit. -/
def execPtpArmedLoad (d : Nat) (s : State) : Host.Outcome State Fault Refusal :=
  let x := s.live.ptp.slot d
  match x.armed with
  | none => .next s
  | some (sec0, load) =>
    if d < 2 ∧ sec0 < x.ns s.now / 1000000000 then
      let target : Int := ((load * 1000000000 * nsUnit : Nat) : Int)
      let s := s.modPtp fun p => p.setSlot d { x with armed := none, locked := true, wasLocked := true, lockedAt := if x.locked then x.lockedAt else s.now }
      .next (s.modPtp fun p => p.stepClock d (target - x.value s.now) s.live.cst.slewPpb s.now).settlePtp
    else .next s

/-- R380: the load bank as seconds and nanoseconds. -/
def Ptp.loadSec (p : Ptp) : Nat := p.loadSl.toNat + p.loadSh.toNat % 65536 * 2 ^ 32

/-- R380: ARM and STEP of PTP_LOAD_CTRL at their commit; a load the rule forbids is dropped and counted. -/
def State.ptpLoad (s : State) (src : Source) (w : Word) : State :=
  let d := s.live.ptp.loadClock
  let ns := s.live.ptp.loadNs.toNat
  let x := s.live.ptp.slot d
  if s.live.cst.ptpMode d ≠ 2 ∨ 1000000000 ≤ ns then s.werr 0x356C src .value
  else if bit w 1 then
    s.modPtp fun p => p.setSlot d { x with armed := some (x.ns s.now / 1000000000, p.loadSec) }
  else
    let target : Int := (((s.live.ptp.loadSec * 1000000000 + ns) * nsUnit : Nat) : Int)
    let s := s.modPtp fun p => p.setSlot d { x with armed := none, locked := true, wasLocked := true, lockedAt := if x.locked then x.lockedAt else s.now }
    (s.modPtp fun p => p.stepClock d (target - x.value s.now) s.live.cst.slewPpb s.now).settlePtp

/-! Captures and registers (R379). -/

/-- The seconds and nanoseconds of the three clocks. -/
def State.clockNs (s : State) (c : Nat) : Nat :=
  if c < 2 then (s.live.ptp.slot c).ns s.now else s.live.ptp.inUse s.live.cst.slewPpb s.now / nsUnit

/-- CAPTURE of a source in a transaction: the first of a transaction latches all clocks, a further one is ignored and counted. -/
def State.ptpCapture (s : State) (src : Source) (txn : Nat) : State :=
  let k := srcCode src
  if tfind s.live.ptp.capTxn k = some txn then s.werr 0x3528 src .state
  else s.modPtp fun p => { p with
    capTxn := tset p.capTxn k txn
    banks := (List.range 3).foldl (fun b c => tset b (k * 3 + c) (s.clockNs c / 1000000000, s.clockNs c % 1000000000)) p.banks }

/-- A capture register as its source reads it. -/
def Ptp.capWord (p : Ptp) (src : Source) (c r : Nat) : Word :=
  match tfind p.banks (srcCode src * 3 + c) with
  | none => 0
  | some (sec, ns) => if r = 0 then word sec else if r = 4 then word (sec / 2 ^ 32 % 65536) else pack [(0, 30, ns), (31, 1, 1)]

/-- The state code of a slot in PTP_STATUS: off, acquiring, locked, holdover. -/
def Ptp.stCode (p : Ptp) (c : Cst) (d : Nat) : Nat :=
  if !c.ptpOn d then 0 else if (p.slot d).locked then 2 else if p.use = d ∧ (p.slot d).wasLocked ∧ !(p.slot (1 - d)).locked then 3 else 1

/-- The PTP_ registers at 0x3500; `live` gives the capture banks. -/
def readPtp (k live : Core) (src : Source) (addr : Nat) : Word :=
  let p := k.ptp
  let at_ := k.epc.boundaryAt
  let port := fun d => match (p.slot d).master with
    | some (q, _) => q
    | none => 0
  let o := p.ofsNow k.cst.slewPpb at_
  match addr with
  | 0x3500 => pack [(0, 2, p.stCode k.cst 0), (2, 1, port 0), (3, 2, p.stCode k.cst 1), (5, 1, port 1), (6, 1, p.use), (7, 1, (o ≠ 0 : Bool).toNat),
      (8, 1, p.stepped.toNat), (9, 1, k.eth.port0.ovf.toNat), (10, 1, k.eth.port1.ovf.toNat), (11, 1, p.switchSeen.toNat)]
  | 0x3504 => wordInt p.slot0.theta
  | 0x3508 => wordInt p.slot1.theta
  | 0x350C => wordInt ((p.slot0.delta.getD {}).ns32)
  | 0x3510 => wordInt ((p.slot1.delta.getD {}).ns32)
  | 0x3514 => word p.slot0.addend
  | 0x3518 => word p.slot1.addend
  | 0x351C => wordInt (clampInt (-(2 ^ 31)) (2 ^ 31 - 1) (o.fdiv (ofsScale * nsUnit)))
  | 0x3520 => pack [(0, 5, k.eth.port0.tsq.length), (8, 5, k.eth.port1.tsq.length), (16, 16, p.tsqDrop)]
  | 0x3524 => pack [(0, 1, p.slot0.servoOff.toNat), (1, 1, p.slot1.servoOff.toNat)]
  | 0x3560 => p.loadSl
  | 0x3564 => p.loadSh
  | 0x3568 => p.loadNs
  | 0x356C => word p.loadClock
  | _ => if 0x3530 ≤ addr ∧ addr < 0x3560 then live.ptp.capWord src ((addr - 0x3530) / 16) (addr % 16) else 0

/-- A staged write of a PTP_ register at its commit; commands act on what the same commit has stored. -/
def State.commitPtp (s : State) (src : Source) (addr : Nat) (w : Word) : State :=
  match addr with
  | 0x3500 => (s.modPtp fun p => { p with switchSeen := p.switchSeen && !bit w 11 }).modEth fun e => { e with
      port0 := { e.port0 with ovf := e.port0.ovf && !bit w 9 }, port1 := { e.port1 with ovf := e.port1.ovf && !bit w 10 } }
  | 0x3524 =>
    s.modPtp fun p => { p with
      slot0 := { p.slot0 with servoOff := bit w 0 }, slot1 := { p.slot1 with servoOff := bit w 1 }
      tsqDrop := if bit w 2 then 0 else p.tsqDrop }
  | 0x3560 => s.modPtp fun p => { p with loadSl := w }
  | 0x3564 => s.modPtp fun p => { p with loadSh := w }
  | 0x3568 => s.modPtp fun p => { p with loadNs := w }
  | 0x356C =>
    let s := s.modPtp fun p => { p with loadClock := field w 0 0 }
    if bit w 1 || bit w 2 then s.ptpLoad src w else s
  | 0x3514 | 0x3518 =>
    let d := if addr = 0x3514 then 0 else 1
    let x := s.live.ptp.slot d
    if x.servoOff then s.modPtp fun p => p.setSlot d { (x.rebase s.now) with addend := w.toNat } else s.werr addr src .value
  | _ => s

/-- Fixed rules of the PTP_ writes (R376, R380), against the poured state `k`. -/
def checkPtp (k : Core) (ws : List (Nat × Word)) (addr : Nat) (w : Word) : Bool :=
  let ns := ((ws.reverse.find? fun x => x.1 = 0x3568).map Prod.snd).getD k.ptp.loadNs
  match addr with
  | 0x356C => !(bit w 1 && bit w 2) && (!(bit w 1 || bit w 2) || (k.cst.ptpMode (field w 0 0) = 2 && decide (ns.toNat < 1000000000)))
  | 0x3514 => k.ptp.slot0.servoOff
  | 0x3518 => k.ptp.slot1.servoOff
  | _ => true

/-- R372: at the pour of epoch 0 every clock is loaded from a capture of the calendar. -/
def State.startPtp (s : State) : State :=
  let ns := s.live.clk.counts * 1000000000 / 32768
  let slot := fun (x : PtpSlot) => ({ clk := ns * nsUnit, at_ := s.now / 10 * 10, addend := x.addend, dseq := 0 } : PtpSlot)
  s.modPtp fun p => { p with
    slot0 := slot {}, slot1 := slot {}, use := s.live.cst.ptpPref, ofs := 0, ofsAt := s.now / 10 * 10, stepped := false }

end Sys2Proof.Machine
end

