-- ==== Sys2Proof/Machine/Calendar.lean ====
section
/-! DEFINITION. Calendar and backup domain (spec/15): the backup clock and its trim, steps and loads, references, alarms,
captures, the CLK_ registers. -/

namespace Sys2Proof.Machine

open Sys2Proof

/-! The backup clock (R414, R423). -/

/-- The total correction per cycle in 2^-24 counts: temperature term plus reference term (0 in BACKUP), at most 500 ppm. -/
def Clk.correction (c : Clk) (backup : Bool) : Int :=
  divHalfEven (clampInt (-(500 * 65536)) (500 * 65536) (c.trimT + if backup then 0 else c.trimR) * 256) 1000000

/-- One backup-clock cycle: a carry of the accumulator inserts a count, a borrow drops one. -/
def Clk.cycle (c : Clk) (backup : Bool) : Clk :=
  let a := c.trimAcc + c.correction backup
  if 2 ^ 24 ≤ a then { c with counts := c.counts + 2, trimAcc := a - 2 ^ 24 }
  else if a ≤ -(2 ^ 24) then { c with trimAcc := a + 2 ^ 24 }
  else { c with counts := c.counts + 1, trimAcc := a }

/-- Time passes: `ns` nanoseconds, fewer than one cycle of the backup clock. -/
def Clk.advance (c : Clk) (ns : Nat) (backup : Bool) : Clk :=
  let p := c.phase + ns * 32768
  if p < 1000000000 then { c with phase := p } else { c with phase := p - 1000000000 }.cycle backup

/-- TEMPERATURE_TRIM (R423): the temperature in Q16.16 degrees C is read and the term follows the factory curve. -/
def curveAt (curve : List Int) (temp : Int) : Int :=
  let k := (clampInt 0 7 ((temp + 40 * 65536).fdiv (15 * 65536))).toNat
  let c0 := curve.getD k 0
  c0 + divHalfEven ((curve.getD (k + 1) 0 - c0) * (temp + 40 * 65536 - (k : Int) * (15 * 65536))) (15 * 65536)

def execTemperatureTrim (temp : Int) (s : State) : Host.Outcome State Fault Refusal :=
  .next ((s.modClk fun c => { c with temp := temp, trimT := -(curveAt c.curve temp) }).modSys fun x =>
    { x with tempModule := divHalfEven (temp * 10) 65536 })

/-! Alarms (R427 to R430). -/

/-- The first instant at or after a second. -/
def Alarm.firstFrom (a : Alarm) (t : Nat) : Option Nat :=
  if t ≤ a.at_ then some a.at_
  else if a.periodic && decide (0 < a.period) then some (a.at_ + (t - a.at_ + a.period - 1) / a.period * a.period)
  else none

/-- The last instant at or before a second, `t` not before the first one. -/
def Alarm.lastUpTo (a : Alarm) (t : Nat) : Nat :=
  if a.periodic && decide (0 < a.period) then a.at_ + (t - a.at_) / a.period * a.period else a.at_

/-- ALARM_N is pulled low (R428). -/
def Clk.alarmN (c : Clk) : Bool := c.alarms.any fun p => p.2.wake && c.fired.testBit p.1

/-- The journal entry and the tag pulse of a firing. -/
def State.alarmSeen (s : State) (n : Nat) (tag : Nat) : State :=
  let s := s.journal 19 (ev1 n ++ ev2 (s.live.clk.late.testBit n).toNat (s.live.clk.rep.testBit n).toNat)
  if tag = 0 then s else s.modLgc fun x => { x with pulseTags := x.pulseTags ++ [tag] }

/-- An alarm fires (R428): `inst` its latest instant that fires, `next` the instant that follows. -/
def State.fireAlarm (s : State) (n inst : Nat) (late : Bool) (next : Option Nat) : State :=
  let a := tget s.live.clk.alarms n {}
  let rep : Bool := a.periodic && a.lastFired.any fun l => decide (inst ≤ l)
  let backup : Bool := s.live.pwr.mode = .backup
  let b := { a with
    armed := next.isSome, next := next.getD a.next, late := false, owed := a.owed || backup
    lastFired := some (max inst (a.lastFired.getD 0)) }
  let s := s.modClk fun c => { c with
    alarms := tset c.alarms n b
    fired := c.fired ||| 2 ^ n
    late := if late then c.late ||| 2 ^ n else c.late
    rep := if rep then c.rep ||| 2 ^ n else c.rep }
  if backup then s else s.alarmSeen n a.tag

/-- ALARM_FIRE (R428): a second boundary at or after the instant of an armed alarm. -/
def execAlarmFire (n : Nat) (s : State) : Host.Outcome State Fault Refusal :=
  let a := tget s.live.clk.alarms n {}
  if a.armed ∧ s.calSub = 0 ∧ a.next ≤ s.calSec then
    .next (s.fireAlarm n a.next a.late (if a.periodic then a.firstFrom (a.next + 1) else none))
  else .next s

/-- R429: what a step from `old` to `new` counts does to an armed alarm. -/
def State.stepAlarm (s : State) (old new n : Nat) : State :=
  let a := tget s.live.clk.alarms n {}
  let up := (new + 32767) / 32768
  if !a.armed then s
  else if old < new ∧ a.next * 32768 ≤ new then
    let inst := a.lastUpTo (new / 32768)
    s.fireAlarm n inst (decide (a.next * 32768 < new)) (if a.periodic then a.firstFrom (max up (inst + 1)) else none)
  else if a.periodic then
    s.modClk fun c => { c with alarms := tset c.alarms n { a with next := (a.firstFrom up).getD a.next } }
  else s

/-- R430: an alarm armed at the present calendar time. -/
def State.armAlarm (s : State) (n : Nat) : State :=
  let a := tget s.live.clk.alarms n {}
  if !a.conf then s
  else
    let b := match a.firstFrom (s.calSec + 1) with
      | some t => { a with armed := true, next := t, late := false }
      | none => { a with armed := true, next := a.at_, late := true }
    s.modClk fun c => { c with alarms := tset c.alarms n b }

/-- R430: an alarm disarmed. -/
def State.disarmAlarm (s : State) (n : Nat) : State :=
  s.modClk fun c => { c with alarms := tmod c.alarms n {} fun a => { a with armed := false, late := false } }

/-! Steps (R419). -/

/-- The calendar takes a value. When it differs from the running count it is a step: STEP_SEEN, journalled, and the
intervals and alarms follow. A reference window starts anew (log entry 31). -/
def State.stepTo (s : State) (new : Nat) : State :=
  let old := s.live.clk.counts
  if new = old then s
  else
    let s := s.journal 18 (ev1 0 ++ leBytes 7 (old / 32768) ++ leBytes 8 (new / 32768))
    let s := s.modClk fun c => { c with counts := new, stepSeen := true, winRef := 0 }
    let s := s.stepIntervals (old / 32768) (new / 32768)
    (List.range 16).foldl (fun s n => s.stepAlarm old new n) s

/-- LOAD_SEC of R418. -/
def Clk.loadSec (c : Clk) : Nat := c.loadSl.toNat + c.loadSh.toNat % 65536 * 2 ^ 32

/-- A host load or an automatic step (R415): INVALID clears. -/
def State.loadCalendar (s : State) (new : Nat) : State :=
  (s.stepTo new).modClk fun c => { c with invalid := false, autoStep := false }

/-- CALENDAR_ARMED_LOAD (R418): the first second boundary after the commit of ARM. -/
def execCalendarArmedLoad (s : State) : Host.Outcome State Fault Refusal :=
  match s.live.clk.armed with
  | some t =>
    if s.calSub = 0 ∧ s.live.clk.counts ≠ s.live.clk.armedAt then .next ((s.modClk fun c => { c with armed := none }).loadCalendar (t * 32768))
    else .next s
  | none => .next s

/-- CALENDAR_SYNC_STEP (R416): a standby's difference of more than 1 s is removed at a second boundary. -/
def execCalendarSyncStep (s : State) : Host.Outcome State Fault Refusal :=
  match s.live.clk.pairStep with
  | some d =>
    if s.calSub = 0 ∧ s.live.clk.counts ≠ s.live.clk.pairAt then
      .next ((s.modClk fun c => { c with pairStep := none }).stepTo ((s.live.clk.counts : Int) + d).toNat)
    else .next s
  | none => .next s

/-- R415: the calendar restarted at the entry into LOAD, from the newest valid accumulator copy, or 0. -/
def State.restartCalendar (s : State) : State :=
  if !s.live.clk.invalid then s
  else s.stepTo (match s.live.nrg.newest with
    | some f => f.counts
    | none => 0)

/-! Local time (R422). -/

/-- DST_TRANSITION (R422): the local offset changes; no step. -/
def execDstTransition (s : State) : Host.Outcome State Fault Refusal :=
  .next (s.modClk fun c => { c with dst := s.live.cst.dstAt s.calSec })

/-! References (R424 to R426). -/

/-- The reference that trims the calendar: 0 none, 1 mains, 2 PTP. -/
def State.calRef (s : State) : Nat :=
  let src := u8 s.live.cst.calGlobal 0
  let p := s.live.ptp
  let locked : Bool := s.live.cst.ptpOn p.use && (p.slot p.use).locked
  if !s.live.epc.casting then 0
  else if (src = 2 ∨ src = 3) ∧ locked then 2
  else if src = 1 ∨ src = 3 then 1
  else 0

/-- The edge count of the mains channel (R424): FCH_COUNT of a PULSE channel, rising edges of a DIN channel. -/
def State.mainsEdges (s : State) : Nat :=
  let n := u8 s.live.cst.calGlobal 1
  if chType (s.chRec n) = 5 then (s.chan n).count else (s.chan n).rises

/-- The calendar minus the clock in use as UTC, in counts (R425). -/
def State.ptpDiff (s : State) : Int :=
  let p := s.live.ptp
  let ns : Int := ((p.inUse s.live.cst.slewPpb s.now / nsUnit : Nat) : Int) - (p.slot p.use).utcOfs * 1000000000
  (s.live.clk.counts : Int) - (ns * 32768).fdiv 1000000000

/-- A reference window begins. -/
def State.openWindow (s : State) : State :=
  let r := s.calRef
  let n := u8 s.live.cst.calGlobal 1
  let s := if r = 1 then s.setChan n { s.chan n with winFault := (s.chan n).fault } else s
  s.modClk fun c => { c with winRef := r, winStart := s.calSec, winBase := s.mainsEdges, winDiff := if r = 2 then s.ptpDiff else 0 }

/-- When the reference in use changes, its window begins; called at every boundary and by the commands below. -/
def State.settleRef (s : State) : State := if s.calRef = s.live.clk.winRef then s else s.openWindow

/-- R424: R + e / 2 limited to 50 ppm, e = num / den in units of 1 (not ppm). -/
def Clk.trimBy (c : Clk) (num : Int) (den : Nat) (sec : Nat) : Clk :=
  { c with
    trimR := clampInt (-(50 * 65536)) (50 * 65536) (c.trimR + divHalfEven (num * (1000000 * 65536)) (2 * den))
    lastValid := sec, timedOut := false }

/-- WINDOW_S. -/
def State.windowS (s : State) : Nat := u16 s.live.cst.calGlobal 4

/-- MAINS_WINDOW (R424): the end of a window of WINDOW_S calendar seconds. -/
def execMainsWindow (s : State) : Host.Outcome State Fault Refusal :=
  let s := s.settleRef
  let c := s.live.clk
  if c.winRef ≠ 1 ∨ s.calSec < c.winStart + s.windowS ∨ s.windowS = 0 then .next s
  else
    let count : Nat := (s.mainsEdges + 2 ^ 32 - c.winBase) % 2 ^ 32
    let want : Nat := u8 s.live.cst.calGlobal 2 * s.windowS
    let ch := s.chan (u8 s.live.cst.calGlobal 1)
    let err : Int := (count : Int) - (want : Int)
    let ok : Bool := !ch.winFault && !ch.fault && decide (err.natAbs * 100 ≤ want)
    .next ((if ok then s.modClk fun c => c.trimBy err want s.calSec else s).openWindow)

/-- PTP_REFERENCE_COMPARE (R425): at a second boundary, the difference to the clock in use; R over the window. -/
def execPtpReferenceCompare (s : State) : Host.Outcome State Fault Refusal :=
  let s := s.settleRef
  let c := s.live.clk
  if c.winRef ≠ 2 ∨ s.calSub ≠ 0 then .next s
  else
    let d := s.ptpDiff
    let stepMs := u16 s.live.cst.calGlobal 6
    let due : Bool := stepMs ≠ 0 && decide (stepMs * 32768 < d.natAbs * 1000)
    let s := if due then s.modClk fun c => { c with autoStep := true, autoAt := if c.autoStep then c.autoAt else c.counts } else s
    if s.windowS ≠ 0 ∧ c.winStart + s.windowS ≤ s.calSec then
      .next ((s.modClk fun x => x.trimBy (c.winDiff - d) (s.windowS * 32768) s.calSec).openWindow)
    else .next s

/-- AUTOMATIC_STEP (R425): the second boundary after the comparison; a host load that falls due in the same second wins
(R418). -/
def execAutomaticStep (s : State) : Host.Outcome State Fault Refusal :=
  if s.live.clk.autoStep ∧ s.calSub = 0 ∧ s.live.clk.counts ≠ s.live.clk.autoAt ∧ s.calRef = 2 ∧ s.live.clk.armed.isNone then
    .next (s.loadCalendar ((s.live.clk.counts : Int) - s.ptpDiff).toNat)
  else .next s

/-- REFERENCE_TIMEOUT (R426): 24 h of calendar time without a valid window. -/
def execReferenceTimeout (s : State) : Host.Outcome State Fault Refusal :=
  if s.live.clk.lastValid + 86400 ≤ s.calSec ∧ !s.live.clk.timedOut then
    .next (s.modClk fun c => { c with trimR := 0, refLost := true, timedOut := true })
  else .next s

/-! Supply of the backup domain (R411, R412). -/

/-- VBAK_SWITCH (R411): the internal rail, in mV, has fallen below VBAK or 2.5 V. -/
def execVbakSwitch (railMv vbakMv : Nat) (s : State) : Host.Outcome State Fault Refusal :=
  if !s.live.clk.onVbak ∧ (railMv < vbakMv ∨ railMv < 2500) then
    .next (s.modClk fun c => { c with onVbak := true, loss := some c.counts, owedLoss := true })
  else .next s

/-- VBAK_RETURN (R411): the rail is above VBAK + 60 mV and above 2.56 V. Both moves are journalled here, when the
management plane has its supply again (log entry 32). -/
def execVbakReturn (railMv vbakMv : Nat) (s : State) : Host.Outcome State Fault Refusal :=
  if s.live.clk.onVbak ∧ vbakMv + 60 < railMv ∧ 2560 < railMv then
    let s := if s.live.clk.owedLoss then s.journal 8 (ev1 1) else s
    .next ((s.journal 8 (ev1 2)).modClk fun c => { c with onVbak := false, owedLoss := false, ret := some c.counts })
  else .next s

/-- VBAK_MEASURE (R412): every 60 s. -/
def execVbakMeasure (mv : Nat) (s : State) : Host.Outcome State Fault Refusal :=
  .next (s.modClk fun c => { c with vbakMv := mv, battLow := decide (mv < 2200) })

/-- BACKUP_DOMAIN_LOSS (R412): both supplies lost; the domain restarts with its reset values and INVALID set. The tamper
latch and counts are kept in this domain too (R462). -/
def execBackupDomainLoss (s : State) : Host.Outcome State Fault Refusal :=
  .next ((s.modClk fun c => { ({} : Clk) with
      curve := c.curve
      alarms := c.alarms.map fun p => (p.1, { p.2 with armed := false, next := 0, lastFired := none, owed := false, late := false })
      capYra := c.capYra, capYml := c.capYml, capDbg := c.capDbg, capTxn := c.capTxn
      loadSl := c.loadSl, loadSh := c.loadSh, loadSub := c.loadSub, onVbak := c.onVbak
      low0 := c.low0, low1 := c.low1, active0 := c.active0, active1 := c.active1 }).modSec fun x => { x with
    tStart := false, tLoad := false, tSleep := false, tRun := false, tKeyop := false, ackPending := false, tamperCount := 0
    armedCopy := false })

/-! Epoch 0 and the boundary. -/

/-- R420, R427: the alarms at epoch 0; ARM arms, what fired in BACKUP is journalled and pulses its tag (R428). -/
def State.startCalendar (s : State) : State :=
  let s := (List.range 16).foldl (fun s n =>
    let b := (s.live.cst.rec? 0x90 0x902 n).getD []
    let a := tget s.live.clk.alarms n {}
    let s := if a.owed then s.alarmSeen n a.tag else s
    let a := { a with owed := false }
    if b = [] then s.modClk fun c => { c with alarms := tset c.alarms n { a with conf := false, armed := false, wake := false } }
    else
      let at_ := u64 b 4
      let per := u32 b 12
      let same : Bool := a.conf && a.at_ = at_ && a.period = per
      let a := { a with
        conf := true, periodic := u8 b 0 = 2, wake := (u8 b 1).testBit 0, at_ := at_, period := per, tag := u32 b 16
        armed := a.armed && same, lastFired := if same then a.lastFired else none }
      let s := s.modClk fun c => { c with alarms := tset c.alarms n a }
      if (u8 b 1).testBit 1 && !a.armed then s.armAlarm n else s) s
  (s.modClk fun c => { c with winRef := 0, armed := none, autoStep := false, pairStep := none, dst := s.live.cst.dstAt s.calSec }).settleRef

/-- R416: the calendar latched at a boundary; the value of the active unit comes with its EPOCH frame. -/
def State.latchCalendar (s : State) : State :=
  (s.modClk fun c => { c with bound := some c.counts, pairValue := none, dst := s.live.cst.dstAt s.calSec }).settleRef

/-! Captures and registers (R417). -/

def Clk.cap (c : Clk) : Source → ClkCapture
  | .yml => c.capYml
  | .dbg => c.capDbg
  | _ => c.capYra

/-- CAPTURE of a source in a transaction (R417): a second one in a transaction is ignored and counted. -/
def State.clkCapture (s : State) (src : Source) (txn : Nat) : State :=
  let k := srcCode src
  if tfind s.live.clk.capTxn k = some txn then s.werr 0x3C20 src .state
  else
    let sec := s.calSec
    let v : ClkCapture := {
      counts := s.live.clk.counts, valid := true, ofsMin := s.live.cst.localOfs sec, dst := s.live.cst.dstAt sec
      wday := weekday (s.live.cst.localDay sec), minute := s.live.cst.localMinute sec }
    s.modClk fun c =>
      let c := { c with capTxn := tset c.capTxn k txn }
      match src with
      | .yml => { c with capYml := v }
      | .dbg => { c with capDbg := v }
      | _ => { c with capYra := v }

/-- The three words of a stamp: SL, SH, SUB with VALID in bit 31. -/
def stampWord (c : Option Nat) (r : Nat) : Word :=
  match c with
  | none => 0
  | some n =>
    match r with
    | 0 => word (n / 32768)
    | 1 => word (n / 32768 / 2 ^ 32 % 65536)
    | _ => pack [(0, 15, n % 32768), (31, 1, 1)]

/-- The CLK_ registers at 0x3C00; `live` gives the capture banks. -/
def readClk (k live : Core) (src : Source) (addr : Nat) : Word :=
  let c := k.clk
  let ref := if c.pairValue.isSome then 3 else ({ live := k } : State).calRef
  let cap := live.clk.cap src
  match addr with
  | 0x3C00 => pack [(0, 1, c.invalid.toNat), (1, 1, c.battLow.toNat), (2, 2, ref), (4, 1, c.refLost.toNat), (5, 1, c.stepSeen.toNat), (6, 1, c.dst.toNat)]
  | 0x3C04 => wordInt c.trimT
  | 0x3C08 => wordInt c.trimR
  | 0x3C0C => wordInt c.temp
  | 0x3C10 => pack [(0, 12, c.vbakMv)]
  | 0x3C24 => if cap.valid then stampWord (some cap.counts) 0 else 0
  | 0x3C28 => if cap.valid then stampWord (some cap.counts) 1 else 0
  | 0x3C2C => if cap.valid then stampWord (some cap.counts) 2 else 0
  | 0x3C30 => pack [(0, 12, (cap.ofsMin % 4096).toNat), (12, 1, cap.dst.toNat), (13, 3, cap.wday), (16, 11, cap.minute)]
  | 0x3C40 => c.loadSl
  | 0x3C44 => word (c.loadSh.toNat % 65536)
  | 0x3C48 => word (c.loadSub.toNat % 32768)
  | 0x3C8C => word (c.tampSrc % 4)
  | 0x3C90 => word c.fired
  | 0x3C94 => word c.late
  | 0x3C98 => word c.rep
  | 0x3CA0 =>
    word (c.alarms.foldl (fun w p => w ||| (if p.2.armed then 2 ^ p.1 else 0) ||| (if p.2.conf then 2 ^ (16 + p.1) else 0)) 0)
  | _ =>
    if 0x3C50 ≤ addr ∧ addr < 0x3C5C then stampWord c.bound ((addr - 0x3C50) / 4)
    else if 0x3C60 ≤ addr ∧ addr < 0x3C6C then stampWord c.loss ((addr - 0x3C60) / 4)
    else if 0x3C6C ≤ addr ∧ addr < 0x3C78 then stampWord c.ret ((addr - 0x3C6C) / 4)
    else if 0x3C80 ≤ addr ∧ addr < 0x3C8C then stampWord c.tamp ((addr - 0x3C80) / 4)
    else if 0x3CC0 ≤ addr ∧ addr < 0x3CE4 then wordInt (c.curve.getD ((addr - 0x3CC0) / 4) 0)
    else if 0x3D00 ≤ addr ∧ addr < 0x3D80 then tget c.bkp ((addr - 0x3D00) / 4) 0
    else 0

/-- Rules of the CLK_ writes, with the writes of the transaction (R418, R430). -/
def checkClk (k : Core) (ws : List (Nat × Word)) (addr : Nat) (w : Word) : Bool :=
  match addr with
  | 0x3C4C =>
    let sub := ((ws.filter fun x => x.1 = 0x3C48).getLast?.map fun x => x.2.toNat).getD k.clk.loadSub.toNat
    !(bit w 0 && bit w 1) && (!(bit w 0 || bit w 1) || decide (sub ≤ 32767))
  | 0x3C9C => w.toNat % 65536 &&& w.toNat / 65536 = 0
  | _ => true

/-- CLK_LOAD_CTRL at its commit (R418). -/
def State.clkLoad (s : State) (src : Source) (w : Word) : State :=
  if 32767 < s.live.clk.loadSub.toNat then s.werr 0x3C4C src .value
  else if bit w 1 then
    (s.modClk fun c => { c with armed := none }).loadCalendar (s.live.clk.loadSec * 32768 + s.live.clk.loadSub.toNat)
  else if bit w 0 then s.modClk fun c => { c with armed := some c.loadSec, armedAt := c.counts }
  else s

/-- CLK_ALM_CMD at its commit (R430). -/
def State.almCmd (s : State) (w : Word) : State :=
  (List.range 16).foldl (fun s n =>
    if bit w n then s.armAlarm n else if bit w (16 + n) then s.disarmAlarm n else s) s

/-- CLK_ALM_FIRED and its companions are W1C; clearing FIRED releases ALARM_N for the alarm (R428). -/
def clearBits (a : Nat) (w : Word) : Nat := a &&& (65535 - w.toNat % 65536)

/-- A staged write of a CLK_ register at its commit. -/
def State.commitClk (s : State) (src : Source) (addr : Nat) (w : Word) : State :=
  match addr with
  | 0x3C00 => s.modClk fun c => { c with refLost := c.refLost && !bit w 4, stepSeen := c.stepSeen && !bit w 5 }
  | 0x3C40 => s.modClk fun c => { c with loadSl := w }
  | 0x3C44 => s.modClk fun c => { c with loadSh := w }
  | 0x3C48 => s.modClk fun c => { c with loadSub := w }
  | 0x3C4C => s.clkLoad src w
  | 0x3C90 => s.modClk fun c => { c with fired := clearBits c.fired w }
  | 0x3C94 => s.modClk fun c => { c with late := clearBits c.late w }
  | 0x3C98 => s.modClk fun c => { c with rep := clearBits c.rep w }
  | 0x3C9C => s.almCmd w
  | _ => if 0x3D00 ≤ addr ∧ addr < 0x3D80 then s.modClk fun c => { c with bkp := tset c.bkp ((addr - 0x3D00) / 4) w } else s

end Sys2Proof.Machine
end

