-- ==== Sys2Proof/Machine/CanBus.lean ====
section
/-! DEFINITION. CAN FD segments (spec/14): reception, objects, mailboxes, clashes, sleep and wake, registers. -/

namespace Sys2Proof.Machine

open Sys2Proof

/-! Access. -/

def Can.mb (x : Can) (c m : Nat) : CanMb := tget x.mbs (c * 64 + m) {}
def State.modCtl (s : State) (c : Nat) (f : CanCtl → CanCtl) : State := s.modCan fun x => { x with ctls := tmod x.ctls c {} f }
def State.modObj (s : State) (c id : Nat) (f : CanObj → CanObj) : State :=
  s.modCan fun x => { x with objs := tmod x.objs (c * 2048 + id) {} f }
def State.modMb (s : State) (c m : Nat) (f : CanMb → CanMb) : State := s.modCan fun x => { x with mbs := tmod x.mbs (c * 64 + m) {} f }

def canMode (b : Bytes) : Nat := u8 b 0
def canWakeMode (b : Bytes) : Nat := u8 b 1
def canMbCount (b : Bytes) : Nat := u8 b 14
/-- OWNER of an object: 0 none, 1 foreign, 2 owned. -/
def Cst.canOwner (c : Cst) (k id : Nat) : Nat := ((c.canObj k id).map fun b => u8 b 0).getD 0

/-- The controllers operate (R392). -/
def State.canRuns (s : State) : Bool :=
  s.live.pwr.mode.running && s.live.epc.casting && s.live.epc.served && !s.live.sys.reserveOsc

/-- A frame may start (R404). -/
def State.canMayStart (s : State) (c : Nat) : Bool :=
  s.live.par.gate && !s.live.epc.dpAbsent && (canMode (s.live.cst.canCtrl c) = 1 || canMode (s.live.cst.canCtrl c) = 2)

/-- A controller that takes part in bus traffic as a sender. -/
def CanCtl.onBus (x : CanCtl) : Bool := x.state = 2 || x.state = 3

/-- Error active or passive from the counters. -/
def CanCtl.confine (x : CanCtl) : CanCtl :=
  if x.state = 2 ∨ x.state = 3 then { x with state := if 128 ≤ x.tec ∨ 128 ≤ x.rec_ then 3 else 2 } else x

/-! Pins (R407, R409, R410). -/

/-- What CANc_STB carries: high with the controller off and in sleep with WAKE_MODE 1; high-impedance in a reset and in BACKUP. -/
inductive CanStb where
  | highZ
  | high
  | low
deriving DecidableEq, Repr

/-- What CANc_TX carries: recessive where the controller sends nothing; high-impedance in a reset and in BACKUP. -/
inductive CanTx where
  | highZ
  | recessive
  | bus
deriving DecidableEq, Repr

def State.canStb (s : State) (c : Nat) : CanStb :=
  let x := s.live.can.ctl c
  if !s.live.pwr.powered ∨ s.live.pwr.inReset ∨ s.live.pwr.mode = .backup then .highZ
  else if x.state = 0 ∨ (x.state = 5 ∧ canWakeMode (s.live.cst.canCtrl c) = 1) then .high
  else .low

def State.canTx (s : State) (c : Nat) : CanTx :=
  let x := s.live.can.ctl c
  if !s.live.pwr.powered ∨ s.live.pwr.inReset ∨ s.live.pwr.mode = .backup then .highZ
  else if x.state = 0 ∨ x.state = 5 ∨ x.state = 6 then .recessive
  else .bus

/-! Requests (R401, R403, R404). -/

/-- The request of a mailbox ends with a result; a further request held becomes pending unless `drop`. -/
def CanMb.finish (x : CanMb) (result : Nat) (drop : Bool) : CanMb :=
  { x with state := if x.held && !drop then 1 else 0, held := false, cancel := false, result := result }

/-- Every request of a controller that is not on the bus any more ends; a frame in flight runs on. -/
def State.endRequests (s : State) (c result : Nat) : State :=
  (List.range (canMbCount (s.live.cst.canCtrl c))).foldl (fun s m =>
    if (s.live.can.mb c m).state = 1 then s.modMb c m fun x => x.finish result true
    else s.modMb c m fun x => { x with held := false }) s

/-- A request for a mailbox. -/
def State.canRequest (s : State) (c m : Nat) : State :=
  let b := s.live.cst.canCtrl c
  let id := u16 ((s.live.cst.canMb c m).getD []) 0
  let refuse := fun r => s.modMb c m fun x => { x with result := r }
  if canMode b = 3 ∨ [0, 5, 6].contains (s.live.can.ctl c).state ∨ (s.live.can.ctl c).sleepDue then refuse 6
  else if !s.live.par.gate then refuse 4
  else if (s.live.can.obj c id).quar then refuse 5
  else s.modMb c m fun x => if x.state = 0 then { x with state := 1 } else if x.state = 2 then { x with held := true } else x

/-- The mailbox that is ACTIVE, and the pending one with the lowest identifier. -/
def State.canActive (s : State) (c : Nat) : Option Nat :=
  (List.range (canMbCount (s.live.cst.canCtrl c))).find? fun m => (s.live.can.mb c m).state = 2
def State.canId (s : State) (c m : Nat) : Nat := u16 ((s.live.cst.canMb c m).getD []) 0
def State.canPending (s : State) (c : Nat) : Option Nat :=
  (List.range (canMbCount (s.live.cst.canCtrl c))).foldl (fun a m =>
    if (s.live.can.mb c m).state ≠ 1 then a
    else match a with
      | none => some m
      | some n => if s.canId c m < s.canId c n then some m else a) none

/-- The data a mailbox sends: LEN bytes. -/
def State.canData (s : State) (c m : Nat) : Bytes :=
  let n := u8 ((s.live.cst.canMb c m).getD []) 3
  let d := (s.live.can.mb c m).data
  d.take n ++ List.replicate (n - d.length) 0

/-- A controller with nothing of its own on the bus starts its lowest pending identifier (log entry 30). -/
def State.canOffer (s : State) (c : Nat) : State :=
  if !s.canRuns ∨ !(s.live.can.ctl c).onBus ∨ !s.canMayStart c ∨ (s.canActive c).isSome then s
  else match s.canPending c with
    | none => s
    | some m => (s.modMb c m fun x => { x with state := 2 }).send (.can c (s.canId c m) false (s.canData c m))

/-! Clashes and quarantine (R405, R406). -/

def State.canClash (s : State) (c id : Nat) : State :=
  let o := s.live.can.obj c id
  let n := min 3 (o.clashes + 1)
  let s := s.modCtl c fun x => { x with clash := sat32 x.clash, clashSeen := true }
  let s := s.modObj c id fun o => { o with clashes := n, good := 0 }
  if n = 3 ∧ !o.quar then
    let s := (s.modObj c id fun o => { o with quar := true }).journal 17 (ev2 c 1 ++ leBytes 2 id) true
    match s.live.cst.canMbOf c id with
    | some m => if (s.live.can.mb c m).state = 1 then s.modMb c m fun x => x.finish 5 true else s
    | none => s
  else s

/-- A frame of an identifier without error: 100 in a row clear the clash count. -/
def CanObj.noteGood (o : CanObj) : CanObj :=
  if 100 ≤ o.good + 1 then { o with good := 0, clashes := 0 } else { o with good := o.good + 1 }

/-! Reception (R393, R399). -/

/-- A frame stored in its object. -/
def State.canStore (s : State) (c : Nat) (f : CanFrame) : State :=
  let o := s.live.can.obj c f.id
  let e := s.live.epc.epoch
  let held : Bool := o.stored && o.epoch = e
  let s := s.modObj c f.id fun o => { o with
    data := f.data, fd := f.fd, brs := f.brs, esi := f.esi, lost := held, stored := true, frames := (o.frames + 1) % 65536
    lastAt := some s.now, epoch := e, stale := false }
  s.modCtl c fun x => { x with
    rx := sat32 x.rx, lostN := if held then sat32 x.lostN else x.lostN, lostSeen := x.lostSeen || held }

/-- CAN_FRAME_RX (R393, R399, R405). -/
def execCanFrameRx (c : Nat) (f : CanFrame) (s : State) : Host.Outcome State Fault Refusal :=
  let x := s.live.can.ctl c
  let k := s.live.cst
  let ign := fun (s : State) => s.modCtl c fun x => { x with ign := sat32 x.ign }
  if !s.canRuns ∨ !(x.onBus ∨ x.state = 6) then .next s
  else if canMode (k.canCtrl c) = 1 ∧ f.fd then .next (s.modCtl c fun x => { x with state := 1 })
  else
    let own : Bool := k.canOwner c f.id = 2 && s.live.par.gate
    if f.destroyed then
      let s := s.modCtl c fun x => CanCtl.confine { x with rec_ := min 255 (x.rec_ + 1) }
      .next (if !f.extended ∧ !f.remote ∧ k.canOwner c f.id ≠ 0 ∧ !own then s.canClash c f.id else s)
    else
      let s := s.modCtl c fun x => CanCtl.confine { x with rec_ := x.rec_ - 1 }
      if f.extended ∨ f.remote ∨ k.canOwner c f.id = 0 ∨ own then .next (ign s)
      else
        let s := s.modObj c f.id CanObj.noteGood
        .next (if (s.live.can.obj c f.id).quar then s else s.canStore c f)

/-- CAN_OBJECT_TIMEOUT (R400). -/
def execCanObjectTimeout (c id : Nat) (s : State) : Host.Outcome State Fault Refusal :=
  let o := s.live.can.obj c id
  match s.live.cst.canObj c id, o.lastAt with
  | some b, some t =>
    if s.canRuns ∧ 0 < u16 b 2 ∧ t + u16 b 2 * 1000000 ≤ s.now then .next (s.modObj c id fun o => { o with stale := true }) else .next s
  | _, _ => .next s

/-! Transmission (R401 to R404). -/

/-- Sleep begins once no frame is ACTIVE (R407). -/
def State.canDoze (s : State) (c : Nat) : State :=
  if (s.live.can.ctl c).sleepDue ∧ (s.canActive c).isNone then s.modCtl c fun x => { x with state := 5, sleepDue := false } else s

/-- CAN_FRAME_END (R401 to R405): the active frame of a controller ends: 0 sent, 1 arbitration lost, 2 an error with its code of
LAST_ERR; `clash` for a bit error after the arbitration field and outside the acknowledge slot. -/
def execCanFrameEnd (c how code : Nat) (clash : Bool) (s : State) : Host.Outcome State Fault Refusal :=
  match s.canActive c with
  | none => .next s
  | some m =>
    let id := s.canId c m
    if how = 0 then
      let s := s.modCtl c fun x => CanCtl.confine { x with tx := sat32 x.tx, tec := x.tec - 1 }
      let s := s.modObj c id CanObj.noteGood
      let s := s.modMb c m fun x => x.finish (if x.cancel then 3 else 1) false
      let s := if s.live.par.gate then s else s.endRequests c 4
      .next (s.canDoze c)
    else
      let s := if how = 2 then s.modCtl c fun x => CanCtl.confine { x with tec := x.tec + 8, lastErr := code } else s
      let s := if how = 2 then (if clash then s.canClash c id else s.modObj c id fun o => { o with good := 0 }) else s
      let q := (s.live.can.obj c id).quar
      let s := s.modMb c m fun x =>
        if x.cancel then x.finish 2 true
        else if !s.live.par.gate then x.finish 4 true
        else if q then x.finish 5 true
        else if (s.live.can.ctl c).sleepDue then x.finish 6 true
        else { x with state := 1 }
      .next (s.canDoze c)

/-- BUS_OFF (R402): the transmit error counter has passed 255. -/
def execBusOff (c : Nat) (s : State) : Host.Outcome State Fault Refusal :=
  let x := s.live.can.ctl c
  if s.canRuns ∧ x.onBus ∧ 256 ≤ x.tec then
    let s := s.modCtl c fun x => { x with state := 4, boff := satAdd 8 x.boff 1, boffSeen := true, boffAt := s.now, recovering := false }
    let s := match s.canActive c with
      | some m => s.modMb c m fun x => if x.cancel then x.finish 2 true else { x with state := 1 }
      | none => s
    .next (s.journal 17 (ev2 c 0))
  else .next s

/-- BUS_OFF_RECOVERY (R402): BOFF_HOLD_MS after bus-off. -/
def execBusOffRecovery (c : Nat) (s : State) : Host.Outcome State Fault Refusal :=
  let x := s.live.can.ctl c
  if x.state = 4 ∧ !x.recovering ∧ x.boffAt + u16 (s.live.cst.canCtrl c) 16 * 1000000 ≤ s.now then
    .next (s.modCtl c fun x => { x with recovering := true })
  else .next s

/-- BUS_OFF_RECOVERY_COMPLETE (R402). -/
def execBusOffRecoveryComplete (c : Nat) (s : State) : Host.Outcome State Fault Refusal :=
  let x := s.live.can.ctl c
  if x.state = 4 ∧ x.recovering then .next (s.modCtl c fun x => { x with state := 2, tec := 0, rec_ := 0, recovering := false }) else .next s

/-- BUS_INTEGRATION (R409). -/
def execBusIntegration (c : Nat) (s : State) : Host.Outcome State Fault Refusal :=
  if (s.live.can.ctl c).state = 1 then
    .next (s.modCtl c fun x => { x with state := if canMode (s.live.cst.canCtrl c) = 3 then 6 else 2, tec := 0, rec_ := 0 })
  else .next s

/-! Commands (R403, R406, R407). -/

/-- CANCEL on the selected mailbox. -/
def State.canCancel (s : State) (src : Source) (c m : Nat) : State :=
  match (s.live.can.mb c m).state with
  | 1 => s.modMb c m fun x => x.finish 2 true
  | 2 => s.modMb c m fun x => { x with cancel := true }
  | _ => s.werr 0x3988 src .state

/-- RELEASE on the selected object. -/
def State.canRelease (s : State) (c id : Nat) : State := s.modObj c id fun o => { o with quar := false, clashes := 0, good := 0 }

/-- SLEEP: pending requests end OFF. -/
def State.canSleep (s : State) (c : Nat) : State :=
  if (s.live.can.ctl c).state = 0 ∨ (s.live.can.ctl c).state = 5 then s
  else ((s.endRequests c 6).modCtl c fun x => { x with sleepDue := true }).canDoze c

/-- A wake with its cause: 1 edge, 2 frame, 3 command (R409). -/
def State.canWakeUp (s : State) (c cause : Nat) : State :=
  if (s.live.can.ctl c).state = 5 ∨ (s.live.can.ctl c).sleepDue then
    let was5 : Bool := (s.live.can.ctl c).state = 5
    (s.modCtl c fun x => { x with
      state := if was5 then 1 else x.state, sleepDue := false, wakes := satAdd 16 x.wakes 1, wakeCause := cause, wakeSeen := true }).journal
        17 (ev2 c 2 ++ ev1 cause)
  else s

/-- WAKE_EDGE (R407). -/
def execWakeEdge (c : Nat) (s : State) : Host.Outcome State Fault Refusal :=
  if (s.live.can.ctl c).state = 5 ∧ canWakeMode (s.live.cst.canCtrl c) = 1 then .next (s.canWakeUp c 1) else .next s

/-- R407, R408: a wake frame. -/
def wakeMatch (b : Bytes) (f : CanFrame) : Bool :=
  !f.extended && !f.remote && !f.destroyed && (f.id &&& u16 b 2) = (u16 b 0 &&& u16 b 2) && decide (u8 b 4 ≤ f.data.length)
    && (List.range (u8 b 4)).all fun i => (u8 f.data i &&& u8 b (16 + i)) = (u8 b (8 + i) &&& u8 b (16 + i))

/-- WAKE_FRAME (R407). -/
def execWakeFrame (c : Nat) (f : CanFrame) (s : State) : Host.Outcome State Fault Refusal :=
  match s.live.cst.canWake c with
  | some b =>
    if (s.live.can.ctl c).state = 5 ∧ canWakeMode (s.live.cst.canCtrl c) = 2 ∧ wakeMatch b f then
      let s := s.canWakeUp c 2
      .next (if s.live.cst.canOwner c f.id ≠ 0 ∧ !(s.live.can.obj c f.id).quar then s.canStore c f else s)
    else .next s
  | none => .next s

/-! Boundaries, maps (R398, R401). -/

/-- Controllers switched on and off (R392, R410). -/
def State.canSettle (s : State) : State :=
  (List.range 4).foldl (fun s c =>
    let b := s.live.cst.canCtrl c
    let x := s.live.can.ctl c
    if s.canRuns ∧ canMode b ≠ 0 then (if x.state = 0 then s.modCtl c fun x => { x with state := 1 } else s)
    else if x.state ≠ 0 then
      let s := (List.range (canMbCount b)).foldl (fun s m =>
        if (s.live.can.mb c m).state ≠ 0 then s.modMb c m fun x => x.finish 6 true else s) s
      s.modCtl c fun x => { x with state := 0, sleepDue := false, tec := 0, rec_ := 0, recovering := false }
    else s) s

/-- What the boundary does: closed gates end requests (R404), mapped data is taken, periodic and change requests are made. -/
def State.canBoundary (s : State) : State :=
  let s := s.canSettle
  if !s.canRuns then s
  else (List.range 4).foldl (fun s c =>
    let b := s.live.cst.canCtrl c
    let s := if s.live.par.gate then s else s.endRequests c 4
    (List.range (canMbCount b)).foldl (fun s m =>
      let r := (s.live.cst.canMb c m).getD []
      let id := u16 r 0
      let mapped := s.live.cst.canMapped c id
      let s := if mapped then s.modMb c m fun x => { x with data := s.live.canMapData c id (u8 r 3) } else s
      let x := s.live.can.mb c m
      let per := u16 r 4
      let due : Bool := if 0 < per then s.live.epc.epoch * s.live.epc.periodMs % per = 0 else mapped && x.data ≠ x.last
      let s := s.modMb c m fun x => { x with last := x.data }
      if due then s.canRequest c m else s) s) s

/-- The requests that end when the gate closes (R404). -/
def State.canGateClosed (s : State) : State := (List.range 4).foldl (fun s c => s.endRequests c 4) s

/-- CAN at the pour of epoch 0: objects and mailboxes empty, the controllers integrate. -/
def State.startCan (s : State) : State :=
  let x := s.live.can
  let ctls : Table CanCtl := (List.range 4).map fun c =>
    let o := x.ctl c
    (c, { rx := o.rx, tx := o.tx, lostN := o.lostN, clash := o.clash, ign := o.ign, wakes := o.wakes, wakeCause := o.wakeCause, boff := o.boff
          wakeSeen := o.wakeSeen, lostSeen := o.lostSeen, clashSeen := o.clashSeen, boffSeen := o.boffSeen })
  let mbs : Table CanMb := (List.range 4).flatMap fun c => (List.range (canMbCount (s.live.cst.canCtrl c))).map fun m =>
    (c * 64 + m, { last := List.replicate (u8 ((s.live.cst.canMb c m).getD []) 3) 0 })
  (s.modCan fun x => { x with ctls := ctls, objs := [], mbs := mbs, objCtrl := 0, objId := 0, mbCtrl := 0, mbNo := 0 }).canSettle

/-- The reset of the CAN block (R485): pending requests end OFF, objects are emptied, controllers integrate again. -/
def State.resetCan (s : State) : State :=
  let s := (List.range 4).foldl (fun s c => (List.range (canMbCount (s.live.cst.canCtrl c))).foldl (fun s m =>
    if (s.live.can.mb c m).state ≠ 0 then s.modMb c m fun x => x.finish 6 true else s) s) s
  let s := s.modCan fun x => { x with objs := [], ctls := x.ctls.map fun p => (p.1, { p.2 with state := 0, tec := 0, rec_ := 0, sleepDue := false, recovering := false }) }
  s.canSettle

/-! Registers at 0x3800. -/

def readCan (k : Core) (addr : Nat) : Word :=
  let x := k.can
  let on : Bool := k.pwr.mode.running && k.epc.casting && !k.sys.reserveOsc
  if 0x3810 ≤ addr ∧ addr < 0x3890 then
    let c := (addr - 0x3810) / 0x20
    let y := x.ctl c
    let b := k.cst.canCtrl c
    match (addr - 0x3810) % 0x20 with
    | 0x00 => pack [(0, 3, y.state), (3, 1, (!(k.par.gate && !k.epc.dpAbsent && (canMode b = 1 || canMode b = 2))).toNat),
        (4, 1, (x.objs.any fun o => o.1 / 2048 = c && o.2.quar).toNat), (5, 1, y.wakeSeen.toNat), (6, 1, y.lostSeen.toNat),
        (7, 1, y.clashSeen.toNat), (8, 1, y.boffSeen.toNat)]
    | 0x04 => pack [(0, 8, min 255 y.tec), (8, 8, y.rec_), (16, 3, y.lastErr), (24, 8, y.boff)]
    | 0x08 => word y.rx
    | 0x0C => word y.tx
    | 0x10 => word y.lostN
    | 0x14 => word y.clash
    | 0x1C => word y.ign
    | _ => 0
  else if 0x3890 ≤ addr ∧ addr < 0x38A0 then
    let y := x.ctl ((addr - 0x3890) / 4)
    pack [(0, 2, y.wakeCause), (16, 16, y.wakes)]
  else
    let o := x.obj x.objCtrl x.objId
    let ow := k.cst.canOwner x.objCtrl x.objId
    let r := (k.cst.canMb x.mbCtrl x.mbNo).getD []
    let m := x.mb x.mbCtrl x.mbNo
    match addr with
    | 0x3800 => pack ((List.range 4).flatMap fun c =>
        let conf : Bool := k.cst.canCtrl c ≠ [] && canMode (k.cst.canCtrl c) ≠ 0
        [(c, 1, conf.toNat), (4 + c, 1, (conf && !on).toNat)])
    | 0x3808 => word x.collide
    | 0x3900 => pack [(0, 2, x.objCtrl), (2, 11, x.objId)]
    | 0x3904 => if ow = 0 then 0 else pack [(0, 2, ow), (2, 1, o.fd.toNat), (3, 1, o.brs.toNat), (4, 1, o.esi.toNat), (5, 1, o.lost.toNat),
        (6, 1, (if o.stored then o.stale else decide (0 < u16 ((k.cst.canObj x.objCtrl x.objId).getD []) 2)).toNat), (7, 1, o.quar.toNat),
        (8, 7, o.data.length), (16, 2, o.clashes)]
    | 0x3908 => pack [(0, 16, o.frames), (16, 16, match o.lastAt with
        | some t => min 0xFFFF ((k.epc.boundaryAt - t) / 1000000)
        | none => 0xFFFF)]
    | 0x3980 => pack [(0, 2, x.mbCtrl), (2, 6, x.mbNo)]
    | 0x3984 => pack [(0, 2, m.state), (2, 3, m.result), (5, 1, (x.obj x.mbCtrl (u16 r 0)).quar.toNat),
        (6, 1, (r ≠ [] && k.cst.canMapped x.mbCtrl (u16 r 0) : Bool).toNat), (16, 11, u16 r 0)]
    | _ =>
      if 0x3910 ≤ addr ∧ addr < 0x3950 then wordAt o.data ((addr - 0x3910) / 4)
      else if 0x3990 ≤ addr ∧ addr < 0x39D0 then wordAt (m.data.take (u8 r 3)) ((addr - 0x3990) / 4)
      else 0

/-- Rules of the CAN_ writes, on the poured state and the writes of the same transaction. -/
def checkCan (k : Core) (ws : List (Nat × Word)) (addr : Nat) (w : Word) : Bool :=
  let sel := match ws.reverse.find? fun x => x.1 = 0x3980 with
    | some x => (field x.2 1 0, field x.2 7 2)
    | none => (k.can.mbCtrl, k.can.mbNo)
  if 0x3810 ≤ addr ∧ addr < 0x3890 ∧ (addr - 0x3810) % 0x20 = 0x18 then
    let c := (addr - 0x3810) / 0x20
    !(bit w 0 && bit w 1) && !(bit w 0 && canWakeMode (k.cst.canCtrl c) = 0)
  else if 0x3990 ≤ addr ∧ addr < 0x39D0 then
    !(k.cst.canMapped sel.1 (u16 ((k.cst.canMb sel.1 sel.2).getD []) 0) && (k.cst.canMb sel.1 sel.2).isSome)
  else match addr with
    | 0x3980 => decide (field w 7 2 < canMbCount (k.cst.canCtrl (field w 1 0)))
    | 0x3988 => !(bit w 0 && bit w 1)
    | _ => true

/-- Staged writes at their commit; commands act after the selections of the same commit. -/
def State.commitCan (s : State) (src : Source) (addr : Nat) (w : Word) : State :=
  let x := s.live.can
  if 0x3810 ≤ addr ∧ addr < 0x3890 then
    let c := (addr - 0x3810) / 0x20
    match (addr - 0x3810) % 0x20 with
    | 0x00 => s.modCtl c fun y => { y with
        wakeSeen := y.wakeSeen && !bit w 5, lostSeen := y.lostSeen && !bit w 6, clashSeen := y.clashSeen && !bit w 7
        boffSeen := y.boffSeen && !bit w 8 }
    | 0x18 => if bit w 0 then s.canSleep c else if bit w 1 then s.canWakeUp c 3 else s
    | _ => s
  else match addr with
    | 0x3804 => if bit w 0 then s.modCan fun x => { x with
        collide := 0
        ctls := x.ctls.map fun p => (p.1, { p.2 with rx := 0, tx := 0, lostN := 0, clash := 0, ign := 0, boff := 0 }) } else s
    | 0x3900 => s.modCan fun x => { x with objCtrl := field w 1 0, objId := field w 12 2 }
    | 0x390C => if bit w 0 then s.canRelease x.objCtrl x.objId else s
    | 0x3980 => s.modCan fun x => { x with mbCtrl := field w 1 0, mbNo := field w 7 2 }
    | 0x3988 =>
      if (s.live.cst.canMb x.mbCtrl x.mbNo).isNone then (if bit w 1 then s.werr addr src .state else s)
      else if bit w 0 then s.canRequest x.mbCtrl x.mbNo
      else if bit w 1 then s.canCancel src x.mbCtrl x.mbNo else s
    | _ =>
      if 0x3990 ≤ addr ∧ addr < 0x39D0 ∧ (s.live.cst.canMb x.mbCtrl x.mbNo).isSome then
        let i := (addr - 0x3990) / 4
        s.modMb x.mbCtrl x.mbNo fun m =>
          let d := m.data ++ List.replicate (64 - m.data.length) 0
          { m with data := d.take (4 * i) ++ leBytes 4 w.toNat ++ d.drop (4 * i + 4) }
      else s

end Sys2Proof.Machine
end

