-- ==== Sys2Proof/Machine/Reset.lean ====
section
/-! DEFINITION. Module resets (R477 to R481, R478's reach): what a reset clears and what it keeps, sessions closed, the entry
into LOAD. -/

namespace Sys2Proof.Machine

open Sys2Proof

/-! Sessions of YRA and YML and their key slots (R382, R530, R444, R465). -/

/-- A key slot emptied. -/
def Sec.clearSlot (x : Sec) (k : Nat) : Sec := { x with slots := tdel x.slots k }

/-- YRA sessions that meet a condition close; their slots are cleared. -/
def State.closeYra (s : State) (p : Session → Bool) : State :=
  let gone := (s.live.eth.sessions.filter p).map Session.slot
  (s.modEth fun e => { e with sessions := e.sessions.filter fun x => !p x }).modSec fun x => gone.foldl Sec.clearSlot x

/-- YML sessions that meet a condition close. -/
def State.closeYml (s : State) (p : Session → Bool) : State :=
  let gone := (s.live.mgt.sessions.filter p).map Session.slot
  (s.modMgt fun e => { e with sessions := e.sessions.filter fun x => !p x }).modSec fun x => gone.foldl Sec.clearSlot x

/-- R509: an update before the end of its checks ends with ABORTED when its holder's session has closed. -/
def State.dropLock (s : State) : State :=
  match s.live.upd.lock with
  | none => s
  | some l =>
    let open_ : Bool := match l.src with
      | .yra => s.live.eth.sessions.any fun x => x.id = l.session
      | .yml => s.live.mgt.sessions.any fun x => x.id = l.session
      | _ => true
    if open_ ∨ 4 ≤ l.stage then s else s.endUpdate 16

/-- Sessions of both ports that meet a condition close. -/
def State.closeSessions (s : State) (p : Session → Bool) : State := ((s.closeYra p).closeYml p).dropLock

/-- Openings that wait for PROVE are forgotten. -/
def State.dropOpenings (s : State) : State :=
  (s.modEth fun e => { e with opening := [] }).modMgt fun m => { m with opening := [] }

/-! What a reset keeps of each block: registers return to their Reset value; what is counted since cold reset stays through a
warm one; FRAM, NOR settings, OTP, retirements and the backup domain stay through both (R8, R478). -/

def Sys.afterReset (x : Sys) (cold : Bool) : Sys :=
  { ({} : Sys) with
    stepping := x.stepping, dramSpares := x.dramSpares, dramRetired := x.dramRetired, dramRowCe := x.dramRowCe, dramRows := x.dramRows
    dramNoSpare := x.dramNoSpare, releaseAt := x.releaseAt
    reserveOsc := !cold && x.reserveOsc
    werr := if cold then 0 else x.werr
    dramCe := if cold then 0 else x.dramCe }

/-- The counters that CLR_STATS clears, and the pour time, outlast a warm reset (log entry 74). -/
def Epc.afterReset (x : Epc) (cold : Bool) : Epc :=
  if cold then {} else { ({} : Epc) with pourMax := x.pourMax, stgFull := x.stgFull, overwrite := x.overwrite, txnLost := x.txnLost }

/-- The casting that ran stays known through a warm reset, for R233 and R280. -/
def Cst.afterReset (x : Cst) (cold : Bool) : Cst :=
  { ({} : Cst) with
    flash0 := x.flash0, flash1 := x.flash1, sfdp := x.sfdp, fmtMaxMinor := x.fmtMaxMinor, seqFloor := x.seqFloor
    sects := if cold then [] else x.sects, legacy := !cold && x.legacy }

def Asm.afterReset (x : Asm) (cold : Bool) : Asm :=
  let y := { ({} : Asm) with savedDigest := x.savedDigest, savedSets := x.savedSets, savedAt := x.savedAt }
  if cold then y else { y with sat := x.sat, srcFault := x.srcFault, inCollide := x.inCollide }

def Slv.afterReset (x : Slv) (cold : Bool) : Slv :=
  let y := { ({} : Slv) with map := x.map, retired := x.retired, ce := x.ce, katFail := x.katFail, residue := x.residue }
  if cold then y else { y with sat := x.sat, warmRej := x.warmRej, cold := x.cold, factAbort := x.factAbort, factFail := x.factFail }

def Pln.afterReset (x : Pln) (cold : Bool) : Pln :=
  if cold then {} else { ({} : Pln) with entries := x.entries, sheds := x.sheds, sat := x.sat, limit := x.limit }

def Lpe.afterReset (x : Lpe) (cold : Bool) : Lpe :=
  if cold then {} else { ({} : Lpe) with slots := x.slots, nonfin := x.nonfin, pvFault := x.pvFault, evalMax := x.evalMax }

/-- The forces stay known until their removal is journalled at epoch 0 (R233). -/
def Lgc.afterReset (x : Lgc) (cold : Bool) : Lgc :=
  let y := { ({} : Lgc) with forces := x.forces }
  if cold then y else { y with
    tags := x.tags, maxUs := x.maxUs, overrun := x.overrun, rterr := x.rterr, forceLost := x.forceLost, collide := x.collide }

/-- Retirement and life record of a slice are kept in the settings (R269). -/
def Slice.afterReset (x : Slice) : Slice := { retired := x.retired, visits := x.visits, stuck := x.stuck, drift := x.drift }

/-- Warm: stages and input sources keep what they had (R280, R481), a group without a slice stays so (R270), counters are kept (log entry 74). Cold: high-impedance; factory and stored coefficients stay. -/
def Fch.afterReset (x : Fch) (cold : Bool) : Fch :=
  if cold then { ({} : Fch) with
    chans := x.chans.map fun p => (p.1, { facOfs := p.2.facOfs, facGain := p.2.facGain, stored := p.2.stored })
    slices := x.slices.map fun p => (p.1, p.2.afterReset) }
  else { ({} : Fch) with
    chans := x.chans, slices := x.slices.map fun p => (p.1, p.2.afterReset), handovers := x.handovers
    groups := (x.groups.filter fun p => p.2.noSlice).map fun p => (p.1, { noSlice := true })
    holding := x.configured || x.holding, passSkip := x.passSkip, reqDrop := x.reqDrop, vfldLow := x.vfldLow }

def Fan.afterReset (x : Fan) (cold : Bool) : Fan := if cold then {} else { ({} : Fan) with drivers := x.drivers }

def Nrg.afterReset (x : Nrg) (cold : Bool) : Nrg :=
  let y := { ({} : Nrg) with
    slot0 := x.slot0, slot1 := x.slot1, single := x.single, spares := x.spares, ring := x.ring, nextSeq := x.nextSeq
    clearGen := x.clearGen, unsaved := x.unsaved, estimates := x.estimates }
  if cold then y else { y with
    saveFail := x.saveFail, maxUs := x.maxUs, groups := x.groups.map fun p => (p.1, { seams := p.2.seams }) }

/-- Pins and the generation stay; the gate of a lone module keeps its state through a warm reset (R329, R332). -/
def Par.afterReset (x : Par) (cold : Bool) : Par :=
  let y := { ({} : Par) with
    pcode := x.pcode, pcodeAt := x.pcodeAt, killIn := x.killIn, gen := x.gen, wdFired := true, wdCause := x.wdCause, wdAt := x.wdAt }
  if cold then y else { y with
    gate := x.gate, keepGate := x.keepGate, takeovers := x.takeovers, handovers := x.handovers, divCount := x.divCount
    pathLoss := x.pathLoss, crcErr := x.crcErr }

def Port.afterReset (x : Port) (cold : Bool) : Port :=
  if cold then {} else { ({} : Port) with rx := x.rx, drop := x.drop, tx := x.tx, err := x.err }

def Eth.afterReset (x : Eth) (cold : Bool) : Eth :=
  let y := { ({} : Eth) with port0 := x.port0.afterReset cold, port1 := x.port1.afterReset cold }
  if cold then y else { y with
    prpDup := x.prpDup, prpErr := x.prpErr, authFail := x.authFail, yspRx := x.yspRx, yspTx := x.yspTx, yspRej := x.yspRej }

def Ptp.afterReset (x : Ptp) (cold : Bool) : Ptp := if cold then {} else { ({} : Ptp) with tsqDrop := x.tsqDrop }

def Can.afterReset (x : Can) (cold : Bool) : Can :=
  if cold then {} else { ({} : Can) with
    collide := x.collide
    ctls := x.ctls.map fun p => (p.1, { rx := p.2.rx, tx := p.2.tx, lostN := p.2.lostN, clash := p.2.clash, ign := p.2.ign
                                        wakes := p.2.wakes, boff := p.2.boff }) }

/-- The backup domain runs on (R478); the registers of the block that it does not hold return to their Reset value. -/
def Clk.afterReset (x : Clk) : Clk :=
  { x with
    refLost := false, stepSeen := false, capYra := {}, capYml := {}, capDbg := {}, capTxn := [], loadSl := 0, loadSh := 0, loadSub := 0
    armed := none, autoStep := false, pairStep := none, armedAt := 0, autoAt := 0, pairAt := 0, bound := none, winRef := 0, pairValue := none, dst := false }

/-- R443: every slot and working register is cleared; OTP, NOR and the backup domain keep theirs. A grant of OPEN and the
LOCK response outlast the reset (log entry 35). -/
def Sec.afterReset (x : Sec) (cold : Bool) : Sec :=
  let y := { ({} : Sec) with
    lifecycle := x.lifecycle, serial := x.serial, ownerRecords := x.ownerRecords, ownerInForce := x.ownerInForce, helperOk := x.helperOk
    vendorSecret := x.vendorSecret, fwProd := x.fwProd, fwTest := x.fwTest, dbgPub := x.dbgPub, slotGen := x.slotGen, material := x.material, openNext := x.openNext, locked := x.locked
    tStart := x.tStart, tLoad := x.tLoad, tSleep := x.tSleep, tRun := x.tRun, tKeyop := x.tKeyop, ackPending := x.ackPending
    tamperCount := x.tamperCount, owedTamper := x.owedTamper, armedCopy := x.armedCopy, cmdSeq := x.cmdSeq }
  if cold then y else { y with
    cmdState := if x.running.isSome then 0 else x.cmdState, cmdResult := x.cmdResult, cmdCode := x.cmdCode, cmdResSeq := x.cmdResSeq
    cmdFail := x.cmdFail, denied := x.denied, collide := x.collide, useDeny := x.useDeny }

def Pwr.afterReset (x : Pwr) (cold : Bool) : Pwr :=
  let y := { ({} : Pwr) with
    lastMode := x.lastMode, startMode := x.startMode, vsupMv := x.vsupMv, vfldMv := x.vfldMv, vAvgMv := x.vAvgMv, vfldOk := x.vfldOk, powered := x.powered
    pfw := x.pfw, pfwCount := x.pfwCount, pfwRecovered := x.pfwRecovered, strapCode := x.strapCode, strapValid := x.strapValid
    strapRatio := x.strapRatio, active := x.active, sources := x.sources, detail := x.detail, inReset := x.inReset
    resetCold := x.resetCold, releasedAt := x.releasedAt, warmCount := x.warmCount, coldCount := x.coldCount }
  if cold then y else { y with
    blkCp := x.blkCp, blkLockstep := x.blkLockstep, blkFwWatchdog := x.blkFwWatchdog, blkSolver := x.blkSolver, blkAsm := x.blkAsm
    blkEth := x.blkEth, blkCan := x.blkCan, blkMgt := x.blkMgt }

/-- Regions, floors, the trial and the install record stay; staging is lost (R499). -/
def Upd.afterReset (x : Upd) (cold : Bool) : Upd :=
  { ({} : Upd) with
    last := x.last, trial := x.trial, runImg := x.runImg, fbImg := x.fbImg, sprue := x.sprue, fwFloor := x.fwFloor
    cplVer := x.cplVer, fbCplVer := x.fbCplVer
    spareSectors := x.spareSectors
    installRec := match x.lock with
      | some l => if l.kind = 1 ∧ 4 ≤ l.stage then some { l with received := [] } else x.installRec
      | none => x.installRec
    collide := if cold then 0 else x.collide }

/-- The management controller is reset by a cold reset only; the journal and its settings stay. Sessions close with the
enclave slots at either (R531). -/
def Mgt.afterReset (x : Mgt) (cold : Bool) (now : Nat) : Mgt :=
  if cold then { ({} : Mgt) with
    cfgSpeed := x.cfgSpeed, speed := x.cfgSpeed, journal := x.journal, jnext := x.jnext, startedAt := now }
  else { x with sessions := [], opening := [], speedDue := x.speedDue, jsel := 0 }

/-- The reach of a reset (R478). -/
def Core.afterReset (k : Core) (cold : Bool) (now : Nat) : Core where
  sys := k.sys.afterReset cold
  epc := k.epc.afterReset cold
  cst := k.cst.afterReset cold
  asm := k.asm.afterReset cold
  slv := k.slv.afterReset cold
  pln := k.pln.afterReset cold
  lpe := k.lpe.afterReset cold
  lgc := k.lgc.afterReset cold
  fch := k.fch.afterReset cold
  fan := k.fan.afterReset cold
  nrg := k.nrg.afterReset cold
  par := k.par.afterReset cold
  eth := k.eth.afterReset cold
  ptp := k.ptp.afterReset cold
  can := k.can.afterReset cold
  clk := k.clk.afterReset
  sec := k.sec.afterReset cold
  pwr := k.pwr.afterReset cold
  upd := k.upd.afterReset cold
  mgt := k.mgt.afterReset cold now

/-- No bank is published and nothing is staged after a reset; commands from outside wait on. -/
def State.applyReset (s : State) (cold : Bool) : State :=
  { s with pub := none, prep := none, prev := none, txns := [], staged := [], live := s.live.afterReset cold s.now }

/-- The highest code among sources (R480). -/
def topSource (l : List ResetSource) : Nat := l.foldl (fun a x => max a x.code) 0

/-- A reset source is asserted (R477 to R479): the first closes metering and fires the watchdog (R318, R334); one that joins a
reset in progress adds its reach. -/
def State.assertReset (s : State) (src : ResetSource) (detail : Nat) : State :=
  let p := s.live.pwr
  let cold : Bool := 4 ≤ src.code
  if p.inReset then
    let s1 := s.modPwr fun p => { p with
      active := if p.active.contains src then p.active else p.active ++ [src]
      sources := if p.sources.contains src then p.sources else p.sources ++ [src]
      detail := if topSource p.sources ≤ src.code then detail else p.detail
      resetCold := p.resetCold || cold }
    if cold ∧ !p.resetCold then s1.applyReset true else s1
  else
    let s1 := (s.closeMetering).fireWatchdog 4
    let s1 := match s1.live.upd.lock with
      | some l => if l.stage < 4 ∨ l.kind = 2 then s1.endUpdate (if l.stage = 5 then 1 else 16) else s1
      | none => s1
    let s1 := s1.modPwr fun p => { p with
      active := [src], sources := [src], detail := detail, inReset := true, resetCold := cold, releasedAt := none, lastMode := p.mode }
    s1.applyReset cold

/-- A source is released; the release of the last one arms the watchdog again, with its late causes off (R334), and BOOT follows (R479). -/
def State.releaseReset (s : State) (src : ResetSource) : State :=
  if !s.live.pwr.active.contains src then s
  else
    let rest := s.live.pwr.active.filter (· ≠ src)
    if rest.isEmpty then
      ((s.modPwr fun p => { p with active := [], inReset := false, releasedAt := some s.now, mode := .boot }).modSys fun x =>
        { x with releaseAt := s.now }).modPar fun p => { p with wdFired := false, wdArmed := false }
    else s.modPwr fun p => { p with active := rest }

/-- A reset by a source inside the device, which holds no longer than its assertion (log entry 36). -/
def State.pulseReset (s : State) (src : ResetSource) (detail : Nat) : State := (s.assertReset src detail).releaseReset src

/-- A run begins (R25, R83): its epoch 0 is being poured from now on. -/
def State.beginPour (s : State) : State :=
  let s := s.modEpc fun e => { e with epoch := 0, boundaryAt := s.now, pouring := true, liveStaged := false, liveMiss := 0 }
  { s with prep := some { epoch := 0, core := s.live } }

/-- A bare run (R83): SAFEHOLD with every output high-impedance, 10 ms epochs, RUN_ID 0. -/
def State.startBare (s : State) (cause : Nat) : State :=
  let s := (s.enterMode .safehold).dropForces.modPwr fun p => { p with safeCause := cause }
  let s := s.modFch fun f => { f with configured := false, holding := false }
  let s := s.modEpc fun e => { e with served := false, casting := false, periodMs := 10, planP := 0, runId := 0, commitYra := 0, commitYml := 0, commitDbg := 0 }
  { s with pub := none, prev := none, txns := [], staged := [] }.beginPour

/-- The entry into LOAD (R79, R260, R415): the slices make their visits; the calendar is restarted when INVALID; no run goes on. -/
def State.enterLoad (s : State) : State :=
  let s := { s with pub := none, prep := none, prev := none, txns := [], staged := [] }
  let s := s.modEpc fun e => { e with served := false, casting := false, pouring := false }
  let s := (s.enterMode .load).modCst fun c => { c with loadAt := s.now }
  s.startVisits.restartCalendar

end Sys2Proof.Machine
end

