-- ==== Sys2Proof/Machine/Attempt.lean ====
section
/-! DEFINITION. One attempt of LOAD on the bytes of a casting: steps 1 to 6 of R79, with the consequences of each class
(R57, R58, R70, R84, R85). The update's check of a casting (R510) is the same. -/

namespace Sys2Proof.Machine

open Sys2Proof

/-- The layouts and the further checks of each section type. -/
def sectLayouts : Nat → List RecLayout
  | 0x10 => systemLayouts | 0x11 => safeLayouts | 0x20 => structLayouts | 0x21 => formatsLayouts | 0x22 => ttLayouts
  | 0x23 => recipeLayouts | 0x24 => modelLayouts | 0x30 => loopsLayouts | 0x31 => logicLayouts | 0x40 => channelsLayouts
  | 0x41 => fansLayouts | 0x50 => metersLayouts | 0x60 => networkLayouts | 0x61 => canLayouts | 0x62 => pairLayouts
  | 0x70 => islandLayouts | 0x71 => fallbackLayouts | 0x90 => calendarLayouts | _ => []

def sectExtra (strict : Bool) (c : Cst) (ty : Nat) (r : Rec) : RecFail :=
  match ty with
  | 0x10 => systemExtra r | 0x11 => safeExtra r | 0x20 => structExtra r | 0x21 => formatsExtra r | 0x22 => ttExtra strict r
  | 0x23 => recipeExtra r | 0x24 => modelExtra r | 0x30 => loopsExtra r | 0x31 => logicExtra r | 0x40 => channelsExtra r
  | 0x41 => fansExtra r | 0x50 => metersExtra c r | 0x60 => networkExtra r | 0x61 => canExtra r | 0x70 => islandExtra strict r
  | 0x71 => fallbackExtra strict r | 0x90 => calendarExtra c r | _ => none

/-- What a section as a whole must meet once it is parsed. -/
def sectCheck (c : Cst) : Nat → Option CstErr
  | 0x10 => checkSystem c
  | 0x21 => checkFormats c
  | 0x22 => checkTimetable c
  | 0x23 => checkRecipes c
  | 0x24 => (checkModelOwn c).or (checkModelCross c)
  | 0x30 => checkLoops c
  | 0x31 => checkLogic c
  | 0x40 => (checkSafe c).or (checkChannels c)
  | 0x41 => checkFans c
  | 0x60 => checkNetwork c
  | 0x62 => checkPair c
  | 0x70 => checkIsland c
  | 0x71 => (checkFallback c)
  | _ => none

/-- What an attempt has found so far. -/
structure Judge where
  c : Cst
  /-- The failure that ends the attempt. -/
  err : Option CstErr := none
  plan : Option CstErr := none
  island : Option CstErr := none
  /-- Unit-class failures, for the journal (R87). -/
  notes : List CstErr := []
  canOff : Nat := 0
  groupsOff : Nat := 0
  metersOff : Nat := 0
  alarmsOff : Nat := 0
  sectOff : Nat := 0
deriving DecidableEq, Repr

/-- R56, R70, R72: REC_VER, framing and count of a section's body. -/
def parseSect (x : Entry) (b : Bytes) : Except CstErr Sect := do
  need (x.recVer = 1) cFormat x.ty (x.at_ + 2)
  match parseRecs (b.length / 12 + 2) b x.ofs with
  | none => .error { code := cRecord, secType := x.ty, ofs := x.ofs }
  | some rs => do
    need (rs.length = x.count) cRecord x.ty (x.at_ + 12)
    .ok { stype := x.ty, recVer := x.recVer, recs := rs, ofs := x.ofs }

/-- R75: the SYSTEM record of a format 1 casting read as one of format 2. -/
def legacySystem (s : Sect) : Sect :=
  { s with recs := s.recs.map fun r =>
      if r.rtype = 0x101 ∧ r.body.length = 8 then
        { r with body := slice r.body 0 8 ++ List.replicate 12 0 ++ leBytes 4 8952 ++ List.replicate 8 0 } else r }

/-- The checks of a format 1 SYSTEM record (R61, R75), in the order of R85; `seen` are the records before it. -/
def legacySystemFail (seen : List Rec) (r : Rec) : RecFail :=
  let b := r.body
  if r.rtype ≠ 0x101 then (if r.rtype.testBit 15 then none else some (cUnknown, 0))
  else if duplicateRec seen r then some (cDuplicate, 2)
  else if b.length ≠ 8 then some (cRecord, 4)
  else if r.index ≠ 0 then some (cRange, 2)
  else if u16 b 0 = 0 then some (cZero, 12)
  else if u32 b 4 = 0 then some (cZero, 16)
  else if 100 < u16 b 0 then some (cRange, 12)
  else if 2 < u8 b 2 then some (cRange, 14)
  else if 2 < u8 b 3 then some (cRange, 15)
  else if u16 b 0 * u32 b 4 < 10000 ∨ 900000 < u16 b 0 * u32 b 4 then some (cRange, 16)
  else none

/-- The failures of a format 1 SYSTEM section. -/
def legacySystemFails : List Rec → List Rec → List (Rec × CstErr)
  | [], _ => []
  | r :: rs, seen =>
    let rest := legacySystemFails rs (r :: seen)
    match legacySystemFail seen r with
    | some (c, o) => (r, { code := c, secType := 0x10, ofs := r.ofs + o }) :: rest
    | none => rest

/-- The layouts of a section; a format 1 casting has 96 loop slots (R75). -/
def layoutsOf (legacy : Bool) (ty : Nat) : List RecLayout :=
  if legacy && ty = 0x30 then (sectLayouts ty).map fun l => { l with idxMax := min l.idxMax 95 } else sectLayouts ty

/-- The records of a parsed section that fail, each with its failure (R59, R75, R85). -/
def sectFails (legacy strict : Bool) (c : Cst) (s : Sect) : List (Rec × CstErr) :=
  if legacy && s.stype = 0x10 then legacySystemFails s.recs []
  else recFailures strict (layoutsOf legacy s.stype) (sectExtra strict c s.stype) s.stype s.recs []

/-- A casting with a section added; records of unknown skippable types are left out (R59). -/
def Cst.addSect (c : Cst) (s : Sect) : Cst := { c with sects := c.sects ++ [{ s with recs := knownRecs (sectLayouts s.stype) s }] }

/-- A casting without the sections that meet a condition. -/
def Cst.dropSects (c : Cst) (p : Nat → Bool) : Cst := { c with sects := c.sects.filter fun s => !p s.stype }

def isPlanSect (ty : Nat) : Bool := decide (0x20 ≤ ty) && decide (ty ≤ 0x24)

/-- R59: an unknown record that is not skippable fails the casting, whatever its section's class. -/
def unknownOf (fails : List (Rec × CstErr)) : Option CstErr := (fails.map Prod.snd).find? fun e => e.code = cUnknown

/-- A section of the core class, the plan class or the island class (R84, R85): its first failure, or the casting with it. -/
def judgeWhole (legacy strict : Bool) (j : Judge) (x : Entry) (b : Bytes) : Except CstErr Cst := do
  let s ← parseSect x b
  match (unknownOf (sectFails legacy strict j.c s)).or ((sectFails legacy strict j.c s).head?.map Prod.snd) with
  | some e => .error e
  | none =>
    let c := j.c.addSect (if legacy && x.ty = 0x10 then legacySystem s else s)
    match sectCheck c x.ty with
    | some e => .error e
    | none => .ok c

/-- R57, R58: what is present or absent as the SYSTEM fields demand, checked once SYSTEM is parsed. -/
def presence (j : Judge) (types : List (Nat × Nat × Nat)) : Judge :=
  let c := j.c
  let has := fun t => types.any fun x => x.1 = t
  if c.pairMode ≠ 0 ∧ !c.legacy ∧ !has 0x62 then { j with err := some { code := cMissing, secType := 0x62, ofs := 0 } }
  else if c.pairMode = 0 ∧ has 0x62 then
    { j with err := some { code := cRange, secType := 0x62, ofs := ((types.find? fun x => x.1 = 0x62).map fun x => x.2.2).getD 0 } }
  else if c.scenarios = 0 then
    match types.find? fun x => isPlanSect x.1 && x.2.1 ≠ 0 with
    | some x => { j with err := some { code := cRange, secType := x.1, ofs := x.2.2 } }
    | none => j
  else
    -- every missing section is journalled (R87); the first is the plan class's failure
    match [0x20, 0x21, 0x22, 0x23, 0x24].filter fun t => !has t with
    | t :: more =>
      let miss := fun t => ({ code := cMissing, secType := t, ofs := 0 } : CstErr)
      { j with plan := some (miss t), notes := j.notes ++ more.map miss }
    | [] => j

/-- A unit-class section (R84, R85). Of two records with one INDEX the second is discarded and its unit counted, the first stays
(log entry 76). -/
def judgeUnits (strict : Bool) (j : Judge) (x : Entry) (b : Bytes) : Judge :=
  match parseSect x b with
  | .error e =>
    { j with notes := j.notes ++ [e], sectOff := j.sectOff ||| (if x.ty = 0x50 then 1 else if x.ty = 0x61 then 2 else 4) }
  | .ok s =>
    let bad := sectFails false strict j.c s
    let good := s.recs.filter fun r => !bad.any fun f => f.1 = r
    let j := { j with notes := j.notes ++ bad.map Prod.snd, err := unknownOf bad }
    if x.ty = 0x61 then
      let c1 := j.c.addSect { s with recs := good }
      let off := (List.range 4).filter fun k => (bad.any fun f => canUnit f.1 = k) || !checkCanUnit c1 k
      let more : List CstErr := (off.filter fun k => !bad.any fun f => canUnit f.1 = k).map fun _ => { code := cRange, secType := 0x61, ofs := x.ofs }
      { j with
        c := j.c.addSect { s with recs := good.filter fun r => !off.contains (canUnit r) }
        notes := j.notes ++ more
        canOff := off.foldl (fun a k => a ||| 2 ^ k) 0 }
    else
      let j := { j with c := j.c.addSect { s with recs := good } }
      if x.ty = 0x50 then
        let gs := (bad.filter fun f => f.1.rtype = 0x501).map fun f => f.1.index
        let ms := ((bad.filter fun f => f.1.rtype = 0x502).map fun f => f.1.index).eraseDups
        { j with groupsOff := gs.foldl (fun a g => if g < 8 then a ||| 2 ^ g else a) 0, metersOff := min 64 ms.length }
      else { j with alarmsOff := min 31 (bad.map fun f => (f.1.rtype, f.1.index)).eraseDups.length }

/-- A plan section (R58, R84). Every one is parsed and its records checked: also where no scenario is configured, when it holds none, and
after the first plan failure, whose followers are journalled beside it (R87). -/
def judgePlan (legacy strict : Bool) (j : Judge) (x : Entry) (b : Bytes) : Judge :=
  let fail := fun (e : CstErr) =>
    if e.code = cUnknown then { j with err := some e }
    else if j.plan.isSome then { j with notes := j.notes ++ [e] }
    else { j with plan := some e, c := j.c.dropSects isPlanSect }
  if j.plan.isSome ∨ j.c.scenarios = 0 then
    match parseSect x b with
    | .error e => fail e
    | .ok s => match (unknownOf (sectFails legacy strict j.c s)).or ((sectFails legacy strict j.c s).head?.map Prod.snd) with
      | some e => fail e
      | none => j
  else
    match judgeWhole legacy strict j x b with
    | .ok c => { j with c := c }
    | .error e => fail e

/-- Step 6 of R79 on the sections in ascending order of type. -/
def judgeSects (legacy strict : Bool) (types : List (Nat × Nat × Nat)) : List (Entry × Bytes) → Judge → Judge
  | [], j =>
    if j.err.isSome then j
    else
      -- checks whose later section is absent (step 6 of R79)
      match firstErr [checkFieldAbsent j.c, checkNoNetwork j.c] with
      | some e => { j with err := some e }
      | none => if j.island.isNone then
          match checkIslandFallback j.c with
          | some e => { j with island := some e, c := j.c.dropSects (· = 0x70) }
          | none => j
        else j
  | (x, b) :: rest, j =>
    if j.err.isSome then j
    else if x.ty.testBit 15 ∨ x.ty = 1 then judgeSects legacy strict types rest j
    else if isPlanSect x.ty then judgeSects legacy strict types rest (judgePlan legacy strict j x b)
    else if x.ty = 0x70 then
      match judgeWhole legacy strict j x b with
      | .ok c => judgeSects legacy strict types rest { j with c := c }
      | .error e => judgeSects legacy strict types rest (if e.code = cUnknown then { j with err := some e } else { j with island := some e })
    else if x.ty = 0x50 ∨ x.ty = 0x61 ∨ x.ty = 0x90 then judgeSects legacy strict types rest (judgeUnits strict j x b)
    else
      match judgeWhole legacy strict j x b with
      | .error e => { j with err := some e }
      | .ok c =>
        let j := { j with c := c }
        judgeSects legacy strict types rest (if x.ty = 0x10 then presence j types else j)

/-- Insertion of an entry by type. -/
def insertByType (x : Entry × Bytes) : List (Entry × Bytes) → List (Entry × Bytes)
  | [] => [x]
  | y :: ys => if x.1.ty < y.1.ty then x :: y :: ys else y :: insertByType x ys

/-- Steps 1 to 6 of R79 on the bytes of a casting: the error of the container, or what step 6 found. -/
def judged (e : LoadEnv) (slot : Bytes) : Except CstErr (Container × Judge) :=
  match openContainer e slot with
  | .error x => .error x
  | .ok k =>
    let sorted := k.bodies.foldl (fun l x => insertByType x l) []
    let types := k.bodies.map fun x => (x.1.ty, x.1.count, x.1.ofs)
    .ok (k, judgeSects k.legacy k.strict types sorted { c := { legacy := k.legacy } })

/-- The content failures that an attempt journals beside its end (R87): of the plan, the island and the unit classes. -/
def Judge.content (j : Judge) : List CstErr := j.plan.toList ++ j.island.toList ++ j.notes
def attemptNotes (e : LoadEnv) (slot : Bytes) : List CstErr :=
  match judged e slot with
  | .error _ => []
  | .ok x => x.2.content

/-- An attempt: its error, or the casting with what step 6 found. -/
def attempt (e : LoadEnv) (slot : Bytes) : Except CstErr (Container × Judge) :=
  match judged e slot with
  | .error x => .error x
  | .ok x => match x.2.err with
    | some err => .error err
    | none => .ok x

/-! What LOAD knows of the module. -/

/-- A firmware image's VERSION (R503); 0 for an empty region. -/
def imgVersion (img : Bytes) : Nat := if img = [] then 0 else u32 img 8

/-- A key slot's contents, when it is filled. -/
def Sec.key? (x : Sec) (k : Nat) : Option Bytes := (tfind x.slots k).map KeySlot.key

/-- The owner record in force (R435). -/
def Sec.owner? (x : Sec) : Option (Bytes × Bytes) := if x.ownerInForce then x.ownerRecords.getLast? else none

/-- The Owner setting LEGACY (SEC_CFG), 0 while the Owner material is not open. -/
def Sec.legacyOn (x : Sec) : Bool := x.ownerOpen && (x.material.map OwnerMaterial.legacy).getD false

def State.loadEnv (s : State) : LoadEnv where
  lifecycle := s.live.sec.lifecycle
  legacyOn := s.live.sec.legacyOn
  owner := s.live.sec.owner?
  vendorPub := (s.live.sec.key? 11).getD []
  castKey := s.live.sec.key? 2
  fw := imgVersion (tget s.live.upd.runImg 2 [])
  floor := s.live.cst.seqFloor
  maxMinor := s.live.cst.fmtMaxMinor

/-- R76: the slot LOAD tries first, none when both are empty. -/
def Cst.chosen (c : Cst) : Option Nat :=
  let seq := fun (b : Bytes) => u32 (flashRead b 0 128) 20
  match slotEmpty c.flash0, slotEmpty c.flash1 with
  | true, true => none
  | false, true => some 0
  | true, false => some 1
  | false, false => some (if seq c.flash0 < seq c.flash1 then 1 else 0)

/-- An error recorded for a slot (R78). -/
def Cst.setErr (c : Cst) (slot : Nat) (e : CstErr) : Cst := if slot = 0 then { c with err0 := e } else { c with err1 := e }

/-- LOAD fails: what it has recorded is shown, no casting runs, SAFEHOLD with a bare run (R83). -/
def State.loadFails (s : State) : State :=
  let s := s.modCst fun c => { c with
    state := 4, loadTimeMs := min 65535 ((s.now - c.loadAt) / 1000000), sects := [], legacy := false, contentKey := false
    seq := 0, fmtMajor := 0, fmtMinor := 0, minFw := 0, digest := [] }
  s.startBare 2

/-- The journal record of a failed attempt (R87, R538 codes 4 and 5). -/
def State.noteErr (s : State) (event slot : Nat) (e : CstErr) : State :=
  s.journal event (ev2 slot e.code ++ leBytes 2 e.secType ++ leBytes 4 e.ofs)

end Sys2Proof.Machine
end

