-- ==== Sys2Proof/Machine/Update.lean ====
section
/-! DEFINITION. Firmware and casting update (spec/18): offers, the lock, the checks, the installation, swap points, the trial,
the UPD_ registers. -/

namespace Sys2Proof.Machine

open Sys2Proof

/-! The offer header (R500, R501). -/

def offKind (h : Bytes) : Nat := u8 h 4
def offLen (h : Bytes) : Nat := u16 h 6
def offVersion (h : Bytes) : Nat := u32 h 16
def offPayload (h : Bytes) : Nat := u32 h 20
def offHold (h : Bytes) : Bool := (u8 h 76).testBit 1

/-- The form of a header (R500). -/
def offerForm (h : Bytes) : Bool :=
  let k := u8 h 4
  let sk := u8 h 5
  u32 h 0 = 0x44505559 && ((k = 1 && sk = 1) || (k = 2 && (sk = 2 || sk = 3)))
    && offLen h = (if sk = 3 then 364 else 224) && offLen h ≤ h.length
    && 1 ≤ offPayload h && offPayload h ≤ 0xC00000
    && (if k = 1 then 30 ≤ u16 h 74 && u16 h 74 ≤ 3600 else u16 h 72 = 0 && u16 h 74 = 0)
    && (u8 h 76) / 4 = 0 && allZero (slice h 77 19)

/-- A Vendor firmware key admitted in the present lifecycle state (R439). -/
def Sec.fwKeyOk (x : Sec) (pub : Bytes) : Bool :=
  Config.sha384 pub = x.fwProd || (Config.sha384 pub = x.fwTest && (x.lifecycle = .manufacture || x.lifecycle = .returned))

/-- R62, R63 for the delegation of an offer, VERSION in place of SEQUENCE. -/
def Sec.delegationOk (x : Sec) (d : Bytes) (version : Nat) : Bool :=
  match x.owner? with
  | none => false
  | some (_, pub) => u32 d 72 = 0 && Config.ecdsaVerify pub ((Config.sha384 (slice d 0 76)).take 32) (slice d 76 64)
      && decide (u32 d 64 ≤ version) && decide (version ≤ u32 d 68)

/-- R501: a header verifies. -/
def Sec.offerVerifies (x : Sec) (h : Bytes) : Bool :=
  let pub := slice h 96 64
  offerForm h && Config.ecdsaVerify pub ((Config.sha384 (slice h 0 160)).take 32) (slice h 160 64)
    && match u8 h 5 with
      | 1 => x.fwKeyOk pub
      | 2 => (x.owner?.map Prod.snd) = some pub
      | _ => pub = slice h 224 64 && x.delegationOk (slice h 224 140) (offVersion h)

/-- The roles of rows 17 and 18 of R450. -/
def row17 (r : Role) : Bool := r = .owner || r = .integrator || r = .vendor
def row18 (r : Role) : Bool := r = .owner || r = .service || r = .vendor
def offerRole (kind : Nat) (r : Role) : Bool := if kind = 1 then row18 r else row17 r

/-- A bank's window as bytes (R505). -/
def UpdBank.bytes (b : UpdBank) : Bytes := bytesOfWords ((List.range 128).map fun w => tget b.win w 0)

/-- The modes that refuse an offer (R506). -/
def State.offerMode (s : State) : Bool :=
  match s.live.pwr.mode with
  | .handover | .island | .tune | .load | .boot | .backup => false
  | _ => s.live.sec.debug ≠ 2

/-- The lock is taken by an offer whose header is held in a bank (R506, R508). -/
def State.takeLock (s : State) (src : Source) (role : Role) (session area : Nat) (data : Bytes) : State :=
  let h := data.take (offLen data)
  let total := offLen data + offPayload data
  s.modUpd fun u => { u with lock := some {
    src := src, session := session, role := role, kind := offKind h, version := offVersion h, header := h, area := area
    received := data.take (min 512 total), stage := 2, lastChunkAt := s.now } }

/-- OFFER at its commit (R506): the first failure is answered; while LOAD runs the lock is BUSY (R52). -/
def State.offer (s : State) (src : Source) (role : Role) (session : Nat) : State :=
  let b := s.live.upd.bank src
  let data := b.bytes
  let h := data.take (offLen data)
  if b.ofs ≠ 0 ∨ !s.live.sec.offerVerifies h then s.updReply src 3
  else if u64 h 8 ≠ 0 ∧ u64 h 8 ≠ s.live.sec.serial then s.updReply src 6
  else if !offerRole (offKind h) role then s.updReply src 4
  else if s.live.pwr.mode = .load then s.updReply src 2
  else if !s.offerMode then s.updReply src 5
  else if s.live.upd.trial.isSome then s.updReply src 17
  else if s.live.upd.lock.isSome then s.updReply src 2
  else (s.takeLock src role session 0 data).updReply src 1

/-- A party holds the lock (R506: its source and, for YRA and YML, its session). -/
def UpdLock.heldBy (l : UpdLock) (src : Source) (session : Nat) : Bool := l.src = src && (src = .dbg || l.session = session)

/-- The length of the whole stream. -/
def UpdLock.total (l : UpdLock) : Nat := offLen l.header + offPayload l.header

/-- The payload bytes received. -/
def UpdLock.payload (l : UpdLock) : Bytes := l.received.drop (offLen l.header)

/-- CHUNK at its commit (R505, R509). -/
def State.chunk (s : State) (src : Source) (session : Nat) : State :=
  match s.live.upd.lock with
  | none => s.updReply src 10
  | some l =>
    let b := s.live.upd.bank src
    if !l.heldBy src session then s.updReply src 2
    else if l.stage ≠ 2 ∨ b.ofs ≠ l.received.length ∨ l.total ≤ l.received.length then s.updReply src 10
    else
      let n := min 512 (l.total - l.received.length)
      (s.modUpd fun u => { u with lock := some { l with received := l.received ++ b.bytes.take n, lastChunkAt := s.now } }).updReply src 1

/-- END at its commit (R509). -/
def State.endStream (s : State) (src : Source) (session : Nat) : State :=
  match s.live.upd.lock with
  | none => s.updReply src 10
  | some l =>
    if !l.heldBy src session then s.updReply src 2
    else if l.stage ≠ 2 ∨ l.received.length ≠ l.total then s.updReply src 10
    else (s.modUpd fun u => { u with lock := some { l with stage := 3 } }).updReply src 1

/-- ABORT at its commit (R509); from INSTALLING on, the writing goes on (log entry 42). -/
def State.abortUpdate (s : State) (src : Source) (session : Nat) : State :=
  match s.live.upd.lock with
  | none => s.updReply src 10
  | some l =>
    if !l.heldBy src session then s.updReply src 2
    else if 4 ≤ l.stage then s.updReply src 15
    else s.endUpdate 16

/-- LOCK_TIMEOUT (R509): 60 s without a chunk from the holder before END. -/
def execLockTimeout (s : State) : Host.Outcome State Fault Refusal :=
  match s.live.upd.lock with
  | some l => if l.stage = 2 ∧ l.lastChunkAt + 60000000000 ≤ s.now then .next (s.endUpdate 16) else .next s
  | none => .next s

/-! The checks of R510. -/

/-- The component table of a firmware payload: component, version, offset, length. -/
def compEntries (p : Bytes) : List (Nat × Nat × Nat × Nat) :=
  (List.range (u8 p 0)).map fun k => (u8 p (4 + 16 * k), u32 p (8 + 16 * k), u32 p (12 + 16 * k), u32 p (16 + 16 * k))

def ascending : List Nat → Bool
  | a :: b :: t => decide (a < b) && ascending (b :: t)
  | _ => true

/-- An image of the component and version, signed by an admitted key (R439, R503). -/
def Sec.imageOk (x : Sec) (comp version : Nat) (img : Bytes) : Bool :=
  let n := img.length
  let pub := slice img (n - 128) 64
  u32 img 0 = 0x474D4959 && u8 img 4 = comp && allZero (slice img 5 3) && u32 img 8 = version && 176 ≤ n
    && u32 img 12 + 176 = n && x.fwKeyOk pub
    && Config.ecdsaVerify pub ((Config.sha384 (img.take (n - 64))).take 32) (img.drop (n - 64))

/-- R503 on a payload. -/
def Sec.bundleOk (x : Sec) (p : Bytes) : Bool :=
  let es := compEntries p
  decide (1 ≤ u8 p 0) && decide (u8 p 0 ≤ 4) && allZero (slice p 1 3) && ascending (es.map fun e => e.1)
    && es.all fun e => decide (e.1 ≤ 3) && e.2.2.1 % 16 = 0 && decide (e.2.2.1 + e.2.2.2 ≤ p.length)
        && decide (4 + 16 * u8 p 0 ≤ e.2.2.1) && x.imageOk e.1 e.2.1 (slice p e.2.2.1 e.2.2.2)

/-- R504: a set of images is consistent; empty regions take no part. -/
def consistentSet (imgs : Table Bytes) : Bool :=
  (List.range 4).all fun x => (List.range 4).all fun y =>
    let a := tget imgs x []
    let b := tget imgs y []
    x = y || a = [] || b = [] || (u32 a (16 + 8 * y) ≤ imgVersion b && imgVersion b ≤ u32 a (20 + 8 * y))

/-- The first component of an installation whose set is not consistent. -/
def firstInconsistent : Table Bytes → List (Nat × Bytes) → Option Nat
  | _, [] => none
  | imgs, (c, i) :: rest =>
    let imgs := tset imgs c i
    if consistentSet imgs then firstInconsistent imgs rest else some c

/-- The components of a payload in the order of R511. -/
def bundleImages (p : Bytes) : List (Nat × Bytes) := (compEntries p).map fun e => (e.1, slice p e.2.2.1 e.2.2.2)

/-- The slot a casting update writes (R512). -/
def Cst.otherSlot (c : Cst) : Nat := 1 - c.slot

/-- What the checks after END find: 0 passed, otherwise the result, with CODE and COMP of UPD_DETAIL. -/
def State.checkUpdate (s : State) (l : UpdLock) : Nat × Nat × Nat :=
  let p := l.payload
  let run := s.live.upd.runImg
  if Config.sha384 p ≠ Machine.slice l.header 24 48 then (11, 0, 0)
  else if l.kind = 1 then
    let es := compEntries p
    let par := s.live.par
    if !s.live.sec.bundleOk p then (3, 0, 0)
    else if es.any fun e => e.1 = 2 && decide (e.2.1 < s.live.upd.fwFloor) then (7, 0, 2)
    else
      match firstInconsistent run (bundleImages p) with
      | some c => (8, 0, c)
      | none =>
        let major := u16 l.header 72 / 256
        let minor := u16 l.header 72 % 256
        if par.hbOk ∧ (major ≠ par.pMajor ∨ minor + 1 < par.pMinor ∨ par.pMinor + 1 < minor) then (9, 0, 0)
        else if s.live.epc.casting ∧ (es.any fun e => e.1 = 2 && decide (e.2.1 < s.live.cst.minFw)) then (8, 0, 2)
        else (0, 0, 0)
  else
    let seq := u32 p 20
    if seq ≤ s.live.cst.seq ∨ seq < s.live.cst.seqFloor then (7, 0, 0)
    else
      match attempt s.loadEnv p with
      | .error e => (12, e.code, 0)
      | .ok _ => (0, 0, 0)

/-! Installation (R511, R512). -/

/-- R239, code 2: the castings in two slots differ in the LOGIC section alone. -/
def logicOnly (e : LoadEnv) (old new : Bytes) : Bool :=
  match openContainer e old, openContainer e new with
  | .ok a, .ok b =>
    let shape := fun (k : Container) => k.bodies.map fun x => (x.1.ty, x.1.recVer)
    let sums := fun (k : Container) => (k.bodies.filter fun x => x.1.ty ≠ 0x31 && x.1.ty ≠ 1).map fun x => (x.1.ty, Config.sha384 x.2)
    let hdr := fun (b : Bytes) => slice b 0 16 ++ if u16 b 4 = 1 then [] else slice b 24 24 ++ slice b 68 60
    shape a = shape b && sums a = sums b && hdr old = hdr new
  | _, _ => false

/-- The two slots of the casting flash. -/
def Cst.flash (c : Cst) (slot : Nat) : Bytes := if slot = 0 then c.flash0 else c.flash1
def Cst.setFlash (c : Cst) (slot : Nat) (b : Bytes) : Cst := if slot = 0 then { c with flash0 := b } else { c with flash1 := b }

/-- A standby never takes an on-line change by its own update (R522). -/
def State.onlineable (s : State) (new : Bytes) : Bool :=
  s.live.epc.casting && s.isActive && logicOnly s.loadEnv (s.live.cst.flash s.live.cst.slot) new

/-- The next region written: the casting's slot, or one component (R511). -/
def State.installStep (s : State) (l : UpdLock) : State :=
  if l.kind = 2 then
    let p := l.payload
    let s := s.modCst fun c => c.setFlash c.otherSlot p
    if s.onlineable p then (s.endUpdate 1).modLgc fun x => { x with offered := true }
    else s.modUpd fun u => { u with lock := some { l with stage := 5, swapHeld := l.swapHeld || offHold l.header } }
  else
    match l.todo with
    | [] => s.modUpd fun u => { u with lock := some { l with stage := 5, swapHeld := l.swapHeld || offHold l.header } }
    | c :: rest =>
      let img := ((bundleImages l.payload).find? fun x => x.1 = c).map Prod.snd
      s.modUpd fun u =>
        let l' := { l with
          stage := if rest.isEmpty then 5 else 4, todo := rest, done := l.done ++ [c]
          swapHeld := l.swapHeld || (rest.isEmpty && offHold l.header) }
        { u with
          fbImg := tset u.fbImg c (tget u.runImg c []), runImg := tset u.runImg c (img.getD [])
          lock := some l', installRec := some { l' with received := [] } }

/-- INSTALLATION (R510 to R512): the checks after END, then the regions one after another. `bad` sectors fail erase or
verification in this step (R498): each is replaced by a spare; without one the update ends with FLASH. -/
def execInstallation (bad : Nat) (s : State) : Host.Outcome State Fault Refusal :=
  match s.live.upd.lock with
  | none => .next s
  | some l =>
    if l.stage = 3 then
      let r := s.checkUpdate l
      if r.1 ≠ 0 then
        .next ((s.modUpd fun u => { u with detailCode := r.2.1, detailComp := r.2.2 }).endUpdate r.1)
      else
        let todo := if l.kind = 1 then (compEntries l.payload).map fun e => e.1 else []
        let s := if l.kind = 2 then s.modCst fun c => c.setFlash c.otherSlot [] else s
        .next (s.modUpd fun u => { u with lock := some { l with stage := 4, todo := todo } })
    else if l.stage = 4 then
      let used := min bad s.live.upd.spareSectors
      let s := (List.range used).foldl (fun s k => s.journal 7 (ev1 3 ++ leBytes 2 (s.live.upd.spareSectors - k) ++ ev1 0)) s
      let s := s.modUpd fun u => { u with spareSectors := u.spareSectors - used }
      if used < bad then
        let s := match l.kind, l.todo with
          | 1, c :: _ => s.modUpd fun u => { u with
              fbImg := tset u.fbImg c (tget u.runImg c []), runImg := tset u.runImg c []
              installRec := some { l with received := [], erased := some c }, detailComp := c }
          | _, _ => s
        .next (s.endUpdate 13)
      else .next (s.installStep l)
    else .next s

/-! The settings during a trial (R518, R519). -/

/-- The settings as they stand. -/
def Core.settings (k : Core) : Settings where
  material := k.sec.material
  slotGen := k.sec.slotGen
  cmdSeq := k.sec.cmdSeq
  tamperCount := k.sec.tamperCount
  fwFloor := k.upd.fwFloor
  seqFloor := k.cst.seqFloor
  startMode := k.pwr.startMode
  cfgSpeed := k.mgt.cfgSpeed
  pfwCount := k.pwr.pfwCount
  pfwRecovered := k.pwr.pfwRecovered
  warmCount := k.pwr.warmCount
  coldCount := k.pwr.coldCount
  savedDigest := k.asm.savedDigest
  savedSets := k.asm.savedSets
  ce := k.slv.ce
  katFail := k.slv.katFail
  residue := k.slv.residue
  cals := k.fch.chans.filterMap fun p => p.2.stored.map fun c => (p.1, c)
  slices := k.fch.slices.map fun p => (p.1, p.2.visits, p.2.stuck, p.2.drift)

/-- The Owner material is still the one of the old settings: it was not erased and not bound to another Owner since (R436). -/
def Sec.sameOwner (x : Sec) (o : Settings) : Bool :=
  x.material.map OwnerMaterial.sealedUnder = o.material.map OwnerMaterial.sealedUnder

/-- The old settings read as before (R519). -/
def State.restoreSettings (s : State) (o : Settings) : State :=
  let s := s.modSec fun x => { x with
    material := if x.sameOwner o then o.material else x.material
    slotGen := if x.sameOwner o then o.slotGen else x.slotGen
    cmdSeq := if x.sameOwner o then o.cmdSeq else x.cmdSeq
    tamperCount := if x.sameOwner o then o.tamperCount else x.tamperCount }
  let s := s.modUpd fun u => { u with fwFloor := o.fwFloor }
  let s := s.modCst fun c => { c with seqFloor := o.seqFloor }
  let s := s.modPwr fun p => { p with
    startMode := o.startMode, pfwCount := o.pfwCount, pfwRecovered := o.pfwRecovered, warmCount := o.warmCount, coldCount := o.coldCount }
  let s := s.modMgt fun m => { m with cfgSpeed := o.cfgSpeed }
  let s := s.modAsm fun a => { a with savedDigest := o.savedDigest, savedSets := o.savedSets }
  let s := s.modSlv fun v => { v with ce := o.ce, katFail := o.katFail, residue := o.residue }
  s.modFch fun f => { f with
    chans := f.chans.map fun p => (p.1, { p.2 with stored := tfind o.cals p.1 })
    slices := f.slices.map fun p =>
      let l := tget o.slices p.1 (0, 0, 0)
      (p.1, { p.2 with visits := l.1, stuck := l.2.1, drift := l.2.2 }) }

/-! The swap point (R514 to R516, R522). -/

/-- The swap itself: a warm reset with detail 2; a bundle begins its trial. -/
def State.swap (s : State) (l : UpdLock) : State :=
  if l.kind = 1 then
    let t : Trial := { trialS := u16 l.header 74, hostConfirm := (u8 l.header 76).testBit 0, comps := l.done, version := l.version, old := s.live.settings }
    let s := s.modUpd fun u => { u with
      trial := some t, lock := none, installRec := none, fbCplVer := u.cplVer, cplVer := u16 l.header 72 }
    let s := if l.done.contains 0 then s.closeYml fun _ => true else s
    let s := if l.done.contains 0 then s.modMgt fun m => { m with startedAt := s.now } else s
    s.pulseReset .warmSw 2
  else (s.endUpdate 1).pulseReset .warmSw 2

/-- SWAP_POINT (R514, R515): an active unit hands the claim over first when its partner is READY without STALE, and
waits until the claim has moved. -/
def execSwapPoint (s : State) : Host.Outcome State Fault Refusal :=
  match s.live.upd.lock with
  | none => .next s
  | some l =>
    if l.stage ≠ 5 ∨ l.swapHeld then .next s
    else if s.paired ∧ s.live.par.gate ∧ s.live.par.pstate = 7 ∧ s.live.par.canHandOver then
      .next (if s.live.par.handover.isSome then s else s.nameHandover 4)
    else if s.paired ∧ s.live.par.pstate = 9 then .next s
    else .next (s.swap l)

/-- SWAP at its commit (R561): only while a swap point is held, from the holder or OWNER; the holds of R516 and R522 name OWNER
alone, that of R522 lasts until HANDOVER has been left. -/
def State.swapCommand (s : State) (src : Source) (role : Role) (session : Nat) : State :=
  match s.live.upd.lock with
  | some l =>
    if l.stage = 5 ∧ l.swapHeld ∧ (role = .owner ∨ (l.hold = 0 ∧ l.heldBy src session)) ∧ !(l.hold = 2 ∧ s.live.pwr.mode = .handover) then
      s.modUpd fun u => { u with lock := some { l with swapHeld := false, hold := 0 } }
    else s.werr 0x04C8 src .state
  | none => s.werr 0x04C8 src .state

/-! The trial (R517 to R519). -/

/-- The ns of the trial used so far. -/
def Trial.used (t : Trial) (now : Nat) : Nat := (t.since.map fun a => now - a).getD 0

/-- The trial fails: the fallback regions are copied back, PHY first, the settings are those from before it, and a warm reset
follows. -/
def State.revertTrial (s : State) (t : Trial) : State :=
  let s := s.modUpd fun u => { u with
    runImg := t.comps.reverse.foldl (fun r c => tset r c (tget u.fbImg c [])) u.runImg, trial := none, last := 18, cplVer := u.fbCplVer }
  let s := (s.journal 22 (ev1 18 ++ ev1 0 ++ leBytes 4 t.version)).restoreSettings t.old
  s.pulseReset .warmSw 2

/-- TRIAL_FAILURE (R519): TRIAL_S has expired or the third module reset of the trial has come. -/
def execTrialFailure (s : State) : Host.Outcome State Fault Refusal :=
  match s.live.upd.trial with
  | some t => if t.trialS * 1000000000 ≤ t.used s.now ∨ 3 ≤ t.resets then .next (s.revertTrial t) else .next s
  | none => .next s

/-- R518: the health of the new image. -/
def State.trialHealthy (s : State) (t : Trial) : Bool :=
  t.shadowOk && s.live.epc.served && t.selftestPassed && (!t.hostConfirm || t.confirmed)
    && (s.live.cst.pairInUse = 0 || [4, 6, 7].contains s.live.par.pstate)

/-- TRIAL_CONFIRMED (R518). -/
def execTrialConfirmed (s : State) : Host.Outcome State Fault Refusal :=
  match s.live.upd.trial with
  | some t =>
    if s.trialHealthy t then
      .next ((s.modUpd fun u => { u with trial := none, last := 19 }).journal 22 (ev1 19 ++ ev1 0 ++ leBytes 4 t.version))
    else .next s
  | none => .next s

/-- CONFIRM and REVERT at their commit (R561). -/
def State.confirmTrial (s : State) (src : Source) (role : Role) : State :=
  match s.live.upd.trial with
  | some t => if row18 role then s.modUpd fun u => { u with trial := some { t with confirmed := true } } else s.werr 0x04C8 src .state
  | none => s.werr 0x04C8 src .state

def State.revertCommand (s : State) (src : Source) (role : Role) : State :=
  match s.live.upd.trial with
  | some t => if row18 role then s.revertTrial t else s.werr 0x04C8 src .state
  | none => s.werr 0x04C8 src .state

/-- FLOOR at its commit (R520). -/
def State.raiseFloors (s : State) : State :=
  let fw := max s.live.upd.fwFloor (imgVersion (tget s.live.upd.runImg 2 []))
  let seq := max s.live.cst.seqFloor s.live.cst.seq
  ((s.modUpd fun u => { u with fwFloor := fw }).modCst fun c => { c with seqFloor := seq }).journal 0 (leBytes 4 fw ++ leBytes 4 seq)

/-- UPD_CTRL at its commit, bit by bit (R561). A swap by REVERT ends the run, so it comes last. -/
def State.updControl (s : State) (src : Source) (role : Role) (session : Nat) (w : Word) : State :=
  let s := if bit w 0 then s.offer src role session else if bit w 1 then s.chunk src session else s
  let s := if bit w 2 then s.endStream src session else s
  let s := if bit w 3 then s.abortUpdate src session else s
  let s := if bit w 4 then s.swapCommand src role session else s
  let s := if bit w 5 then s.confirmTrial src role else s
  let s := if bit w 7 then s.raiseFloors else s
  if bit w 6 then s.revertCommand src role else s

/-- FORCE_CLAIM (R508): the result of R448 and the state. The header is the one in the YML bank. -/
def State.forceClaim (s : State) (digest : Bytes) (src : Source) (role : Role) (session : Nat) : Nat × State :=
  let b := s.live.upd.bankYml
  let data := b.bytes
  let h := data.take (offLen data)
  if src ≠ .yml ∨ session = 0 ∨ !offerRole (offKind h) role then (6, s)
  else if b.ofs ≠ 0 ∨ Config.sha384 h ≠ digest ∨ !s.live.sec.offerVerifies h
      ∨ (u64 h 8 ≠ 0 ∧ u64 h 8 ≠ s.live.sec.serial) ∨ !s.offerMode ∨ s.live.upd.trial.isSome then (3, s)
  else
    match s.live.upd.lock with
    | none => (1, (s.takeLock .yml role session 0 data).updReply .yml 1)
    | some l =>
      if l.src = .yml then (5, s)
      else if 4 ≤ l.stage then (5, s.updReply .yml 15)
      else
        let s1 := s.endUpdate 14
        let s2 := (s1.takeLock .yml role session (1 - l.area) data).updReply .yml 1
        (1, s2.updReply l.src 14)

/-- A collision of a bank (R505): every write of the epoch is discarded. -/
def State.updCollision (s : State) (src : Source) : State :=
  (s.modUpd fun u => { u with collide := sat32 u.collide }).updReply src 20

/-! Registers at 0x0480. -/

def readUpd (k live : Core) (src : Source) (addr : Nat) : Word :=
  let u := k.upd
  let b := live.upd.bank src
  let h := u.shown
  match addr with
  | 0x0480 =>
    pack [(0, 4, h.1), (4, 2, h.2.1), (6, 3, h.2.2.1), (9, 2, h.2.2.2.1), (11, 1, ((u.lock.map UpdLock.swapHeld).getD false).toNat),
      (12, 1, (u.lock.map UpdLock.area).getD 0), (16, 5, u.last)]
  | 0x0484 => word ((u.lock.map UpdLock.version).getD 0)
  | 0x0488 => word ((u.lock.map fun l => l.received.length).getD 0)
  | 0x048C => pack [(0, 5, b.result), (5, 2, b.holder), (7, 3, b.role), (10, 2, b.kind), (12, 4, b.stage)]
  | 0x0490 => word b.version
  | 0x0494 => pack [(0, 8, u.detailCode), (8, 3, u.detailComp)]
  | 0x0498 =>
    match u.trial with
    | some t => pack [(0, 12, (t.trialS * 1000000000 - t.used k.epc.boundaryAt + 999999999) / 1000000000), (12, 2, t.resets)]
    | none => 0
  | 0x049C => word u.collide
  | 0x04C0 => word u.fwFloor
  | 0x04C4 => word b.ofs
  | _ =>
    if 0x04A0 ≤ addr ∧ addr < 0x04B0 then word (imgVersion (tget u.runImg ((addr - 0x04A0) / 4) []))
    else if 0x04B0 ≤ addr ∧ addr < 0x04C0 then word (imgVersion (tget u.fbImg ((addr - 0x04B0) / 4) []))
    else if 0x0600 ≤ addr ∧ addr < 0x0800 then tget b.win ((addr - 0x0600) / 4) 0
    else 0

/-- Rules of the UPD_ writes (R39). -/
def checkUpd (addr : Nat) (w : Word) : Bool := if addr = 0x04C8 then !(bit w 0 && bit w 2) && !(bit w 2 && bit w 3) else true

/-- A staged write of a UPD_ register at its commit. -/
def State.commitUpd (s : State) (src : Source) (role : Role) (session addr : Nat) (w : Word) : State :=
  if addr = 0x04C4 then s.modUpd fun u => u.setBank src fun b => { b with ofs := field w 23 0 }
  else if addr = 0x04C8 then s.updControl src role session w
  else if 0x0600 ≤ addr ∧ addr < 0x0800 then s.modUpd fun u => u.setBank src fun b => { b with win := tset b.win ((addr - 0x0600) / 4) w }
  else s

end Sys2Proof.Machine
end

