-- ==== Sys2Proof/Machine/Enclave.lean ====
section
/-! DEFINITION. The Zhev enclave (spec/16): keys at BOOT, signed commands, debug levels, attestation, the tamper response, the SEC_
registers. -/

namespace Sys2Proof.Machine

open Sys2Proof

/-! Slots (R442). Use bits: E 1, D 2, M 4, V 8, K 16, U 32. Classes: 1 derived, 2 enrolled, 3 factory, 4 public, 5 session. -/

def Sec.fill (x : Sec) (k cls use : Nat) (held : Bool) (key : Bytes) : Sec :=
  { x with slots := tset x.slots k { cls := cls, use := use, held := held, gen := tget x.slotGen k 0, key := key } }

/-- Class and use of the slots that the Owner material holds. -/
def ownerSlot (k : Nat) : Nat × Nat :=
  if k = 2 ∨ k = 3 then (2, 16) else if k = 4 then (2, 4) else if k = 13 then (4, 8) else if k = 14 then (2, 32) else (2, 20)

/-- The sealing identity under which the Owner material opens: SID and OWNER_ID (R441). -/
def Sec.ownerSeal (x : Sec) : Bytes := x.sid ++ (x.owner?.map Prod.fst).getD []

/-- R441: the Owner material opened, when it verifies under the present keys. -/
def Sec.openOwner (x : Sec) : Sec :=
  match x.material with
  | some m =>
    if m.sealedUnder ≠ x.ownerSeal then x
    else
      let y := m.keys.foldl (fun y p => y.fill p.1 (ownerSlot p.1).1 (ownerSlot p.1).2 true p.2) x
      { y.fill 14 2 32 true m.kek with ownerOpen := true, ownerHeld := false }
  | none => x

/-- The tamper response is armed (R462). -/
def Sec.armed (x : Sec) : Bool := x.lifecycle = .provisioned || x.lifecycle = .deployed

/-- The public key an image carries (R503): the 64 bytes before its signature. -/
def imgKey (img : Bytes) : Bytes := slice img (img.length - 128) 64

/-- SID (R440) at a debug level over the images of MR1 to MR5. -/
def sealingId (debug : Nat) (imgs : List Bytes) : Bytes :=
  Config.sha384 (ascii "YSID" ++ leBytes 1 debug ++ [0, 0, 0] ++ imgs.flatMap fun i => Config.sha384 (imgKey i))

/-- A measurement register extended once (R438). -/
def measure (d : Bytes) : Bytes := Config.sha384 (List.replicate 48 0 ++ d)

/-- MR0 to MR6 at a BOOT (R438). -/
def Sec.measured (x : Sec) (debug : Nat) (imgs : List Bytes) : List Bytes :=
  let lc := leBytes 1 x.lifecycle.code
  let own := match x.owner? with
    | some (i, p) => i ++ p
    | none => List.replicate 80 0
  [measure (Config.sha384 (ascii "YMR0" ++ leBytes 2 Config.romVersion ++ lc ++ leBytes 1 debug ++ List.replicate 8 0))]
  ++ imgs.map (fun i => measure (Config.sha384 i)) ++ [measure (Config.sha384 own)]

/-- The key-derivation step of BOOT (R441, R464, R457): slots 0, 1, 9 to 12, then the Owner material unless it is held or
the level is OPEN. -/
def Sec.derive (x : Sec) (debug : Nat) (imgs : List Bytes) : Sec :=
  let sid := sealingId debug imgs
  let x := { x with mr := x.measured debug imgs, sid := sid, keysOk := true, debug := 0 }
  let x := x.fill 0 1 19 false (Config.hmac Config.rootSecret (ascii "YK-DSK" ++ sid))
  let x := if imgs = [] then x else x.fill 11 4 8 false (imgKey (imgs.getD 3 []))
  let x := x.fill 12 4 8 false x.dbgPub
  let x := if x.lifecycle = .manufacture ∨ x.lifecycle = .returned then
      (if debug = 2 then x else x.fill 9 3 20 true x.vendorSecret) else x
  match x.owner? with
  | none => { x with armedCopy := x.armed }
  | some (oid, pub) =>
    let x := (x.fill 1 1 3 false (Config.hmac Config.rootSecret (ascii "YK-OSK" ++ sid ++ oid))).fill 10 4 8 false pub
    let x := { x with armedCopy := x.armed }
    if debug = 2 then x
    else if x.ackPending && x.tSleep then { x with ownerHeld := true }
    else x.openOwner

/-! Signed commands (R446 to R449). -/

/-- The window as bytes. -/
def Sec.winBytes (x : Sec) : Bytes := bytesOfWords ((List.range 64).map fun w => tget x.cmdWin w 0)

def cmdCode_ (b : Bytes) : Nat := u16 b 4
def cmdBodyLen (b : Bytes) : Nat := u16 b 6
def cmdSeq_ (b : Bytes) : Nat := u32 b 16
def cmdBody (b : Bytes) : Bytes := slice b 24 (cmdBodyLen b)
def cmdSig (b : Bytes) : Bytes := slice b (24 + cmdBodyLen b) 64

/-- A result shown in SEC_CMD_RES (R448); the window is cleared after every command (R449). -/
def State.cmdResult (s : State) (state result code seq : Nat) : State :=
  s.modSec fun x => { x with
    cmdState := state, cmdResult := result, cmdCode := code, cmdResSeq := seq % 65536, cmdWin := []
    cmdFail := if result = 1 then x.cmdFail else satAdd 8 x.cmdFail 1 }

/-- EXEC at its commit: the command of the window starts, or is dropped with BUSY while another runs. -/
def State.startCommand (s : State) (src : Source) (role : Role) (session : Nat) : State :=
  let b := s.live.sec.winBytes
  if s.live.sec.running.isSome then s.cmdResult 1 2 (cmdCode_ b) (cmdSeq_ b)
  else s.modSec fun x => { x with
    running := some { bytes := b, src := src, role := role, startedAt := s.now, session := session }, cmdState := 1, cmdWin := [] }

/-- The window written without EXEC (R448 code 15), or by more than one transaction (code 14). -/
def State.noExec (s : State) : State := s.cmdResult 2 15 0 0
def State.secCollision (s : State) (window : Bool) : State :=
  let s := s.modSec fun x => { x with collide := satAdd 8 x.collide 1 }
  if window then s.cmdResult 2 14 0 0 else s

/-- The body length of each code. -/
def bodyLenOf : Nat → Option Nat
  | 1 => some 112 | 2 => some 64 | 3 => some 68 | 4 => some 4 | 5 => some 0 | 6 => some 0 | 7 => some 0 | 8 => some 4 | 9 => some 0
  | 10 => some 48 | 11 => some 20 | _ => none

/-- FORMAT (R448): MAGIC, BODY_LEN, reserved bytes and body values. -/
def cmdForm (b : Bytes) : Bool :=
  let c := cmdBody b
  u32 b 0 = 0x4D435359 && bodyLenOf (cmdCode_ b) = some (cmdBodyLen b) && u32 b 20 = 0
    && match cmdCode_ b with
      | 2 | 3 | 4 => allZero (slice c 1 3)
      | 8 => u8 c 0 ≤ 1 && u8 c 1 ≤ 2 && u8 c 2 ≤ 1 && u8 c 3 = 0
      | 11 => (u8 c 0 = 1 || u8 c 0 = 2) && allZero (slice c 1 3)
      | _ => true

/-- STATE (R447, R449, R456): the lifecycle state and the debug level permit the code. -/
def Sec.cmdStateOk (x : Sec) (b : Bytes) : Bool :=
  let lc := x.lifecycle
  let own : Bool := lc = .provisioned || lc = .deployed
  let c := cmdBody b
  let partialOk : Bool := x.ownerOpen && (x.material.map OwnerMaterial.partialDbg).getD false
  if x.debug = 2 ∧ cmdCode_ b ≠ 11 then false
  else match cmdCode_ b with
    | 1 => lc = .manufacture || lc = .returned
    | 5 => lc = .provisioned
    | 7 => lc ≠ .scrapped
    | 11 =>
      if u8 c 0 = 1 then lc = .returned || (own && partialOk) else lc = .provisioned || lc = .returned
    | 2 | 3 | 4 | 8 => own && x.ownerOpen
    | _ => own

/-- SOURCE (R447, R508). A CLOSED debug port delivers DEBUG_UNLOCK alone (R455). -/
def Sec.cmdSourceOk (x : Sec) (r : SecRun) : Bool :=
  let vendorLife : Bool := x.lifecycle = .manufacture || x.lifecycle = .returned
  match cmdCode_ r.bytes with
  | 1 => r.role = .vendor
  | 7 => !vendorLife || r.role = .vendor
  | 11 => r.src = .dbg
  | _ => !(r.src = .dbg && x.debug = 0)

/-- REPLAY (R447, R456). -/
def Sec.cmdFresh (x : Sec) (b : Bytes) (now : Nat) : Bool :=
  match cmdCode_ b with
  | 1 => cmdSeq_ b = 0
  | 11 => cmdSeq_ b = 0 && (match x.challenge with
      | some (c, t) => c = slice (cmdBody b) 4 16 && decide (now ≤ t + 300000000000)
      | none => false)
  | _ => decide (x.cmdSeq < cmdSeq_ b)

/-- SIGNATURE (R446, R447). -/
def Sec.cmdSigned (x : Sec) (b : Bytes) : Bool :=
  let d := (Config.sha384 (b.take (24 + cmdBodyLen b))).take 32
  let under := fun (k : Option Bytes) => match k with
    | some p => Config.ecdsaVerify p d (cmdSig b)
    | none => false
  match cmdCode_ b with
  | 1 => under (some (slice (cmdBody b) 16 64))
  | 7 => if x.lifecycle = .manufacture ∨ x.lifecycle = .returned then allZero (cmdSig b) else under (x.owner?.map Prod.snd)
  | 11 => under (if x.lifecycle = .returned then x.key? 12 else x.key? 13)
  | _ => under (x.owner?.map Prod.snd)

/-- The key that ENROL carries, unwrapped under slot 14. -/
def Sec.unwrap (x : Sec) (b : Bytes) : Option Bytes :=
  match x.key? 14 with
  | some k =>
    let c := cmdBody b
    Config.gcmOpen k (slice c 4 12) (b.take 28) (slice c 16 32) (slice c 48 16)
  | none => none

/-- SLOT (R447). -/
def cmdSlotOk (code slot : Nat) : Bool :=
  match code with
  | 2 => (2 ≤ slot && slot ≤ 8) || slot = 14
  | 3 => slot = 13
  | 4 => (2 ≤ slot && slot ≤ 8) || slot = 13
  | _ => true

/-- R448: the code of the first check that fails, 1 where all pass. -/
def State.cmdCheck (s : State) (r : SecRun) : Nat :=
  let x := s.live.sec
  let b := r.bytes
  let code := cmdCode_ b
  if !cmdForm b then 3
  else if u64 b 8 ≠ x.serial then 4
  else if !x.cmdStateOk b then 5
  else if !x.cmdSourceOk r then 6
  else if !x.cmdFresh b s.now then 7
  else if !x.cmdSigned b then 8
  else if code = 2 ∧ (x.unwrap b).isNone then 9
  else if !cmdSlotOk code (u8 (cmdBody b) 0) then 10
  else if (code = 5 ∧ !([2, 3, 4, 5].all fun k => (x.key? k).isSome)) ∨ (code = 1 ∧ 4 ≤ x.ownerRecords.length) then 11
  else if code = 9 ∧ (s.live.clk.active0 ∨ s.live.clk.active1) then 12
  else 1

/-- The key cache of R461 emptied. -/
def Sec.flushKeys (x : Sec) : Sec := { x with slots := x.slots.filter fun p => decide (p.1 < 32), cacheOrder := [] }

/-- A slot of the Owner material replaced or emptied (R444): the new generation, the sessions of a role whose secret went, the
YSP key cache (R461). -/
def State.setOwnerKey (s : State) (k : Nat) (key : Option Bytes) : State :=
  let s := s.modSec fun x =>
    let m := x.material.map fun m => match key with
      | some v => if k = 14 then { m with kek := v, generation := m.generation + 1 }
                  else { m with keys := tset m.keys k v, generation := m.generation + 1 }
      | none => { m with keys := tdel m.keys k, generation := m.generation + 1 }
    let x := { x with material := m, slotGen := tset x.slotGen k (satAdd 8 (tget x.slotGen k 0) 1) }
    let x := match key with
      | some v => x.fill k (ownerSlot k).1 (ownerSlot k).2 true v
      | none => x.clearSlot k
    if k = 3 then x.flushKeys else x
  if 5 ≤ k ∧ k ≤ 8 then s.closeSessions fun y => roleCode y.role = k - 4 else s

/-- R436: PROVISION accepted. -/
def State.provisionModule (s : State) (c : Bytes) : State :=
  let oid := Machine.slice c 0 16
  let pub := Machine.slice c 16 64
  let kek := Machine.slice c 80 32
  let s := s.modSec fun x =>
    let x := { x with ownerRecords := x.ownerRecords ++ [(oid, pub)], ownerInForce := true, lifecycle := .provisioned, cmdSeq := 0, slotGen := []
                      tamperCount := 0, armedCopy := true }
    let x := (x.clearSlot 9).fill 10 4 8 false pub
    let x := x.fill 1 1 3 false (Config.hmac Config.rootSecret (ascii "YK-OSK" ++ x.sid ++ oid))
    let x := { x with material := some { kek := kek, keys := [], sealedUnder := x.ownerSeal } }
    x.openOwner
  let s := (s.modUpd fun u => { u with fwFloor := 0 }).modCst fun k => { k with seqFloor := 0 }
  s.closeSessions fun y => y.role = .vendor

/-- R436: RETURN accepted. -/
def State.returnToVendor (s : State) : State :=
  let s := s.modSec fun x =>
    let x := [1, 2, 3, 4, 5, 6, 7, 8, 10, 13, 14].foldl Sec.clearSlot x
    let x := { x with material := none, ownerOpen := false, ownerHeld := false, lifecycle := .returned, ownerInForce := false, armedCopy := false
                      slots := x.slots.filter fun p => decide (p.1 < 32), cacheOrder := [] }
    x.fill 9 3 20 true x.vendorSecret
  (s.closeSessions fun y => y.role ≠ .vendor).safehold 4

/-- R436: SCRAP accepted. -/
def State.scrapModule (s : State) : State :=
  let s := s.modSec fun x => { x with
    helperOk := false, slots := [], cacheOrder := [], lifecycle := .scrapped, ownerOpen := false, keysOk := false, armedCopy := false }
  (s.closeSessions fun _ => true).safehold 4

/-- TAMPER_ACK accepted (R467). -/
def State.tamperAck (s : State) : State :=
  let held := s.live.sec.ownerHeld
  let lost := s.live.sec.slotsLost
  let s := s.modSec fun x => { x with
    tStart := false, tLoad := false, tSleep := false, tRun := false, tKeyop := false, ackPending := false, locked := false }
  if held then (s.modSec Sec.openOwner).enterLoad
  else if lost then s.pulseReset .warmSw 3
  else s

/-- DEBUG_UNLOCK accepted (R456). -/
def State.unlock (s : State) (level : Nat) : State :=
  s.modSec fun x =>
    if level = 1 then { x with debug := 1, challenge := none, lastBurst := s.now } else { x with openNext := true, challenge := none }

/-- A DEBUG_UNLOCK failed (R456): it counts, eight lock the port out, the challenge is spent. -/
def State.unlockFailed (s : State) : State :=
  s.modSec fun x => { x with dbgFails := satAdd 4 x.dbgFails 1, lockout := x.lockout || decide (7 ≤ x.dbgFails), challenge := none }

/-- What an accepted command does. FORCE_CLAIM may still end with another result. -/
def State.cmdEffect (s : State) (r : SecRun) : Nat × State :=
  let b := r.bytes
  let c := cmdBody b
  match cmdCode_ b with
  | 1 => (1, s.provisionModule c)
  | 2 => (1, s.setOwnerKey (u8 c 0) (s.live.sec.unwrap b))
  | 3 => (1, s.setOwnerKey 13 (some (Machine.slice c 4 64)))
  | 4 => (1, s.setOwnerKey (u8 c 0) none)
  | 5 => (1, s.modSec fun x => { x with lifecycle := .deployed, openNext := false })
  | 6 => (1, s.returnToVendor)
  | 7 => (1, s.scrapModule)
  | 8 => (1, s.modSec fun x => { x with material := x.material.map fun m =>
      { m with legacy := u8 c 0 = 1, tamperRun := u8 c 1, partialDbg := u8 c 2 = 1, generation := m.generation + 1 } })
  | 9 => (1, s)
  | 10 => s.forceClaim c r.src r.role r.session
  | 11 => (1, s.unlock (u8 c 0))
  | _ => (3, s)

/-- SECURITY_COMMAND_END (R448, R449): the running command ends with its result and its effect. -/
def execSecurityCommandEnd (s : State) : Host.Outcome State Fault Refusal :=
  match s.live.sec.running with
  | none => .next s
  | some r =>
    let b := r.bytes
    let code := cmdCode_ b
    let s := s.modSec fun x => { x with running := none }
    let pre := s.cmdCheck r
    let res := if pre = 1 then s.cmdEffect r else (pre, s)
    let s := res.2
    let s := if res.1 = 1 ∧ 0 < cmdSeq_ b then s.modSec fun x => { x with cmdSeq := cmdSeq_ b } else s
    let s := if code = 11 ∧ res.1 ≠ 1 then s.unlockFailed else s
    let s := s.cmdResult 2 res.1 (code % 256) (cmdSeq_ b)
    let s := s.journal 21 (ev2 code res.1 ++ leBytes 4 (cmdSeq_ b) ++ ev1 s.live.sec.lifecycle.code)
    .next (if res.1 = 1 ∧ code = 9 then s.tamperAck else s)

/-! Debug control (R456). -/

/-- SEC_DBG_CMD at its commit. -/
def State.dbgCommand (s : State) (src : Source) (w : Word) : State :=
  let s := if bit w 0 ∧ src = .dbg ∧ !s.live.sec.lockout then
      let r := s.random 128
      r.2.modSec fun x => { x with challenge := some (leBytes 16 r.1, s.now) } else s
  let s := if bit w 1 ∧ s.live.sec.debug = 1 then s.modSec fun x => { x with debug := 0 } else s
  if bit w 2 ∧ src = .dbg then
    (if s.live.sec.lifecycle = .manufacture then s.modSec fun x => { x with openNext := true } else s.werr 0x3E40 src .value)
  else s

/-- CHALLENGE_EXPIRY (R456): 300 s after it was drawn. -/
def execChallengeExpiry (s : State) : Host.Outcome State Fault Refusal :=
  match s.live.sec.challenge with
  | some (_, t) => if t + 300000000000 ≤ s.now then .next (s.modSec fun x => { x with challenge := none }) else .next s
  | none => .next s

/-- PARTIAL_TIMEOUT (R456): 3,600 s without a burst. -/
def execPartialTimeout (s : State) : Host.Outcome State Fault Refusal :=
  if s.live.sec.debug = 1 ∧ s.live.sec.lastBurst + 3600000000000 ≤ s.now then .next (s.modSec fun x => { x with debug := 0 }) else .next s

/-- DRBG_RESEED (R445): every 2^20 requests the generator is reseeded from the entropy source. -/
def execDrbgReseed (s : State) : Host.Outcome State Fault Refusal :=
  if 2 ^ 20 ≤ s.live.sec.drbgRequests then .next (s.modSec fun x => { x with drbgRequests := 0 }) else .next s

/-! Attestation (R458). -/

/-- The message of R458; the 16 bytes that a 32-byte digest does not fill are 0 (log entry 77). -/
def Core.attMessage (k : Core) (epoch : Nat) (chal : Bytes) : Bytes :=
  ascii "YATT" ++ chal ++ k.sec.mr.flatten ++ leBytes 1 k.sec.lifecycle.code ++ [0, 0, 0]
    ++ (if k.epc.casting then (k.cst.digest ++ List.replicate 48 0).take 48 else List.replicate 48 0) ++ leBytes 8 epoch

/-- GO at its commit: the message of R458 is the one of that epoch. -/
def State.attest (s : State) : State :=
  let chal := bytesOfWords ((List.range 4).map fun k => tget s.live.sec.attChal k 0)
  let e := s.live.epc.epoch
  s.modSec fun x => { x with attRun := some (e, s.live.attMessage e chal, s.now), attState := 1 }

/-- ATTESTATION_COMPLETE (R458): the result is shown from the next pour on. -/
def execAttestationComplete (s : State) : Host.Outcome State Fault Refusal :=
  match s.live.sec.attRun with
  | none => .next s
  | some (e, message, _) =>
    match s.live.sec.key? 4 with
    | none => .next (s.modSec fun x => { x with attRun := none, attState := 3, attMac := [] })
    | some k =>
      let m := Config.hmac k message
      .next (s.modSec fun x => { x with
        attRun := none, attState := 2, attEpoch := e, attMac := (List.range 8).map fun i => wordAt m i })

/-! Tamper (R431, R462 to R466). -/

/-- R466: what runs in the enclave is aborted. -/
def State.abortKeyOps (s : State) : State :=
  let x := s.live.sec
  let s := match x.running with
    | some r =>
      let s := if cmdCode_ r.bytes = 11 then s.unlockFailed else s
      (s.modSec fun y => { y with running := none, tKeyop := true }).cmdResult 2 13 (cmdCode_ r.bytes % 256) (cmdSeq_ r.bytes)
    | none => s
  if x.attRun.isSome then s.modSec fun y => { y with attRun := none, attState := 4, tKeyop := true } else s

/-- TAMPER_RUN in force (R465); ALARM while the Owner material is not open. -/
def Sec.tamperRun (x : Sec) : Nat := if x.ownerOpen then (x.material.map OwnerMaterial.tamperRun).getD 0 else 0

/-- The response from epoch 0 or the start of a bare run on (R465). -/
def State.tamperRunning (s : State) (code : Nat) : State :=
  let s := s.modSec fun x => { x with tRun := true }
  match code with
  | 1 => (s.modSec fun x => { x with locked := true, debug := 0, openNext := false }).closeSessions fun y => y.role ≠ .owner
  | 2 =>
    let s := s.closeSessions fun _ => true
    let s := s.modSec fun x => { x with
      slots := x.slots.filter fun p => p.1 = 0 || (10 ≤ p.1 && p.1 ≤ 12), cacheOrder := [], ownerOpen := false, slotsLost := true, debug := 0 }
    if s.live.epc.casting then s.safehold 5 else s
  | _ => s

/-- R463: BOOT stops; no slot is filled. -/
def State.tamperBoot (s : State) : State :=
  let s := s.modSec fun x => { x with tStart := true, slots := [], keysOk := false, bootFail := true, failCause := 3, slotsLost := true }
  ((s.journal 3 (ev1 3)).modPwr fun p => { p with bootStarted := true }).startBare 1

/-- What an activation always does (R431, R462): the stamp of the first one, the source bits, and the journal; in BACKUP the
record is owed. -/
def State.tamperMark (s : State) (n : Nat) : State :=
  let x := s.live.sec
  let first : Bool := !x.ackPending
  let s := s.modClk fun c => { c with
    active0 := c.active0 || n = 0, active1 := c.active1 || n = 1
    tamp := if first then some c.counts else c.tamp, tampSrc := if first then 2 ^ n else c.tampSrc ||| 2 ^ n }
  if s.live.pwr.mode = .backup then s.modSec fun y => { y with owedTamper := y.owedTamper ++ [2 ^ n] }
  else s.journal 20 (leBytes 1 (2 ^ n) ++ ev2 x.lifecycle.code x.tamperRun) x.armed

/-- What an armed response does in every mode (R463, R464): the backup registers are cleared, the activation waits for its
acknowledgement and counts, key operations end. -/
def State.tamperArm (s : State) : State :=
  ((s.modClk fun c => { c with bkp := [] }).modSec fun y =>
    { y with ackPending := true, tamperCount := satAdd 8 y.tamperCount 1 }).abortKeyOps

/-- What an armed response does in the present mode (R463). -/
def State.tamperRespond (s : State) : State :=
  match s.live.pwr.mode with
  | .backup => s.modSec fun y => { y with tSleep := true }
  | .boot => if s.live.pwr.inReset then s else s.tamperBoot
  | .load =>
    let s := s.modSec fun y => { y with tLoad := true }
    let slot := s.live.cst.chosen.getD 0
    let s := s.modCst fun k => { k.setErr slot { code := cKey } with tried0 := k.tried0 || slot = 0, tried1 := k.tried1 || slot = 1 }
    (s.noteErr 4 slot { code := cKey }).loadFails
  | _ => s.tamperRunning s.live.sec.tamperRun

/-- R431: tamper input `n` is sampled active. -/
def Clk.inputActive (c : Clk) (n : Nat) : Bool := if n = 0 then c.active0 else c.active1

/-- TAMPER_ACTIVATION (R431, R462): input `n` sampled low twice in succession. -/
def execTamperActivation (n : Nat) (s : State) : Host.Outcome State Fault Refusal :=
  if 1 < n ∨ s.live.clk.inputActive n then .next s
  else if !s.live.sec.armed then .next (s.tamperMark n)
  else .next (s.tamperMark n).tamperArm.tamperRespond

/-- TAMPER_INPUT_INACTIVE (R431): input `n` sampled high again. -/
def execTamperInputInactive (n : Nat) (s : State) : Host.Outcome State Fault Refusal :=
  .next (s.modClk fun c => { c with active0 := c.active0 && n ≠ 0, active1 := c.active1 && n ≠ 1 })

/-- R462: activations in BACKUP are journalled at the next epoch 0. -/
def State.owedTamper (s : State) : State :=
  let s1 := s.live.sec.owedTamper.foldl (fun s m => s.journal 20 (leBytes 1 m ++ ev2 s.live.sec.lifecycle.code 0) true) s
  s1.modSec fun x => { x with owedTamper := [] }

/-! Registers at 0x3E00. -/

/-- SEC_STATUS and SEC_TAMPER, also taken live by the health report (R536). -/
def Core.secStatus (k : Core) : Word :=
  let x := k.sec
  pack [(0, 3, x.lifecycle.code), (3, 2, x.debug), (5, 1, x.openNext.toNat), (6, 1, x.keysOk.toNat), (7, 1, x.ownerOpen.toNat),
    (8, 1, x.bootFail.toNat), (9, 3, x.failCause), (12, 1, x.locked.toNat)]
def Core.secTamper (k : Core) : Word :=
  let x := k.sec
  pack [(0, 1, x.tStart.toNat), (1, 1, x.tLoad.toNat), (2, 1, x.tSleep.toNat), (3, 1, x.tRun.toNat), (4, 1, x.tKeyop.toNat),
    (5, 1, x.ackPending.toNat), (6, 1, k.clk.active0.toNat), (7, 1, k.clk.active1.toNat), (8, 8, x.tamperCount)]

def slotBits (t : Table KeySlot) (lo : Nat) : Word :=
  word (t.foldl (fun a p => if lo ≤ p.1 ∧ p.1 < lo + 32 then a ||| 2 ^ (p.1 - lo) else a) 0)

def readSec (k : Core) (addr : Nat) : Word :=
  let x := k.sec
  match addr with
  | 0x3E00 => k.secStatus
  | 0x3E04 => k.secTamper
  | 0x3E08 => word x.serial
  | 0x3E0C => word (x.serial / 2 ^ 32)
  | 0x3E20 =>
    match x.ownerOpen, x.material with
    | true, some m => pack [(0, 1, m.legacy.toNat), (1, 2, m.tamperRun), (3, 1, m.partialDbg.toNat)]
    | _, _ => 0
  | 0x3E24 => slotBits x.slots 0
  | 0x3E28 => slotBits x.slots 32
  | 0x3E2C => word x.slotSel
  | 0x3E30 =>
    match tfind x.slots x.slotSel with
    | some t => pack [(0, 3, t.cls), (3, 6, t.use), (9, 1, t.held.toNat), (16, 8, t.gen)]
    | none => pack [(16, 8, tget x.slotGen x.slotSel 0)]
  | 0x3E34 => word x.cmdSeq
  | 0x3E3C => pack [(0, 2, x.cmdState), (2, 4, x.cmdResult), (8, 8, x.cmdCode), (16, 16, x.cmdResSeq)]
  | 0x3E44 =>
    let at_ := k.epc.boundaryAt
    pack [(0, 2, x.debug), (2, 1, x.challenge.isSome.toNat), (3, 1, x.lockout.toNat), (4, 4, x.dbgFails),
      (16, 16, if x.debug = 1 then (x.lastBurst + 3600000000000 - at_ + 999999999) / 1000000000 else 0)]
  | 0x3E4C => word x.attState
  | 0x3E50 => word x.attEpoch
  | 0x3E54 => word (x.attEpoch / 2 ^ 32)
  | 0x3E58 => pack [(0, 8, x.cmdFail), (8, 8, x.denied), (16, 8, x.collide), (24, 8, x.useDeny)]
  | 0x3E5C => word x.mrSel
  | _ =>
    if 0x3E10 ≤ addr ∧ addr < 0x3E20 then wordAt ((x.owner?.map Prod.fst).getD []) ((addr - 0x3E10) / 4)
    else if 0x3E60 ≤ addr ∧ addr < 0x3E90 then wordAt (x.mr.getD x.mrSel []) ((addr - 0x3E60) / 4)
    else if 0x3E90 ≤ addr ∧ addr < 0x3EA0 then tget x.attChal ((addr - 0x3E90) / 4) 0
    else if 0x3EA0 ≤ addr ∧ addr < 0x3EC0 then x.attMac.getD ((addr - 0x3EA0) / 4) 0
    else if 0x3EC0 ≤ addr ∧ addr < 0x3ED0 then wordAt ((x.challenge.map Prod.fst).getD []) ((addr - 0x3EC0) / 4)
    else if 0x3F00 ≤ addr ∧ addr < 0x4000 then tget x.cmdWin ((addr - 0x3F00) / 4) 0
    else 0

/-- Rules of the SEC_ writes (R39, R456). -/
def checkSec (k : Core) (addr : Nat) (src : Source) (w : Word) : Bool :=
  match addr with
  | 0x3E5C => field w 2 0 ≠ 7
  | 0x3E40 => !(bit w 2 && src = .dbg && k.sec.lifecycle ≠ .manufacture)
  | _ => true

/-- A staged write of a SEC_ register at its commit; windows and their commands are grouped by the boundary. -/
def State.commitSec (s : State) (src : Source) (role : Role) (session addr : Nat) (w : Word) : State :=
  match addr with
  | 0x3E2C => s.modSec fun x => { x with slotSel := field w 5 0 }
  | 0x3E38 => if bit w 0 then s.startCommand src role session else s
  | 0x3E40 => s.dbgCommand src w
  | 0x3E48 => if bit w 0 then s.attest else s
  | 0x3E5C => s.modSec fun x => { x with mrSel := field w 2 0 }
  | _ =>
    if 0x3E90 ≤ addr ∧ addr < 0x3EA0 then s.modSec fun x => { x with attChal := tset x.attChal ((addr - 0x3E90) / 4) w }
    else if 0x3F00 ≤ addr ∧ addr < 0x4000 then s.modSec fun x => { x with cmdWin := tset x.cmdWin ((addr - 0x3F00) / 4) w }
    else s

end Sys2Proof.Machine
end

