-- ==== Sys2Proof/Machine/Network.lean ====
section
/-! DEFINITION. The network block (spec/13): ports, PRP, the IP stack, the substation protocol YSP, telemetry sources. -/

namespace Sys2Proof.Machine

open Sys2Proof

/-! Ports (R363 to R367). -/

/-- A port that is on, linked, and has its frames handled now. -/
def State.portUp (s : State) (p : Nat) : Bool := s.portOn p && s.live.pwr.cpRunning

/-- The ports on which a frame other than a PTP frame goes out: both in PRP, the one named otherwise (R364). -/
def State.portsFor (s : State) (p : Nat) : List Nat :=
  (if s.live.cst.portMode p = 2 then [0, 1] else [p]).filter s.portOn

/-- The bytes of a sent frame on the wire (R387): SCHEDULE with its step words, SYNC, SHED, an echo reply with its data, else the
shortest frame. -/
def ethOctets (kind : Nat) (words : List Nat) : Nat :=
  max 64 (match kind with
    | 2 => 45 + words.length
    | 4 => 32 + 4 * words.length
    | 5 => 92
    | 6 => 88
    | _ => 64)

/-- What waits in a port's transmit buffer now: it empties at the line rate, 8 ns or 80 ns a byte (log entry 51). -/
def Port.waiting (q : Port) (now : Nat) : Nat := q.txFill - (now - q.txAt) / (if q.gig then 8 else 80)

/-- A copy of `len` bytes fits in the port's 64 KiB transmit buffer (R366). -/
def Port.hasRoom (q : Port) (now len : Nat) : Bool := decide (q.waiting now + len ≤ 65536)

/-- A copy queued on a port. -/
def Port.queue (q : Port) (now len : Nat) : Port := { q with tx := sat32 q.tx, txFill := q.waiting now + len, txAt := now }

/-- A frame is sent on ports, one whose transmit buffer is full dropping its copy (R366): each counts it; in PRP the copies share
a sequence number. -/
def State.ethSend (s : State) (ports : List Nat) (kind : Nat) (words : List Nat) : State :=
  let len := ethOctets kind words
  let prp := ports.any fun p => s.live.cst.portMode p = 2
  let s := s.modEth fun e => { e with prpSeq := if prp then (e.prpSeq + 1) % 65536 else e.prpSeq }
  let ports := ports.filter fun p => (s.live.eth.port p).hasRoom s.now len
  if ports.isEmpty then s
  else (s.modEth fun e => ports.foldl (fun e p => e.setPort p ((e.port p).queue s.now len)) e).send (.eth kind words)

/-- LINK_CHANGE (R363): link state and speed of a port; a port advertising 1000 only does not link at 100BASE-TX, and a port
that is off has no link, nor has one while the crystal is lost (R23). -/
def execLinkChange (p : Nat) (up gig : Bool) (s : State) : Host.Outcome State Fault Refusal :=
  if 2 ≤ p then .next s
  else
    let on : Bool := up && s.live.epc.casting && !s.live.sys.reserveOsc && s.live.cst.portMode p ≠ 0 && (gig || u8 (s.live.cst.netPort p) 1 = 0)
    .next (s.modEth fun e => e.setPort p { e.port p with
      up := on, gig := on && gig, bufPtp := if on then (e.port p).bufPtp else 0, bufOther := if on then (e.port p).bufOther else 0 })

/-- The VLAN identifier of a class (R365, R369): 0 IP, 1 YSP, 2 PTP; in PRP mode the IP fields are those of port 0. -/
def Cst.classVid (c : Cst) (p cls : Nat) : Nat := u16 (c.netPort p) (16 + 2 * cls)

/-- R365: the frame's VID is that of a class; VID 0 and no tag are the same. -/
def Cst.vlanOk (c : Cst) (p : Nat) (vid : Option Nat) : Bool := (List.range 3).any fun k => c.classVid p k = vid.getD 0

def prpForgetNs : Nat := 400000000

/-- The duplicate table without the entries past their forget time (R364). -/
def Eth.freshDups (e : Eth) (now : Nat) : List (Nat × Nat × Nat) := e.dups.filter fun d => decide (now < d.2.2 + prpForgetNs)

/-- R366, R367: an accepted frame takes buffer space while the control processor does not run; the fragments of a datagram are
collected in a reassembly buffer. -/
def State.ethAccept (s : State) (p : Nat) (f : EthFrame) : State :=
  let q := s.live.eth.port p
  if !s.live.pwr.cpRunning then
    let fits : Bool := if f.cls = 2 then decide (q.bufPtp + q.bufOther + f.len ≤ 65536) else decide (q.bufOther + f.len ≤ 57344 ∧ q.bufPtp + q.bufOther + f.len ≤ 65536)
    s.modEth fun e => e.setPort p
      (if !fits then { q with drop := sat32 q.drop }
       else if f.cls = 2 then { q with bufPtp := q.bufPtp + f.len } else { q with bufOther := q.bufOther + f.len })
  else
    match f.frag with
    | none => s
    | some (dg, last, bytes) =>
      s.modEth fun e =>
        let rest := e.reasm.filter fun r => r.1 ≠ dg
        if last ∨ 8192 < bytes then { e with reasm := rest }
        else if rest.length ≠ e.reasm.length then e
        else if 8 ≤ e.reasm.length then e
        else { e with reasm := e.reasm ++ [(dg, s.now)] }

/-- ETH_FRAME_RX (R363 to R367): a frame arrives on a port. -/
def execEthFrameRx (p : Nat) (f : EthFrame) (s : State) : Host.Outcome State Fault Refusal :=
  if !s.portOn p then .next s
  else
    let q := s.live.eth.port p
    let prp : Bool := s.live.cst.portMode p = 2 && f.cls ≠ 2
    let most := if prp && f.prp.isSome then 1528 else 1522
    if !f.ok ∨ most < f.len then .next (s.modEth fun e => e.setPort p { q with err := sat32 q.err })
    else
      let s := s.modEth fun e => e.setPort p { q with rx := sat32 q.rx }
      if !s.live.cst.vlanOk p f.vid then .next s
      else
        match prp, f.prp with
        | true, some (src, seq, lan) =>
          let s := if lan then s else s.modEth fun e => { e with prpErr := sat32 e.prpErr }
          let tab := s.live.eth.freshDups s.now
          if tab.any fun d => d.1 = src ∧ d.2.1 = seq then .next (s.modEth fun e => { e with dups := tab, prpDup := sat32 e.prpDup })
          else .next ((s.modEth fun e => { e with dups := (tab ++ [(src, seq, s.now)]).drop (tab.length + 1 - 2048) }).ethAccept p f)
        | _, _ => .next (s.ethAccept p f)

/-- PRP_SUPERVISION (R364): every 2 s in mode 2. -/
def execPrpSupervision (s : State) : Host.Outcome State Fault Refusal :=
  let due : Bool := match s.live.eth.supAt with
    | some t => s.elapsed t 2000000000
    | none => true
  if s.live.cst.portMode 0 = 2 ∧ due ∧ s.live.pwr.cpRunning ∧ s.live.epc.casting then
    .next ((s.modEth fun e => { e with supAt := some s.now }).ethSend (s.portsFor 0) 0 [0x01154E000100])
  else .next s

/-- The module's own IPv4 address on a port (R369); none without a prefix length. -/
def Core.ipv4 (k : Core) (p : Nat) : Option Nat :=
  let b := k.cst.netPort (if k.cst.portMode p = 2 then 0 else p)
  if u8 b 2 = 0 then none else some (u32 b (if k.roleB then 8 else 4))

/-- ARP_REQUEST (R367): for an address, from a requester. -/
def execArpRequest (p ip asker : Nat) (s : State) : Host.Outcome State Fault Refusal :=
  if s.portUp p && s.live.ipv4 p = some ip then .next (s.ethSend (s.portsFor p) 1 [ip, asker]) else .next s

/-- ICMP_ECHO (R367): an echo request with its identifier and sequence number, and its payload. -/
def execIcmpEcho (p ip ident : Nat) (data : List Nat) (s : State) : Host.Outcome State Fault Refusal :=
  if s.portUp p && s.live.ipv4 p = some ip then .next (s.ethSend (s.portsFor p) 2 (ident :: data)) else .next s

/-- REASSEMBLY_TIMEOUT (R367): a datagram not complete within 100 ms. -/
def execReassemblyTimeout (dg : Nat) (s : State) : Host.Outcome State Fault Refusal :=
  .next (s.modEth fun e => { e with reasm := e.reasm.filter fun r => !(r.1 = dg && s.elapsed r.2 100000000) })

/-! YSP: sending (R385 to R388). -/

/-- The module holds the claim and has a network port (R333, R388). -/
def State.yspHolds (s : State) : Bool :=
  s.live.epc.casting && s.holdsClaim && s.live.pwr.cpRunning && (s.portOn 0 || s.portOn 1)

/-- The NCLAIM of the header: the sender's ACTIVE code, also while the pin code is SEIZE. -/
def Core.yspClaim (k : Core) : Nat := k.par.gen % 2 ^ 29 * 8 + k.activeCode

def Eth.sub (e : Eth) (i : Nat) : YspSub := tget e.subs i {}
def State.modSub (s : State) (i : Nat) (f : YspSub → YspSub) : State := s.modEth fun e => { e with subs := tmod e.subs i {} f }

/-- R388: a change of NCLAIM restarts the frame counters, and SYNC is owed to every substation. -/
def State.yspSettle (s : State) : State :=
  let n := s.live.yspClaim
  if !s.yspHolds ∨ n = s.live.eth.nclaim then s
  else
    let s := s.modEth fun e => { e with nclaim := n }
    (List.range s.live.cst.substations).foldl (fun s i => s.modSub i fun x => { x with txCnt := 0, syncDue := true }) s

/-- R386, R461: K_i in the key cache, the least recently used entry giving way. -/
def Sec.cacheKey (x : Sec) (sub kgen : Nat) : Sec :=
  match x.key? 3 with
  | none => x
  | some root =>
    let key := Config.hmac root (ascii "YSP-K" ++ leBytes 2 sub ++ leBytes 2 kgen)
    let slots := (List.range 32).map (· + 32)
    let hit := slots.find? fun k => x.key? k = some key
    let free := slots.find? fun k => (tfind x.slots k).isNone
    let k := (hit.orElse fun _ => free).getD (x.cacheOrder.headD 32)
    { x.fill k 1 3 true key with cacheOrder := x.cacheOrder.filter (· ≠ k) ++ [k] }

/-- The address a frame to a substation goes to (R385). -/
def YspSub.dest (x : YspSub) : Nat := x.addr.getD 0x035953500000

/-- One device frame: destination, NCLAIM, FCNT, EPOCH, TIME_S, TIME_NS, then the fields of its body (log entry 45). Kinds: 4
SCHEDULE, 5 SYNC, 6 SHED. At most 8 frames but SYNC go to a substation per plan cycle; without the root key none can be
sealed. -/
def State.yspSend (s : State) (kind sub : Nat) (body : List Nat) : State :=
  let x := s.live.eth.sub sub
  if !s.yspHolds ∨ (s.live.sec.key? 3).isNone ∨ (kind ≠ 5 ∧ 8 ≤ x.sent) then s
  else
    let ns := s.live.ptp.inUse s.live.cst.slewPpb s.now / nsUnit
    let s := s.modSec fun y => y.cacheKey sub (u16 s.live.cst.netGlobal 10)
    let s := s.modSub sub fun x => { x with txCnt := x.txCnt + 1, sent := if kind = 5 then x.sent else x.sent + 1 }
    let s := s.modEth fun e => { e with yspTx := sat32 e.yspTx }
    let ports := (if s.live.cst.portMode 0 = 0 then [1] else if s.live.cst.portMode 1 = 0 then [0] else [0, 1]).filter s.portOn
    s.ethSend ports kind ([sub, x.dest, s.live.yspClaim, x.txCnt + 1, s.live.epc.epoch, ns / 1000000000, ns % 1000000000] ++ body)

/-- CYCLE_MS. -/
def State.cycleMs (s : State) : Nat := s.live.epc.planP * s.live.epc.periodMs

/-- The number of steps of a block that start before HOLD_END (R180). -/
def stepsBefore (r : PlanRec) (steps : Nat) : Nat := min steps ((r.holdEnd - r.t0 + (r.stepMin * 60 - 1)) / (r.stepMin * 60))

/-- A schedule: the frames of one substation block (R387, R388), with `steps` steps. -/
def State.yspSchedule (s : State) (r : PlanRec) (b : SubBlock) (steps : Nat) : State :=
  let c := s.live.cst
  let t := c.subTpl b.sub
  let d := c.dims t
  let cap := max 1 (306 / d.b)
  let frames := max 1 ((steps + cap - 1) / cap)
  let xi := 32 - (c.tplCls t 0).frac
  let s := (List.range frames).foldl (fun s f =>
    let first := f * cap
    let count := min cap (steps - first)
    s.yspSend 4 b.sub ([r.seq, r.t0, r.holdEnd, s.cycleMs, r.stepMin, r.n, steps, d.nu, d.nx, xi, b.flags, first, count, b.paramGen]
      ++ (((b.words.drop (first * d.b)).take (count * d.b)).map BitVec.toNat))) s
  s.modPln fun p => { p with sent := tset p.sent b.sub steps }

/-- The SHED frame of a substation: FRACTION, CYCLE_MS. -/
def State.yspShed (s : State) (sub : Nat) (fraction : Word) : State := s.yspSend 6 sub [fraction.toNat, s.cycleMs]

/-- The fraction of a shed substation (R187). -/
def State.subShed (s : State) (sub : Nat) : Option Word := s.live.cst.shedValue s.live.pln.shed 3 sub

/-- R180: the substation blocks of a record in the epoch of its pour; none to a substation that is shed or being restored. -/
def State.yspPour (s : State) : State :=
  match s.live.pln.record with
  | none => s
  | some r =>
    if !s.yspHolds then s
    else r.subs.foldl (fun s b =>
      if (s.subShed b.sub).isSome ∨ (s.live.eth.sub b.sub).unshed ≠ 0 then s
      else s.yspSchedule r b (if s.holdOut r s.bound then 0 else stepsBefore r b.steps)) s

/-- R180: at HOLD_END, STEPS 0 to every substation whose last block had steps. -/
def State.yspHoldEnd (s : State) : State :=
  match s.live.pln.record with
  | none => s
  | some r => s.live.pln.sent.foldl (fun s e =>
      if e.2 = 0 then s
      else s.yspSchedule r ((r.subs.find? fun b => b.sub = e.1).getD { sub := e.1 }) 0) s

/-- R388: what an opening epoch brings: a new plan cycle, SHED to the shed and to the restored, SYNC to those newly learned. -/
def State.yspOpening (s : State) : State :=
  let s := s.modEth fun e => { e with subs := e.subs.map fun p => (p.1, { p.2 with
    sent := 0, rejSync := false, syncDue := p.2.syncDue || p.2.fresh, fresh := false }) }
  if !s.yspHolds then s
  else (List.range s.live.cst.substations).foldl (fun s i =>
    match s.subShed i with
    | some f => s.yspShed i f
    | none =>
      if (s.live.eth.sub i).unshed = 0 then s
      else (s.yspShed i (fOfNat 1)).modSub i fun x => { x with unshed := x.unshed - 1 }) s

/-- R388: substations that are no longer shed hear FRACTION 1.0 at once and at the next two opening epochs. -/
def State.yspUnshed (s : State) (old : List Nat) : State :=
  (List.range s.live.cst.substations).foldl (fun s i =>
    if (s.live.cst.shedValue old 3 i).isSome ∧ (s.subShed i).isNone then
      (s.modSub i fun x => { x with unshed := 2 }).yspShed i (fOfNat 1)
    else s) s

/-- YSP_SYNC_SEND (R388): the SYNC owed to a substation. -/
def execYspSyncSend (sub : Nat) (s : State) : Host.Outcome State Fault Refusal :=
  let s := s.yspSettle
  if sub < s.live.cst.substations ∧ (s.live.eth.sub sub).syncDue ∧ s.yspHolds then
    let seq := match s.live.pln.record with
      | some r => r.seq
      | none => 0
    .next ((s.modSub sub fun x => { x with syncDue := false }).yspSend 5 sub [seq, s.cycleMs, u16 s.live.cst.netGlobal 8])
  else .next s

/-! Telemetry (R389, R102). -/

/-- The first check of R389 that a frame fails. -/
def State.telCheck (s : State) (f : TelFrame) : Option Nat :=
  if f.ver ≠ 1 ∨ f.len ≠ 8 + 8 * f.count ∨ 64 < f.count ∨ f.entries.length ≠ f.count then some 1
  else if s.live.cst.substations ≤ f.sub then some 2
  else if !f.tagOk ∨ (s.live.sec.key? 3).isNone then some 3
  else if (s.live.eth.sub f.sub).addr.isSome ∧ f.fcnt ≤ (s.live.eth.sub f.sub).rxCnt then some 4
  else if f.nclaim / 8 ≠ s.live.par.gen % 2 ^ 29 then some 5
  else none

/-- TELEMETRY (R389): a frame of a substation. -/
def execTelemetry (f : TelFrame) (s : State) : Host.Outcome State Fault Refusal :=
  if !(s.portOn 0 || s.portOn 1) ∨ !s.live.pwr.cpRunning then .next s
  else
    match s.telCheck f with
    | some code =>
      let s := s.modEth fun e => { e with yspRej := satAdd 28 e.yspRej 1, yspLast := code }
      .next (if code = 5 ∧ !(s.live.eth.sub f.sub).rejSync then s.modSub f.sub fun x => { x with syncDue := true, rejSync := true } else s)
    | none =>
      let s := s.modSec fun y => y.cacheKey f.sub (u16 s.live.cst.netGlobal 10)
      let s := s.modEth fun e => { e with yspRx := sat32 e.yspRx }
      .next (s.modSub f.sub fun x => { x with
        fresh := x.fresh || x.addr.isNone
        addr := some f.addr
        rxCnt := f.fcnt
        state := f.state % 4
        lastAt := some s.now
        echo := f.echo
        fields := f.entries.foldl (fun t e => tset t e.1 (e.2.2, decide (e.2.1 = 1), s.live.epc.epoch)) x.fields })

/-- The value of a TELEMETRY source (R102): Q16.16, its fault flag; a field never received reads 0 and counts as faulted (log
entry 46). -/
def Core.telemetry (k : Core) (code : Nat) : Word × Bool :=
  match tfind (k.eth.sub (code / 65536 % 2048)).fields (code % 256) with
  | some (w, q, _) => (w, q)
  | none => (0, true)

/-- The value of any source, exact, with its fault flag. -/
def Core.sourceDy (k : Core) (code : Nat) : Dy × Bool :=
  if code / 2 ^ 28 = 2 then
    let x := k.telemetry code
    (Dy.ofQ16 x.1, x.2)
  else
    let x := k.sourceBut code
    (fValue x.1, x.2)

/-- The value of any source as a single. -/
def Core.source (k : Core) (code : Nat) : Word × Bool :=
  if code / 2 ^ 28 = 2 then
    let x := k.telemetry code
    (fOfDy (Dy.ofQ16 x.1), x.2)
  else k.sourceBut code

/-! Registers at 0x3400. -/

def readPort (q : Port) (r : Nat) : Word :=
  match r with
  | 0 => word q.rx
  | 4 => word q.drop
  | 8 => word q.tx
  | _ => word q.err

def readEth (k : Core) (addr : Nat) : Word :=
  let e := k.eth
  let x := e.sub e.sel
  let mode := fun p => if k.epc.casting then k.cst.portMode p else 0
  match addr with
  | 0x3400 => pack [(0, 2, mode 0), (2, 1, e.port0.up.toNat), (3, 1, e.port0.gig.toNat), (4, 2, mode 1), (6, 1, e.port1.up.toNat), (7, 1, e.port1.gig.toNat),
      (8, 1, (k.epc.casting && ((k.ipv4 0).isSome || (k.ipv4 1).isSome) : Bool).toNat)]
  | 0x3430 => word e.prpDup
  | 0x3434 => word e.prpErr
  | 0x3440 => pack [(0, 4, e.sessions.length), (16, 16, e.authFail)]
  | 0x3444 => word e.yspRx
  | 0x3448 => pack [(0, 28, e.yspRej), (28, 4, e.yspLast)]
  | 0x344C => word e.yspTx
  | 0x3450 => word e.sel
  | 0x3454 => pack [(0, 1, x.addr.isSome.toNat), (1, 2, x.state), (16, 16, match x.lastAt with
      | some t => min 65535 ((k.epc.boundaryAt - t) / 1000000000)
      | none => 65535)]
  | 0x3458 => word x.echo
  | _ => if 0x3410 ≤ addr ∧ addr < 0x3430 then readPort (e.port ((addr - 0x3410) / 16)) (addr % 16) else 0

/-- Staged writes of the ETH_ registers: the selection, CLR_STATS. -/
def State.commitEth (s : State) (addr : Nat) (w : Word) : State :=
  match addr with
  | 0x3450 => s.modEth fun e => { e with sel := field w 9 0 }
  | 0x345C =>
    if bit w 0 then
      let clear := fun (q : Port) => { q with rx := 0, drop := 0, tx := 0, err := 0 }
      s.modEth fun e => { e with
        port0 := clear e.port0, port1 := clear e.port1, prpDup := 0, prpErr := 0, authFail := 0, yspRx := 0, yspTx := 0, yspRej := 0 }
    else s
  | _ => s

end Sys2Proof.Machine
end

