-- ==== Sys2Proof/Machine/Power.lean ====
section
/-! DEFINITION. Power, resets, BOOT, modes (spec/17): the power-fail detector, reset sources, block resets, mode commands, the crystal,
the PWR_ and RST_ registers. -/

namespace Sys2Proof.Machine

open Sys2Proof

/-! Supplies (R469 to R473). -/

/-- V_PF in mV (R470). -/
def Pwr.vPf (p : Pwr) : Nat := max 4600 (p.vAvgMv * 7 / 10)

/-- R125: the parameter sets saved with the digest of the casting. -/
def State.saveParams (s : State) : State := s.modAsm fun a => { a with
  savedAt := s.now, savedDigest := s.live.cst.digest
  savedSets := a.params.filterMap fun p =>
    if p.2.est = [] ∧ p.2.inUse = [] then none else some (p.1, p.2.est.foldl (fun t o => tset t o.1 o.2) p.2.inUse) }

/-- An orderly power-down (log entry 57): the supply goes after a warning that had its 4 ms; the parameter sets are saved (R125). -/
def State.orderlySave (s : State) : State :=
  if s.live.pwr.pfw ∧ s.live.pwr.pfwAt + 4000000 ≤ s.now ∧ s.live.epc.casting ∧ s.live.cst.optimiser then s.saveParams else s

/-- POWER_ON_RESET (R469): an internal rail leaves regulation. A journal record not closed by then is incomplete (R472). -/
def execPowerOnReset (s : State) : Host.Outcome State Fault Refusal :=
  if !s.live.pwr.powered then .next s
  else
    let open_ : Bool := s.live.pwr.pfw && decide (s.now < s.live.pwr.pfwAt + 4000000)
    let s := if open_ then s.modMgt fun m =>
        { m with journal := m.journal.dropLast ++ (m.journal.getLast?.map fun r => { r with incomplete := true }).toList } else s
    let s := s.orderlySave.assertReset .powerOn 0
    .next (s.modPwr fun p => { p with powered := false, mode := .backup, lastMode := .backup, pfw := false })

/-- POWER_ON_RELEASE (R469): 2 ms after VSUP has risen above 4.6 V with every rail in regulation. -/
def execPowerOnRelease (vsupMv : Nat) (s : State) : Host.Outcome State Fault Refusal :=
  if s.live.pwr.powered ∨ vsupMv ≤ 4600 then .next s
  else .next ((s.modPwr fun p => { p with powered := true, vsupMv := vsupMv, vAvgMv := vsupMv }).releaseReset .powerOn)

/-- PF_WARNING (R470, R471): VSUP has been below V_PF for 5 µs. -/
def execPfWarning (vsupMv : Nat) (s : State) : Host.Outcome State Fault Refusal :=
  let p := s.live.pwr
  if !p.powered ∨ p.pfw ∨ p.vPf ≤ vsupMv then .next s
  else
    let s := s.modPwr fun p => { p with pfw := true, pfwSeen := true, pfwAt := s.now, pfwEndAt := none, vsupMv := vsupMv, pfwCount := satAdd 16 p.pfwCount 1 }
    .next ((s.journal 2 (leBytes 4 p.vAvgMv)).fireWatchdog 3).closeMetering

/-- PF_WARNING_END (R470, R473, R318): VSUP has been above V_PF + 0.3 V for 10 ms. A lone module runs on with code NONE, and
metering resumes. -/
def execPfWarningEnd (vsupMv : Nat) (s : State) : Host.Outcome State Fault Refusal :=
  let p := s.live.pwr
  if !p.powered ∨ !p.pfw ∨ vsupMv ≤ p.vPf + 300 then .next s
  else
    let lone : Bool := s.live.epc.casting && s.live.cst.pairInUse = 0 && !p.inReset
    let s := s.modPwr fun p => { p with
      pfw := false, pfwEndAt := some s.now, vsupMv := vsupMv, pfwRecovered := satAdd 16 p.pfwRecovered 1, holdNone := p.holdNone || lone }
    .next (if lone && s.live.epc.served then
        s.modNrg fun x => { x with
          run := true, groups := x.groups.map fun g => (g.1, { g.2 with periodAt := s.now })
          heats := x.heats.map fun h => (h.1, { h.2 with lastAt := some s.now }) }
      else s)

/-- PF_WARM_RESET (R473): in a pair, 10 ms after the end of a warning. -/
def execPfWarmReset (s : State) : Host.Outcome State Fault Refusal :=
  match s.live.pwr.pfwEndAt with
  | some t =>
    if s.live.epc.casting ∧ s.live.cst.pairInUse ≠ 0 ∧ !s.live.pwr.inReset ∧ !s.live.pwr.pfw ∧ t + 10000000 ≤ s.now then
      .next (s.pulseReset .watchdog 3)
    else .next s
  | none => .next s

/-! Reset sources (R477 to R486). -/

/-- RESET_N_REQUEST (R483): RESET_N has been low for 1 µs; it has no effect while VSUP is absent. -/
def execResetNRequest (s : State) : Host.Outcome State Fault Refusal :=
  if s.live.pwr.powered then .next (s.assertReset .resetN 0) else .next s

/-- RESET_N_RELEASE (R483): 200 ns after RESET_N has risen. -/
def execResetNRelease (s : State) : Host.Outcome State Fault Refusal := .next (s.releaseReset .resetN)

/-- WATCHDOG_RESET (R482): 1 ms after a fire that neither a warning nor a reset caused. -/
def execWatchdogReset (s : State) : Host.Outcome State Fault Refusal :=
  let p := s.live.par
  if p.wdFired ∧ p.wdCause ≤ 2 ∧ p.wdAt + 1000000 ≤ s.now ∧ !s.live.pwr.inReset then .next (s.pulseReset .watchdog p.wdCause) else .next s

/-- MODULE_RESET_EXECUTE (R484): 1 ms after the response, or the close of the burst. -/
def execModuleResetExecute (s : State) : Host.Outcome State Fault Refusal :=
  match s.live.pwr.pendModule with
  | some r =>
    if r.due ≤ s.now ∧ !s.live.pwr.inReset then
      .next (s.pulseReset (if r.module = 2 then .coldSw else .warmSw) r.detail)
    else .next s
  | none => .next s

/-- The sessions of YRA that a reset of the CP or ETH block closes, with their keys. -/
def State.closeAllYra (s : State) : State := (s.closeYra fun _ => true).modEth fun e => { e with opening := [] }

/-- The CP block stops (R485, R486): sessions close; it stages liveness again when it has restarted. -/
def State.resetCp (s : State) : State :=
  s.closeAllYra.modPwr fun p => { p with cpRunning := false }

/-- R486: the image of a component read from NOR compares with its measurement. -/
def Core.imageMeasured (k : Core) (comp mr : Nat) : Bool :=
  k.sec.mr.getD mr [] = measure (Config.sha384 (tget k.upd.runImg comp []))

/-- A block of R485 is reset: 0 CP, 1 SOLVER, 2 ASM, 3 ETH, 4 CAN, 5 MGT. -/
def State.resetBlock (s : State) (b : Nat) : State :=
  match b with
  | 0 => s.resetCp.modPwr fun p => { p with blkCp := satAdd 8 p.blkCp 1 }
  | 1 => s.deadlineOutcome.modPwr fun p => { p with blkSolver := satAdd 8 p.blkSolver 1 }
  | 2 =>
    let s := s.modAsm fun a => { a with
      busy := false, cycle := none, ladles := [], todo := [], history := [], dayValues := [], stepAcc := [], host := []
      params := a.params.map fun p => (p.1, { p.2 with predicted := none, lastFresh := none }) }
    s.modPwr fun p => { p with blkAsm := satAdd 8 p.blkAsm 1 }
  | 3 =>
    let drop := fun (q : Port) => { q with up := false, gig := false, bufPtp := 0, bufOther := 0, tsq := [] }
    let s := s.closeAllYra.modEth fun e => { e with port0 := drop e.port0, port1 := drop e.port1, dups := [], reasm := [] }
    s.modPwr fun p => { p with blkEth := satAdd 8 p.blkEth 1 }
  | 4 => s.resetCan.modPwr fun p => { p with blkCan := satAdd 8 p.blkCan 1 }
  | _ =>
    let s := (s.closeYml fun _ => true).modMgt fun m => { m with opening := [], jsel := 0, speed := m.cfgSpeed, speedDue := none, startedAt := s.now }
    s.modPwr fun p => { p with blkMgt := satAdd 8 p.blkMgt 1 }

/-- BLOCK_RESET_EXECUTE (R485): the requests whose time has come act together and are journalled; the CP and MGT images are
checked before the restart, `cpOk` and `mgtOk` being the readings of internal NOR (R486). -/
def execBlockResetExecute (cpOk mgtOk : Bool) (s : State) : Host.Outcome State Fault Refusal :=
  let due := s.live.pwr.pendBlocks.filter fun r => decide (r.due ≤ s.now)
  if due.isEmpty ∨ s.live.pwr.inReset then .next s
  else
    let bits := (List.range 6).filter fun b => due.any fun r => r.blocks.testBit b
    let s := s.modPwr fun p => { p with pendBlocks := p.pendBlocks.filter fun r => !decide (r.due ≤ s.now) }
    let s := bits.foldl (fun s b => (s.resetBlock b).journal 23 (ev2 b 0)) s
    let bad : Bool := (bits.contains 0 && !(cpOk && s.live.imageMeasured 2 4)) || (bits.contains 5 && !(mgtOk && s.live.imageMeasured 0 2))
    .next (if bad then s.pulseReset .warmSw 4 else s)

/-- LOCKSTEP_MISMATCH (R486). -/
def execLockstepMismatch (imageOk : Bool) (s : State) : Host.Outcome State Fault Refusal :=
  if s.live.pwr.inReset ∨ !s.live.pwr.bootStarted then .next s
  else
    let s := (s.resetCp.modPwr fun p => { p with blkLockstep := satAdd 8 p.blkLockstep 1 }).journal 23 (ev2 0 1)
    .next (if imageOk && s.live.imageMeasured 2 4 then s else s.pulseReset .warmSw 4)

/-- CP_FIRMWARE_WATCHDOG (R486): 100 ms without service. -/
def execCpFirmwareWatchdog (imageOk : Bool) (s : State) : Host.Outcome State Fault Refusal :=
  if s.live.pwr.inReset ∨ !s.live.pwr.bootStarted then .next s
  else
    let s := (s.resetCp.modPwr fun p => { p with blkFwWatchdog := satAdd 8 p.blkFwWatchdog 1 }).journal 23 (ev2 0 2)
    .next (if imageOk && s.live.imageMeasured 2 4 then s else s.pulseReset .warmSw 4)

/-! BOOT (R437 to R441, R474 to R476, R479, R495). -/

/-- The code whose band contains a ratio in per mille (R474): each band is 15 either side of the nominal ratio. -/
def strapOf (ratio : Nat) : Option Nat :=
  ([48, 108, 167, 223, 277, 333, 382, 429, 476, 524, 571, 618, 667, 713, 764, 808].zipIdx.find? fun p =>
    decide (p.1 ≤ ratio + 15) && decide (ratio ≤ p.1 + 15)).map Prod.snd

/-- R513: an interrupted firmware installation: regions that are no longer old get their fallback copies, the update ends
ABORTED. -/
def State.undoInstall (s : State) : State :=
  match s.live.upd.installRec with
  | none => s
  | some l =>
    let comps := l.done ++ l.erased.toList
    let s := s.modUpd fun u => { u with
      runImg := comps.foldl (fun r c => tset r c (tget u.fbImg c [])) u.runImg, installRec := none, last := 16 }
    s.journal 22 (ev1 16 ++ ev1 (comps.getLast?.getD 0) ++ leBytes 4 l.version)

/-- BOOT_START (R479): 50 µs after the last release; `ratio` is the strap's reading in per mille. The reset is counted and journalled. -/
def execBootStart (ratio : Nat) (s : State) : Host.Outcome State Fault Refusal :=
  match s.live.pwr.releasedAt with
  | none => .next s
  | some t =>
    if s.live.pwr.bootStarted ∨ s.now < t + 50000 then .next s
    else
      let code := strapOf ratio
      let s := s.modPwr fun p => { p with
        mode := .boot, bootStarted := true, bootAt := s.now
        strapCode := code.getD 2, strapValid := code.isSome, strapRatio := min ratio 1023, strapRead := true
        warmCount := if p.resetCold then p.warmCount else satAdd 16 p.warmCount 1
        coldCount := if p.resetCold then satAdd 16 p.coldCount 1 else p.coldCount }
      let p := s.live.pwr
      let cause := pack ([(0, 3, topSource p.sources), (3, 3, p.detail)] ++ p.sources.map fun c => (7 + c.code, 1, 1))
      let s := s.journal 1 (leBytes 4 cause.toNat)
      let s := if code.isNone then s.journal 25 (leBytes 2 ratio) else s
      let s := s.journal 6 (ev2 p.lastMode.code Mode.boot.code)
      let s := s.modSys fun x => { x with xtalOk := !x.reserveOsc, cruRun := false, eth0Clk := false, eth1Clk := false, canClk := false, cplClk := false }
      let s := s.modUpd fun u => { u with trial := u.trial.map fun t =>
        if t.fresh then { t with fresh := false } else { t with resets := min 3 (t.resets + 1) } }
      .next s.undoInstall

/-- BOOT fails (R495): SAFEHOLD with a bare run. -/
def State.bootFails (s : State) (cause : Nat) : State :=
  ((s.modSec fun x => { x with bootFail := true, failCause := cause, keysOk := false, slots := [] }).journal 3 (ev1 cause)).startBare 1

/-- BOOT_END (R437 to R441, R455, R463, R464, R495): `imagesOk` is the outcome of the verification of the five images, `rsOk` that of
the reconstruction of the root secret, `settingsOk` whether new firmware on trial parsed the settings and wrote its shadow copy. -/
def execBootEnd (imagesOk rsOk settingsOk : Bool) (s : State) : Host.Outcome State Fault Refusal :=
  if s.live.pwr.mode ≠ .boot ∨ !s.live.pwr.bootStarted ∨ s.live.pwr.inReset then .next s
  else
    let x := s.live.sec
    if x.lifecycle = .scrapped then .next (s.bootFails 4)
    else if !imagesOk then .next (s.bootFails 1)
    else if x.armed ∧ (s.live.clk.active0 ∨ s.live.clk.active1) then .next s.tamperBoot
    else if !rsOk ∨ !x.helperOk then .next (s.bootFails 2)
    else
      let u := s.live.upd
      let opened : Bool := x.openNext && x.lifecycle ≠ .deployed
      let imgs := [u.sprue, tget u.runImg 0 [], tget u.runImg 1 [], tget u.runImg 2 [], tget u.runImg 3 []]
      let y := x.derive (if opened then 2 else 0) imgs
      let level := if opened then 2 else if x.lifecycle = .manufacture then 1 else 0
      let s := s.modSec fun _ => { y with debug := level, openNext := false }
      let s := s.modUpd fun u => { u with trial := u.trial.map fun t =>
        { t with since := some (t.since.getD s.now), shadowOk := t.shadowOk || settingsOk } }
      .next (if s.live.pwr.strapCode.testBit 1 then s.startBare 3 else s.enterLoad)

/-! The crystal (R22, R23). -/

/-- CRYSTAL_LOSS (R22, R23): links, CAN controllers and the coupling link go down, the optimiser ends. -/
def execCrystalLoss (s : State) : Host.Outcome State Fault Refusal :=
  if s.live.sys.reserveOsc ∨ !s.live.pwr.powered then .next s
  else
    let s := (s.modSys fun x => { x with
      xtalOk := false, reserveOsc := true, cruRun := false, eth0Clk := false, eth1Clk := false, cplClk := false }).journal 8 (ev1 0)
    let drop := fun (q : Port) => { q with up := false, gig := false, bufPtp := 0, bufOther := 0 }
    let s := s.modEth fun e => { e with port0 := drop e.port0, port1 := drop e.port1 }
    let s := if s.paired && s.live.par.linkOk then s.losePath false else s
    let s := (s.modPln fun p => { p with cClock := true }).abandonWindow
    .next s.canSettle

/-! Modes (R493 to R496). -/

/-- A command of PWR_MODE_CMD names a row of R495 for the present mode, and the module may take it (R494). -/
def Core.modeCmdOk (k : Core) (active : Bool) (cmd : Nat) : Bool :=
  active && (match cmd with
    | 1 => k.pwr.mode = .active || k.pwr.mode = .degraded
    | 2 => k.pwr.mode = .commission || k.pwr.mode = .tune
    | 3 => k.pwr.mode = .active || k.pwr.mode = .degraded
    | 4 => k.pwr.mode.running
    | _ => false)

/-- R496: the mode command, ISLAND and the causes of R181 at a boundary; SAFEHOLD comes before ISLAND, ISLAND before the other
commands, commands before the causes. A command that lost to ISLAND stays in force and is evaluated at the next boundary. -/
def State.settleMode (s : State) : State :=
  let cmd := s.live.pwr.modeCmd.map Prod.fst
  let from_ := (s.live.pwr.modeCmd.map Prod.snd).getD .dp
  let s := s.modPwr fun p => { p with modeCmd := none }
  let ok := fun (s : State) (c : Nat) => s.live.modeCmdOk s.holdsClaim c
  let s := if cmd = some 4 ∧ ok s 4 then s.safehold 4 else s
  let before := s.live.pwr.mode
  let s := if s.live.pln.island ∧ (s.live.pwr.mode = .active ∨ s.live.pwr.mode = .degraded ∨ s.live.pwr.mode = .tune
      ∨ s.live.pwr.mode = .commission ∨ s.live.pwr.mode = .update) then (s.handEnds.switchMode .island).holdUpdate 1
    else if !s.live.pln.island ∧ s.live.pwr.mode = .island then
      (s.switchMode (s.runMode false)).unholdUpdate 1
    else s
  let lost : Bool := decide (s.live.pwr.mode ≠ before) && cmd.any fun c => decide (c ≠ 4)
  let s := match (if lost then none else cmd) with
    | some 1 => if ok s 1 then s.switchMode .commission else s.werr 0x204 from_ .value
    | some 2 => if ok s 2 then
        ((s.modPwr fun p => { p with startCommission := false }).handEnds).switchMode (s.runMode false) else s.werr 0x204 from_ .value
    | some 3 => if ok s 3 then s.switchMode .tune else s.werr 0x204 from_ .value
    | _ => if lost then s.modPwr fun p => { p with modeCmd := cmd.map fun c => (c, from_) } else s
  let s := if s.live.upd.lock.isSome ∧ (s.live.pwr.mode = .active ∨ s.live.pwr.mode = .degraded ∨ s.live.pwr.mode = .commission) then
      (s.modPwr fun p => { p with beforeUpdate := p.mode }).switchMode .update
    else if s.live.pwr.mode = .update ∧ s.live.upd.lock.isNone then
      s.switchMode (if s.live.pwr.beforeUpdate = .commission then .commission else s.runMode false)
    else s
  if s.live.pwr.mode = .active ∨ s.live.pwr.mode = .degraded then s.switchMode (s.runMode false) else s

/-- TAMPER_ACK's LOAD and other entries happen in their own commands; the registers follow. -/
def readPwr (k : Core) (addr : Nat) : Word :=
  let p := k.pwr
  let run : Mode := if p.startCommission then .commission else if k.cst.planned && k.pln.causes ≠ 0 then .degraded else .active
  match addr with
  | 0x200 => pack [(0, 4, p.mode.code), (4, 4, if p.mode = .safehold then p.safeCause else 0), (8, 4, run.code),
      (12, 1, (p.mode.optimises && k.cst.optimiser && k.epc.casting : Bool).toNat)]
  | 0x208 => word p.startMode.toNat
  | 0x20C => pack [(0, 1, p.pfw.toNat), (1, 1, p.pfwSeen.toNat), (2, 1, p.vfldOk.toNat), (3, 1, p.holdNone.toNat)]
  | 0x210 => pack [(0, 16, p.vsupMv), (16, 16, p.vAvgMv / 10)]
  | 0x214 => pack [(0, 16, p.vfldMv)]
  | 0x218 => pack [(0, 16, p.pfwCount), (16, 16, p.pfwRecovered)]
  | 0x21C => pack [(0, 4, p.strapCode), (4, 1, p.strapCode % 2), (5, 1, p.strapCode / 2 % 2), (6, 2, p.strapCode / 4), (8, 1, p.strapValid.toNat),
      (10, 10, p.strapRatio)]
  | 0x280 => pack ([(0, 3, topSource p.sources), (3, 3, p.detail)] ++ p.sources.map fun c => (7 + c.code, 1, 1))
  | 0x28C => pack [(0, 8, p.blkCp), (8, 8, p.blkLockstep), (16, 8, p.blkFwWatchdog), (24, 8, p.blkSolver)]
  | 0x290 => pack [(0, 8, p.blkAsm), (8, 8, p.blkEth), (16, 8, p.blkCan), (24, 8, p.blkMgt)]
  | 0x294 => pack [(0, 16, p.warmCount), (16, 16, p.coldCount)]
  | _ => 0

/-- Staged writes of the PWR_ registers, and the W1C flag. -/
def State.commitPwr (s : State) (src : Source) (addr : Nat) (w : Word) : State :=
  match addr with
  | 0x204 => if s.live.modeCmdOk s.holdsClaim (field w 2 0) then s.modPwr fun p => { p with modeCmd := some (field w 2 0, src) } else s.werr 0x204 src .value
  | 0x208 => s.modPwr fun p => { p with startMode := bit w 0 }
  | 0x20C => s.modPwr fun p => { p with pfwSeen := p.pfwSeen && !bit w 1 }
  | _ => s

/-- Fixed rules of the writes (R39): PWR_MODE_CMD against the poured state, RST_CMD.MODULE 3, block bits beside a module reset
(R479). -/
def checkPwr (k : Core) (active : Bool) (ws : List (Nat × Word)) (addr : Nat) (w : Word) : Bool :=
  match addr with
  | 0x204 => k.modeCmdOk active (field w 2 0)
  | 0x284 => field w 1 0 ≠ 3
  | 0x288 => field w 5 0 = 0 || !(ws.any fun x => x.1 = 0x284 && (field x.2 1 0 = 1 || field x.2 1 0 = 2))
  | _ => true

end Sys2Proof.Machine
end

