-- ==== Sys2Proof/Machine/AsmCmds.lean ====
section
/-! DEFINITION. The plan cycle's events (spec/04, spec/05): opening epochs, ladles, horizon steps, solve windows; the ASM_ and SLV_
registers. -/

namespace Sys2Proof.Machine

open Sys2Proof

/-! The opening epoch (R25, R100, R103, R122, R136, R137). -/

/-- Keys of the values that the frames of R101 carry beside SRC codes: state `r` of a substation as measured, component `k` of its
disturbance, a substation with a faulted source. -/
def stateKey (i r : Nat) : Nat := 2 ^ 32 + 8 * i + r
def distKey (i k : Nat) : Nat := 2 ^ 33 + 8 * i + k
def faultKey (i : Nat) : Nat := 2 ^ 34 + i

/-- A value that a frame of R101 carries. -/
def sentValue (l : List (Nat × Dy × Bool)) (key : Nat) : Option Dy := (l.find? fun x => x.1 = key).map fun x => x.2.1

/-- A state's measurement by telemetry, when it was accepted within the last plan cycle (R103). -/
def State.freshState (s : State) (i r : Nat) : Option Dy :=
  let f := u8 (s.live.cst.tpl (s.live.cst.subTpl i)) (32 + r)
  if f = 255 then none
  else match tfind (s.live.eth.sub i).fields f with
    | some (w, _, e) => if s.live.epc.epoch ≤ e + s.live.epc.planP then some (Dy.ofQ16 w) else none
    | none => none

/-- The measured states that are fresh, with their keys. -/
def State.freshStates (s : State) : List (Nat × Dy × Bool) :=
  (List.range s.live.cst.substations).flatMap fun i => (List.range (u8 (s.live.cst.tpl (s.live.cst.subTpl i)) 0)).filterMap fun r =>
    (s.freshState i r).map fun v => (stateKey i r, v, false)

/-- The snapshot of an opening epoch (R100), with the states that telemetry measures (R103). -/
def State.takeSnapshot (s : State) : List (Nat × Dy × Bool) :=
  (s.live.cst.namedSources.map fun src => (src, s.live.sourceDy src)) ++ s.freshStates

/-- R103: the states of a substation by a snapshot, with the marks TEL_STALE and TEL_NONE. -/
def State.startStates (s : State) (snap : List (Nat × Dy × Bool)) (i : Nat) : List Dy × Bool × Bool :=
  let t := s.live.cst.tpl (s.live.cst.subTpl i)
  (List.range (u8 t 0)).foldl (fun acc r =>
    match sentValue snap (stateKey i r) with
    | some v => (acc.1 ++ [v], acc.2)
    | none =>
      match ((s.live.asm.sub i).predicted).bind fun x => x[r]? with
      | some v => (acc.1 ++ [v], true, acc.2.2)
      | none => (acc.1 ++ [Dy.ofQ16 (word (u32 t (40 + 4 * r)))], acc.2.1, true)) ([], false, false)

/-- R123, R136: refreshed factors become the ones in use, with their parameters; the requests they served leave the queue. -/
def State.installFactors (s : State) : State :=
  let done := s.live.slv.spare
  let s := s.modSlv fun x => { x with
    inUse := done.foldl (fun t p => tset t p.1 p.2) x.inUse, spare := [], excluded := x.excluded.filter fun i => (tfind done i).isNone }
  s.modAsm fun a =>
    let a := done.foldl (fun a p =>
      let q := a.sub p.1
      let newer : Bool := q.pending.isSome && q.pending ≠ q.building
      let a := a.setSub p.1 fun q => { q with
        inUse := q.building.getD q.inUse, gen := (q.gen + 1) % 65536, building := none, predicted := none
        pending := if newer then q.pending else none }
      if newer then a else { a with queue := a.queue.filter fun e => e.1 ≠ p.1 }) a
    { a with cyInstalled := done.length }

/-- The optimiser runs in this cycle (R22, R88, R492). -/
def State.optRuns (s : State) : Bool :=
  s.live.epc.casting && s.live.cst.optimiser && s.live.pwr.mode.optimises && !s.live.sys.reserveOsc

/-- Batches that lack a factor (R137). -/
def State.initBatches (s : State) : List Nat :=
  (List.range s.live.cst.batches).filter fun k => (s.live.cst.batchSubs k).any fun i =>
    !s.live.slv.excluded.contains i && (tfind s.live.slv.inUse i).isNone

/-- R101: the active unit of a pair sends source values with the commit set of the epoch. -/
def State.sendSources (s : State) (kind : Nat) (values : List (Nat × Dy × Bool)) : State :=
  if s.paired && s.live.par.gate && s.linkRuns then s.send (.sources kind s.live.epc.epoch values) else s

/-- A cycle of the optimiser opens: snapshot, start states, series as they stand, ladles to build. -/
def State.openCycle (s : State) : State :=
  let c := s.live.cst
  let snap := s.takeSnapshot
  let init := s.initBatches
  let due := s.live.asm.dueRefresh c.refreshMax
  let t0 := c.t0 (s.bound / 32768)
  let e := s.live.epc.epoch
  let s := s.modAsm fun a =>
    let a := due.foldl (fun a i => a.setSub i fun p => { p with building := p.pending }) a
    Asm.sortSeries (c := c) (periodMs := s.live.epc.periodMs) { a with
      busy := true, cycle := some e, openEpoch := e, cycleAt := s.live.epc.boundaryAt, t0 := t0, snapshot := snap
      states := (List.range c.substations).map fun i => (i, s.startStates snap i)
      snapHost := a.host, snapHistory := a.history, snapDays := a.dayValues
      island := s.live.pln.island, ladles := []
      todo := init.map (fun k => (4, 0, k)) ++ due.map (fun i => (3, 0, i)) ++ c.fillOrder
      cySat := 0, cyStale := [], cyNone := [], cyFaults := [], cyRefresh := 0 }
  let s := s.modSlv fun x => { x with
    run := some { openEpoch := e, openedAt := s.live.epc.boundaryAt, t0 := t0, initBatches := init, refresh := due } }
  (s.sendSources 0 snap).modPln fun p => { p with cycleCal := s.bound }

/-- A plan cycle has just opened at this boundary: R25. -/
def State.opens (s : State) : Bool :=
  s.atBoundary && s.live.epc.casting && decide (0 < s.live.epc.planP) && decide (0 < s.live.epc.epoch)
    && decide (s.live.epc.epoch % s.live.epc.planP = 0)

/-- OPENING_EPOCH (R25): a cycle of the optimiser opens, or the record of R177 is poured; the substations hear what R388 lays down. -/
def execOpeningEpoch (s : State) : Host.Outcome State Fault Refusal :=
  if !s.opens ∨ s.live.asm.cycle = some s.live.epc.epoch ∨ s.live.slv.run.isSome then .next s
  else
    let s := if s.live.cst.pairInUse = 0 ∨ !s.follows ∨ s.live.par.gate then s.yspOpening else s
    let s := if s.poursFallback then
        (s.pourRecord (s.fallbackRecord s.live.epc.epoch (s.live.cst.t0 (s.bound / 32768))) s.live.pln.causes).yspPour
      else s
    let s := s.installFactors
    .next (if s.optRuns then s.openCycle.repour else (s.modAsm fun a => { a with cycle := some s.live.epc.epoch, todo := [] }).repour)

/-! Ladles (R101, R117). -/

/-- The cycle's counts when its last ladle is ready. -/
def State.endAssembly (s : State) : State :=
  let a := s.live.asm
  s.modAsm fun a' => { a' with
    busy := false, regOpen := a.openEpoch
    noHost := s.live.cst.hostForecast && a.cyHost.isEmpty
    filled := a.ladles.length, filledRefresh := a.cyRefresh
    lastMs := min 65535 ((s.now - a.cycleAt) / 1000000)
    telStale := a.cyStale.length, telNone := a.cyNone.length
    staleSeen := a.staleSeen || !a.cyStale.isEmpty || !a.cyNone.isEmpty
    seriesHost := a.cyHost.length, seriesPersist := a.cyPersist.length
    installed := a.cyInstalled }

/-- R101: the snapshot of a following unit is the active unit's; when it has not come, its own stands, journalled. -/
def State.adoptSnapshot (s : State) (epoch : Nat) (given : Option (List (Nat × Dy × Bool))) : State :=
  match given with
  | some v => s.modAsm fun a => { a with
      snapshot := v, states := (List.range s.live.cst.substations).map fun i => (i, s.startStates v i) }
  | none => s.journal 0 (leBytes 8 epoch)

/-- The next ladle of the fill order is built (R117); the time to the first is kept, the first ready requests the solve window, and a
saturated one marks the run. -/
def State.nextLadle (s : State) (first : Bool) : State :=
  let s := s.modAsm fun a => buildLadle s.live.cst s.live.epc.periodMs a
  let s := if first then (s.modAsm fun a => { a with first10us := min 65535 ((s.now - a.cycleAt) / 10000) }).requestWindow else s
  let sat : Bool := (s.live.asm.ladles.getLast?.map fun l => decide (l.flags % 2 = 1)).getD false
  let s := if sat then s.modSlv fun x => { x with run := x.run.map fun r => { r with ladleSat := true } } else s
  if s.live.asm.todo.isEmpty then s.endAssembly else s

/-- LADLE_READY (R117): the next ladle of the fill order. A standby takes the active unit's snapshot first and waits for it until
the boundary after the opening epoch (R101). -/
def execLadleReady (s : State) : Host.Outcome State Fault Refusal :=
  match s.live.asm.cycle, s.live.asm.todo with
  | some e, _ :: _ =>
    let first := s.live.asm.ladles.isEmpty
    let follow : Bool := first && s.follows
    let given := s.live.par.snapIn.bind fun p => if p.1 = e then some p.2 else none
    if follow ∧ given.isNone ∧ s.live.epc.epoch ≤ e then .next s
    else .next ((if follow then s.adoptSnapshot e given else s).nextLadle first)
  | _, _ => .next s

/-! Horizon steps (R103, R112, R120). -/

/-- A matrix of parameter words in use times a vector. -/
def Cst.matVec (c : Cst) (set : Table Word) (i ofs rows cols : Nat) (v : List Dy) : List Dy :=
  (List.range rows).map fun r => (List.range cols).foldl (fun a k =>
    a.add ((Dy.ofQ16 (c.paramIn set i (ofs + r * cols + k))).mul (v.getD k {}))) {}

/-- The step-0 input of the last published plan for a substation (R103), in the CL_XI format of its template. -/
def State.planInput (s : State) (i : Nat) : List Dy :=
  let d := s.live.cst.dims (s.live.cst.subTpl i)
  let f := (s.live.cst.tplCls (s.live.cst.subTpl i) 0).frac
  let words := match s.live.pln.record with
    | some r => ((r.subs.find? fun (b : SubBlock) => b.sub = i).map SubBlock.words).getD []
    | none => []
  (List.range d.nu).map fun k => { m := (words.getD k 0).toInt, e := -(f : Int) }

/-- Whether a source of a substation's recipe is faulted now (R120). -/
def State.subFaulted (s : State) (i : Nat) : Bool :=
  let b := (s.live.cst.rec? 0x23 0x231 (s.live.cst.subTpl i)).getD []
  (List.range (b.length / 20)).any fun n =>
    let src := u32 b (20 * n + 8)
    let cl := src / 2 ^ 28
    let code := if src / 2 ^ 27 % 2 = 1 then (if cl = 2 then 2 ^ 29 + i * 65536 + src % 256 else src - 2 ^ 27) else src
    cl ≠ 0 && cl ≠ 5 && cl ≠ 6 && cl ≠ 8 && (s.live.sourceDy code).2

/-- The substations whose template identifies parameters (R120). -/
def Cst.identifying (c : Cst) : List Nat := (List.range c.substations).filter fun i => u8 (c.tpl (c.subTpl i)) 5 ≠ 0

/-- The disturbance of a substation over a step: the spec names no source for its components, so each is a free value (log entry 19). -/
def State.disturbances (s : State) : List (Nat × Dy × Bool) :=
  (List.range s.live.cst.substations).flatMap fun i => (List.range (s.live.cst.dims (s.live.cst.subTpl i)).nd).map fun k =>
    (distKey i k, { m := Config.freeInt (s.freeCtr + 8 * i + k), e := -16 }, false)

/-- The values an active unit uses at a horizon step boundary (R101): step averages, measured states, disturbances, faulted substations. -/
def State.stepValues (s : State) (averages : List (Nat × Dy × Bool)) : List (Nat × Dy × Bool) :=
  averages ++ s.freshStates ++ s.disturbances ++ s.live.asm.stepFaults.map fun i => (faultKey i, { m := 0, e := 0 }, true)

/-- The one-step prediction of the state equation, A x + B u + E d (R103), with a parameter set. -/
def Cst.predict (c : Cst) (set : Table Word) (i : Nat) (x u dist : List Dy) : List Dy :=
  let d := c.dims (c.subTpl i)
  let a := c.matVec set i 0 d.nx d.nx x
  let b := c.matVec set i d.oB d.nx d.nu u
  let e := c.matVec set i d.oE d.nx d.nd dist
  (List.range d.nx).map fun r => ((a.getD r {}).add (b.getD r {})).add (e.getD r {})

/-- The prediction of a substation advanced by one step (R103), with the values `v` of the boundary. -/
def State.advanceSub (s : State) (v : List (Nat × Dy × Bool)) (i : Nat) : State :=
  let c := s.live.cst
  let d := c.dims (c.subTpl i)
  let sp := s.live.asm.sub i
  let fresh := (List.range d.nx).map fun r => sentValue v (stateKey i r)
  let x := (List.range d.nx).map fun r => (sentValue v (stateKey i r)).orElse fun _ => sp.predicted.bind fun p => p[r]?
  let u := s.planInput i
  let dist := (List.range d.nd).map fun k => (sentValue v (distKey i k)).getD {}
  s.modAsm fun a => a.setSub i fun p => { p with
    predicted := if x.all Option.isSome then some (c.predict sp.inUse i (x.filterMap id) u dist) else none
    lastFresh := if fresh.all Option.isSome then some (fresh.filterMap id) else none
    lastU := u, lastD := dist }

/-- The row of the state equation a parameter word stands in, and the value it multiplies (R97, R120); a word of another matrix has none. -/
def Dims.regressor (d : Dims) (x u dist : List Dy) (k : Nat) : Option (Nat × Dy) :=
  if k < d.oB then some (k / max d.nx 1, x.getD (k % max d.nx 1) {})
  else if k < d.oE then some ((k - d.oB) / max d.nu 1, u.getD ((k - d.oB) % max d.nu 1) {})
  else if k < d.oQ then some ((k - d.oE) / max d.nd 1, dist.getD ((k - d.oE) % max d.nd 1) {})
  else none

/-- Identification of a substation over the step that ends (R120, R121): recursive least squares on the one-step prediction error of the state
equation, within the band; a drift requests a refresh. Gain and covariance are free values of their operands (log entry 19). -/
def State.identify (s : State) (v : List (Nat × Dy × Bool)) (i : Nat) : State :=
  let c := s.live.cst
  let t := c.tpl (c.subTpl i)
  let n := u8 t 5
  let sp := s.live.asm.sub i
  let d := c.dims (c.subTpl i)
  let now_ := (List.range d.nx).filterMap fun r => sentValue v (stateKey i r)
  match sp.lastFresh with
  | none => s
  | some x =>
    if n = 0 ∨ s.live.asm.identHold ∨ sp.overrides ≠ [] ∨ now_.length < d.nx ∨ (sentValue v (faultKey i)).isSome then s
    else
      let sel := (List.range n).map fun m => u8 t (16 + m)
      let pred := c.predict (sp.est.foldl (fun u o => tset u o.1 o.2) sp.inUse) i x sp.lastU sp.lastD
      let err := fun r => (now_.getD r {}).add (({ m := -1, e := 0 } : Dy).mul (pred.getD r {}))
      let phi := sel.map fun k => ((d.regressor x sp.lastU sp.lastD k).map Prod.snd).getD {}
      let gain := Config.rlsGain sp.cov (phi.map fun q => (q.m, q.e)) (word (u32 t 20))
      let old := fun k => (tfind sp.est k).getD (c.paramIn sp.inUse i k)
      let est := sel.zipIdx.foldl (fun e p =>
        let r := ((d.regressor x sp.lastU sp.lastD p.1).map Prod.fst).getD 0
        let step := ({ m := gain.getD p.2 0, e := -32 } : Dy).mul (err r)
        tset e p.1 (toBand ((Dy.ofQ16 (old p.1)).add step).toQ16 (c.param i p.1) (word (u32 t 24)))) sp.est
      let drift := sel.any fun k => drifted (tget est k 0) (c.paramIn sp.inUse i k) (word (u32 t 28))
      s.modAsm fun a =>
        let a := a.setSub i fun p => { p with
          est := est, cov := Config.rlsCov sp.cov (phi.map fun q => (q.m, q.e)) (word (u32 t 20)) }
        if drift then a.request i (est.foldl (fun u o => tset u o.1 o.2) sp.inUse) s.live.epc.epoch else a

/-- A step average as a Q16.16 number (log entry 47). -/
def stepAverage (sum : Dy) (n : Nat) : Dy := { m := sum.scaleRound 65536 (max n 1), e := -16 }

/-- The records of series with a PERSIST_SRC (R105). -/
def Cst.persisted (c : Cst) : List Rec := (c.recs 0x24).filter fun r => r.rtype = 0x244 ∧ u32 r.body 4 / 2 ^ 28 ≠ 0

/-- The averages of the step that ends, by SRC code (R112). -/
def State.stepAverages (s : State) : List (Nat × Dy × Bool) :=
  s.live.cst.persisted.filterMap fun r =>
    (tfind s.live.asm.stepAcc r.index).map fun (x : Dy × Nat) => (u32 r.body 4, stepAverage x.1 x.2, false)

/-- R112: the average of the step that ends enters the history of each series with a PERSIST_SRC; entries older than 24 h go. -/
def State.extendHistory (s : State) (v : List (Nat × Dy × Bool)) : State :=
  let start := s.live.asm.stepStart
  s.modAsm fun a =>
    s.live.cst.persisted.foldl (fun a r =>
      match sentValue v (u32 r.body 4) with
      | none => a
      | some x =>
        let keep := (tget a.history r.index []).filter fun (h : Nat × Dy) => decide (start < h.1 + 86400) && h.1 ≠ start
        { a with history := tset a.history r.index (keep ++ [(start, x)]) }) a

/-- At every boundary, of the step that runs: the poured values of PERSIST_SRC join its averages, faulted sources are noted. -/
def State.sampleHistory (s : State) : State :=
  s.modAsm fun a =>
    let a := { a with stepFaults := (s.live.cst.identifying.filter s.subFaulted).foldl addOnce a.stepFaults }
    s.live.cst.persisted.foldl (fun a r =>
      let x := tget a.stepAcc r.index ({}, 0)
      { a with stepAcc := tset a.stepAcc r.index (x.1.add (s.live.sourceDy (u32 r.body 4)).1, x.2 + 1) }) a

/-- What the end of a step does with the values `v` (R103, R112, R120); a new step begins at `start`. -/
def State.endStep (s : State) (v : List (Nat × Dy × Bool)) (start : Nat) : State :=
  let s := if s.live.asm.stepStart = 0 then s else s.extendHistory v
  let s := (List.range s.live.cst.substations).foldl (fun s i => (s.identify v i).advanceSub v i) s
  s.modAsm fun a => { a with stepStart := start, stepAcc := [], stepFaults := [], stepDue := none }

/-- HORIZON_STEP_BOUNDARY (R101, R120): the first boundary at or after the start of a horizon step. A following unit takes the active unit's
values, which come in the epoch that begins there, at the next boundary, and its own where they have not come. -/
def execHorizonStepBoundary (s : State) : Host.Outcome State Fault Refusal :=
  let start := s.live.cst.t0 (s.bound / 32768)
  if !s.atBoundary ∨ !s.live.epc.casting ∨ !s.live.cst.optimiser ∨ start = s.live.asm.stepStart then .next s
  else
    let own := s.stepValues s.stepAverages
    let drawn := { s with freeCtr := s.freeCtr + 8 * s.live.cst.substations }
    match s.follows, s.live.asm.stepDue with
    | true, none => .next (s.modAsm fun a => { a with stepDue := some s.live.epc.epoch }).repour
    | true, some e =>
      let v := match s.live.par.stepIn with
        | some (n, v) => if n = e then v else own
        | none => own
      .next (drawn.endStep v start).repour
    | false, _ => .next ((drawn.sendSources 1 own).endStep own start).repour

/-- PARAM_SAVE (R125): every SAVE_MIN minutes, the estimates with the digest of the casting. -/
def execParamSave (s : State) : Host.Outcome State Fault Refusal :=
  if s.live.epc.casting ∧ s.live.cst.optimiser ∧ s.live.asm.savedAt + s.live.cst.saveMin * 60000000000 ≤ s.now then
    .next s.saveParams
  else .next s

/-! The solve window (R151, R158, R162 to R164). -/

/-- The window ends for want of crucibles (R164), journalled and alarmed. -/
def State.noLanes (s : State) : State := ((s.journal 0 (ev1 s.live.cst.lanes) true)).endSolve 4 4

/-- The known-answer test of one crucible at window start (R162, R163). -/
def State.testCrucible (s : State) (bad : List Nat) (p : Nat) : State :=
  if s.live.slv.retired.contains p then s
  else if bad.contains p then
    (s.modSlv fun x => { x with katFail := tset x.katFail p (satAdd 8 (tget x.katFail p 0) 1) }).retire p 0
  else if 256 ≤ tget s.live.slv.ce p 0 ∧ ((List.range s.live.cst.lanes).map s.live.slv.phys).contains p then s.retire p 1
  else s

/-- KNOWN_ANSWER_TEST (R163): the PLL has started and the tests are complete; `bad` names the crucibles that fail. Reserves are
tested before the lanes move. -/
def execKnownAnswerTest (bad : List Nat) (s : State) : Host.Outcome State Fault Refusal :=
  match s.live.slv.run with
  | some r =>
    if r.katDone ∨ r.requestedAt.isNone then .next s
    else
      let s := ([32, 33, 34, 35] ++ List.range 32).foldl (fun (s : State) p => s.testCrucible bad p) s
      if !s.live.slv.enough s.live.cst.lanes then .next s.noLanes
      else .next ((s.modSlv fun x => { x with run := x.run.map fun r => { r with katDone := true } }).nextPass 0)
  | none => .next s

/-- ENTRY_START (R151): the entry a lane is at starts. -/
def execEntryStart (l : Nat) (s : State) : Host.Outcome State Fault Refusal :=
  match s.entryReady l with
  | some _ => .next (s.modSlv fun x => { x with run := x.run.map fun r =>
      { r with flight := r.flight ++ [l], firstEntryAt := some (r.firstEntryAt.getD s.now) } })
  | none => .next s

/-- What an entry's end leaves on its lane and its barrier. -/
def SolveRun.advanceLane (r : SolveRun) (l : Nat) (e : TtEntry) : SolveRun :=
  { r with
    flight := r.flight.filter (· ≠ l), lanePos := tset r.lanePos l (tget r.lanePos l 0 + 1)
    barriers := if e.signal = 0 then r.barriers else tset r.barriers e.signal (tget r.barriers e.signal 0 - 1) }

/-- R128: a factorisation with an event counts once in SLV_SAT and flags the solve. -/
def State.factSat (s : State) : State :=
  let ev := (s.live.slv.run.map SolveRun.entrySat).getD false
  s.modSlv fun x => { (x.noteSat ev) with run := x.run.map fun r => { r with sat := r.sat || ev, entrySat := false } }

/-- ENTRY_END (R150, R151): the entry in flight on a lane ends, its crucible having corrected `ce` ECC errors (R162). -/
def execEntryEnd (l ce : Nat) (s : State) : Host.Outcome State Fault Refusal :=
  match s.live.slv.run with
  | none => .next s
  | some r =>
    match r.flight.contains l, (s.live.cst.laneList l r.pass)[tget r.lanePos l 0]? with
    | true, some e =>
      let p := s.live.slv.phys l
      let s := s.modSlv fun x => { x with ce := tset x.ce p (satAdd 16 (tget x.ce p 0) ce) }
      let s :=
        if r.pass = 3 then
          let y := roundEntry s.live.cst s.live.asm s.live.slv r e
          s.modSlv fun x => { (x.noteSat y.2) with run := some { y.1 with sat := y.1.sat || y.2 } }
        else (s.factEntry r e).factSat
      let s := s.modSlv fun x => { x with run := x.run.map fun q => q.advanceLane l e }
      .next s.afterEntry
    | _, _ => .next s

/-- SOLVE_DEADLINE (R158). -/
def execSolveDeadline (s : State) : Host.Outcome State Fault Refusal :=
  match s.live.slv.run with
  | some r =>
    if r.openedAt + s.live.cst.deadline * s.live.epc.periodMs * 1000000 ≤ s.now then .next s.deadlineOutcome else .next s
  | none => .next s

/-- The reserve that takes a lane over is tested; one that fails gives way to the next (R164). -/
def State.retest (s : State) (l : Nat) (bad : List Nat) : State :=
  (List.range 5).foldl (fun s _ =>
    let p := s.live.slv.phys l
    if s.live.slv.healthy p && bad.contains p then
      (s.modSlv fun x => { x with katFail := tset x.katFail p (satAdd 8 (tget x.katFail p 0) 1) }).retire p 0 else s) s

/-- CRUCIBLE_FAULT (R164): a residue mismatch, or an uncorrectable ECC error, on the crucible of a lane during a pass; `bad` names
reserves that fail their known-answer test. -/
def execCrucibleFault (l : Nat) (ecc : Bool) (bad : List Nat) (s : State) : Host.Outcome State Fault Refusal :=
  match s.live.slv.run with
  | none => .next s
  | some r =>
    if r.pass = 0 ∨ s.live.cst.lanes ≤ l then .next s
    else
      let p := s.live.slv.phys l
      let s := s.modSlv fun x => { x with residue := if ecc then x.residue else tset x.residue p (satAdd 8 (tget x.residue p 0) 1) }
      let s := (s.retire p (if ecc then 3 else 2)).retest l bad
      if !s.live.slv.enough s.live.cst.lanes then .next s.noLanes
      else .next (s.modSlv fun x => { x with hubSpare := if r.pass = 1 then {} else x.hubSpare, run := some (r.startPass s.live.cst r.pass) })

/-! Registers at 0x0800. -/

def readAsm (k : Core) (addr : Nat) : Word :=
  let a := k.asm
  let sp := a.sub a.selSub
  let on : Bool := k.epc.casting && decide (a.selSub < k.cst.substations) && decide (a.selParam < (k.cst.dims (k.cst.subTpl a.selSub)).paramLen)
  match addr with
  | 0x800 => pack [(0, 1, a.busy.toNat), (1, 1, a.noHost.toNat), (2, 1, a.satSeen.toNat), (3, 1, a.staleSeen.toNat), (4, 1, a.identHold.toNat)]
  | 0x804 => lo32 a.regOpen
  | 0x808 => hi32 a.regOpen
  | 0x80C => pack [(0, 16, a.filled), (16, 16, a.filledRefresh)]
  | 0x810 => pack [(0, 16, a.first10us), (16, 16, a.lastMs)]
  | 0x814 => word a.sat
  | 0x818 => word a.srcFault
  | 0x81C => pack [(0, 11, a.telStale), (16, 11, a.telNone)]
  | 0x820 => pack [(0, 10, a.seriesHost), (16, 10, a.seriesPersist)]
  | 0x828 => pack [(0, 4, a.inCode), (16, 16, a.inHseq)]
  | 0x82C => word a.inCollide
  | 0x830 => pack [(0, 11, (a.params.filter fun p => p.2.pending.isSome).length), (16, 11, a.installed)]
  | 0x834 => pack [(1, 1, a.identHold.toNat)]
  | 0x838 => pack [(0, 10, a.selSub), (10, 8, a.selParam)]
  | 0x83C => if on then k.cst.paramIn sp.inUse a.selSub a.selParam else 0
  | 0x840 => if on then (tfind sp.est a.selParam).getD (k.cst.paramIn sp.inUse a.selSub a.selParam) else 0
  | 0x848 => pack [(0, 1, (sp.overrides ≠ [] : Bool).toNat), (1, 1, sp.pending.isSome.toNat), (16, 16, sp.gen)]
  | _ => if 0x900 ≤ addr ∧ addr < 0xA00 then tget a.inWin ((addr - 0x900) / 4) 0 else 0

/-- R124: an override lies within the band of the selected parameter; a selection of the same transaction counts. -/
def checkAsm (k : Core) (ws : List (Nat × Word)) (addr : Nat) (w : Word) : Bool :=
  if addr ≠ 0x844 then true
  else
    let sel := match ws.reverse.find? fun x => x.1 = 0x838 with
      | some x => (field x.2 9 0, field x.2 17 10)
      | none => (k.asm.selSub, k.asm.selParam)
    k.epc.casting && decide (sel.1 < k.cst.substations) && decide (sel.2 < (k.cst.dims (k.cst.subTpl sel.1)).paramLen)
      && inBand w (k.cst.param sel.1 sel.2) (word (u32 (k.cst.tpl (k.cst.subTpl sel.1)) 24))

/-- Staged writes of the ASM_ registers outside the input window, and the W1C flags. -/
def State.commitAsm (s : State) (addr : Nat) (w : Word) : State :=
  let e := s.live.epc.epoch
  match addr with
  | 0x800 => s.modAsm fun a => { a with satSeen := a.satSeen && !bit w 2, staleSeen := a.staleSeen && !bit w 3 }
  | 0x834 => s.modAsm fun a =>
      let a := { a with identHold := bit w 1 }
      let a := if bit w 2 then { a with sat := 0, srcFault := 0, inCollide := 0 } else a
      let a := if bit w 3 && decide (a.selSub < s.live.cst.substations) then a.release a.selSub e else a
      if bit w 0 then a.refreshAll s.live.cst e else a
  | 0x838 => s.modAsm fun a => { a with selSub := field w 9 0, selParam := field w 17 10 }
  | 0x844 => s.modAsm fun a => a.override a.selSub a.selParam w e
  | _ => s

/-- The input window at a boundary (R108, R109): words and SUBMIT by transaction. Window words are judged with a SUBMIT of their own
transaction; a SUBMIT without any words is judged as a record of zeros (log entry 78). -/
def State.commitWindow (s : State) (ws : List Staged) : State :=
  let words := ws.filter fun x => decide (0x900 ≤ x.addr)
  let txns := (words.map Staged.txn).eraseDups
  let submits := ws.filter fun x => x.addr = 0x824 && bit x.val 0
  if 1 < txns.length then
    s.modAsm fun a => { a with inCollide := sat32 a.inCollide, inCode := 6, inHseq := 0, inWin := [] }
  else if words.isEmpty ∧ submits.isEmpty then s
  else
    let win := words.foldl (fun t x => tset t ((x.addr - 0x900) / 4) x.val) ([] : Table Word)
    let get := fun n => tget win n 0
    let hseq := field (get 3) 15 0
    if submits.any fun x => txns.isEmpty || txns.contains x.txn then
      s.modAsm fun a =>
        let r := a.submit s.live.cst get s.live.epc.epoch s.now
        { r.2 with inCode := r.1, inHseq := hseq, inWin := [] }
    else s.modAsm fun a => { a with inCode := 8, inHseq := hseq, inWin := [] }

/-! Registers at 0x0A00. -/

def readSlv (k : Core) (addr : Nat) : Word :=
  let x := k.slv
  let lanes := if k.epc.casting then k.cst.lanes else 0
  match addr with
  | 0xA00 => pack [(0, 3, x.phase), (3, 1, (k.epc.casting && k.cst.optimiser && x.enough lanes : Bool).toNat), (4, 1, x.satSeen.toNat),
      (5, 1, x.warmRejSeen.toNat), (6, 1, x.swapSeen.toNat), (7, 1, x.factFailSeen.toNat)]
  | 0xA04 => pack [(0, 3, x.code), (4, 3, x.cause), (7, 1, x.outSat.toNat), (8, 1, x.warm.toNat), (16, 12, x.rounds)]
  | 0xA08 => lo32 x.openEpoch
  | 0xA0C => hi32 x.openEpoch
  | 0xA10 => word x.resPri
  | 0xA14 => word x.resDua
  | 0xA18 => pack [(0, 20, x.window), (20, 12, x.startUs)]
  | 0xA1C => pack [(0, 8, x.shiftRun)]
  | 0xA20 => word x.sat
  | 0xA24 => word x.warmRej
  | 0xA28 => word x.cold
  | 0xA2C => word x.factAbort
  | 0xA30 => word x.factFail
  | 0xA34 => pack [(0, 11, x.excluded.length)]
  | 0xA6C => pack [(0, 3, (([32, 33, 34, 35].filter fun p => x.cruState lanes p = 1)).length), (8, 6, lanes)]
  | _ =>
    if 0xA40 ≤ addr ∧ addr < 0xA60 then
      let l := addr - 0xA40
      pack ((List.range 4).map fun m => (8 * m, 6, if l + m < lanes then x.phys (l + m) else 63))
    else if 0xA60 ≤ addr ∧ addr < 0xA6C then
      pack ((List.range 16).map fun m => (2 * m, 2, x.cruState lanes (4 * (addr - 0xA60) + m)))
    else if 0xA80 ≤ addr ∧ addr < 0xB10 then
      let p := (addr - 0xA80) / 4
      pack [(0, 16, tget x.ce p 0), (16, 8, tget x.katFail p 0), (24, 8, tget x.residue p 0)]
    else 0

def State.commitSlv (s : State) (addr : Nat) (w : Word) : State :=
  match addr with
  | 0xA00 => s.modSlv fun x => { x with
      satSeen := x.satSeen && !bit w 4, warmRejSeen := x.warmRejSeen && !bit w 5, swapSeen := x.swapSeen && !bit w 6
      factFailSeen := x.factFailSeen && !bit w 7 }
  | 0xA38 => s.modSlv fun x =>
      let x := if bit w 0 then { x with sat := 0, warmRej := 0, cold := 0, factAbort := 0, factFail := 0 } else x
      { x with coldNext := x.coldNext || bit w 1 }
  | _ => s

end Sys2Proof.Machine
end

