-- ==== Sys2Proof/Machine/Registers.lean ====
section
/-! DEFINITION. The registers of the blocks SYS_, EPC_, CST_, PLN_ and MGT_ (spec/02, spec/03, spec/06, spec/19, spec/20): what a read
returns, the fixed rules of a write, what a write does; journal and plan records as bytes. -/

namespace Sys2Proof.Machine

open Sys2Proof

/-! SYS_ (R543 to R545). -/

def readSys (k : Core) (addr : Nat) : Word :=
  let x := k.sys
  let up := (k.epc.boundaryAt - x.releaseAt) / 1000000
  match addr with
  | 0x00 => pack [(0, 16, 0x9600), (16, 4, x.stepping)]
  | 0x08 => word x.werr
  | 0x0C => pack [(0, 16, x.werrAt.addr), (16, 3, x.werrAt.source), (20, 4, x.werrAt.cause)]
  | 0x10 => pack [(0, 1, x.xtalOk.toNat), (1, 1, x.reserveOsc.toNat), (2, 1, x.cruRun.toNat), (3, 1, x.eth0Clk.toNat),
      (4, 1, x.eth1Clk.toNat), (5, 1, x.canClk.toNat), (6, 1, x.cplClk.toNat), (7, 1, x.dramSr.toNat)]
  | 0x14 => lo32 up
  | 0x18 => hi32 up
  | 0x1C => pack [(0, 16, unsigned 16 x.tempModule), (16, 16, unsigned 16 x.tempDie)]
  | 0x20 => pack [(0, 16, x.dramCe), (16, 7, x.dramSpares), (24, 8, x.dramRetired)]
  | 0x24 => pack [(0, 1, x.overtemp.toNat), (1, 1, x.dramNoSpare.toNat), (2, 1, x.dramSwapSeen.toNat), (3, 1, x.werrSeen.toNat)]
  | _ => 0

def State.commitSys (s : State) (addr : Nat) (w : Word) : State :=
  match addr with
  | 0x24 => s.modSys fun x => { x with dramSwapSeen := x.dramSwapSeen && !bit w 2, werrSeen := x.werrSeen && !bit w 3 }
  | 0x28 => if bit w 0 then s.modSys fun x => { x with werr := 0, werrAt := {}, dramCe := 0 } else s
  | _ => s

/-! EPC_ (R29 to R46). -/

def readEpc (k : Core) (addr : Nat) : Word :=
  let x := k.epc
  match addr with
  | 0x100 => lo32 x.epoch
  | 0x104 => hi32 x.epoch
  | 0x108 => if x.casting then word x.periodMs else 0
  | 0x10C => word x.planP
  | 0x110 => x.runId
  | 0x114 => pack [(0, 1, x.dpAbsent.toNat), (1, 1, x.pairLock.toNat), (2, 1, x.refLock.toNat), (3, 1, x.refLost.toNat), (4, 1, x.pourLate.toNat)]
  | 0x118 => pack [(0, 16, x.pourMax)]
  | 0x11C => word x.stgFull
  | 0x120 => word x.overwrite
  | 0x124 => word x.txnLost
  | 0x128 => lo32 x.commitYra
  | 0x12C => lo32 x.commitYml
  | 0x130 => lo32 x.commitDbg
  | 0x134 => if x.pairLock || x.refLock then wordInt x.alignNs else 0
  | _ => 0

def State.commitEpc (s : State) (addr : Nat) (w : Word) : State :=
  match addr with
  | 0x114 => s.modEpc fun x => { x with refLost := x.refLost && !bit w 3, pourLate := x.pourLate && !bit w 4 }
  | 0x138 => if bit w 0 then s.modEpc fun x => { x with pourMax := 0, stgFull := 0, overwrite := 0, txnLost := 0 } else s
  | _ => s

/-! CST_ (R80 to R88). -/

/-- CST_DIGEST8 to CST_DIGEST11 read 0 where the digest has 32 bytes (log entry 77). -/
def readCst (k : Core) (addr : Nat) : Word :=
  let x := k.cst
  let err := fun (e : CstErr) => pack [(0, 8, e.code), (8, 16, e.secType)]
  match addr with
  | 0x400 => pack [(0, 3, x.state), (3, 1, x.slot), (4, 1, x.optOff.toNat), (5, 1, x.islandOff.toNat), (6, 1, x.legacy.toNat),
      (7, 1, x.noOpt.toNat), (8, 1, x.tried0.toNat), (9, 1, x.tried1.toNat), (10, 1, x.quad.toNat)]
  | 0x404 => err x.err0
  | 0x408 => err x.err1
  | 0x40C => word x.err0.ofs
  | 0x410 => word x.err1.ofs
  | 0x414 => word x.seq
  | 0x418 => pack [(0, 16, x.fmtMinor), (16, 16, x.fmtMajor)]
  | 0x41C => pack [(0, 16, x.fmtMaxMinor), (16, 16, 2)]
  | 0x450 => word x.seqFloor
  | 0x454 => pack [(0, 4, x.canOff), (4, 8, x.groupsOff), (12, 7, x.metersOff), (19, 5, x.alarmsOff), (24, 3, x.sectOff)]
  | 0x458 => word (min 65535 x.loadTimeMs)
  | _ => if 0x420 ≤ addr ∧ addr < 0x450 then wordAt x.digest ((addr - 0x420) / 4) else 0

/-! PLN_ (R165 to R192). -/

/-- The 96-byte header of a plan record and its body (R166, R167). -/
def PlanRec.body (r : PlanRec) : Bytes :=
  (r.points.flatMap bytesOfWords) ++ r.subs.flatMap fun b =>
    leBytes 2 b.sub ++ leBytes 1 b.flags ++ leBytes 1 b.steps ++ leBytes 2 b.paramGen ++ leBytes 2 0 ++ bytesOfWords b.words

def PlanRec.head (r : PlanRec) : Bytes :=
  let h := leBytes 4 0x4E4C5059 ++ leBytes 2 1 ++ leBytes 1 r.code ++ leBytes 1 r.cause ++ leBytes 4 r.flags ++ leBytes 4 r.seq
    ++ leBytes 8 r.openEpoch ++ leBytes 8 (r.srcEpoch.getD (2 ^ 64 - 1)) ++ leBytes 8 r.t0 ++ leBytes 8 r.srcT0 ++ leBytes 8 r.holdEnd
    ++ leBytes 2 r.stepMin ++ leBytes 1 r.n ++ leBytes 1 0 ++ leBytes 2 r.subs.length ++ leBytes 2 r.points.length
    ++ leBytes 4 r.castSeq ++ leBytes 24 0
  h ++ leBytes 4 (crc32 (h ++ r.body))

/-- The words of the object that PLN_SEL selects. -/
def planWindow (r : PlanRec) (kind index : Nat) : List Word :=
  match kind with
  | 0 => (List.range 24).map (wordAt r.head)
  | 1 => r.points.getD index []
  | _ => match r.subs[index]? with
    | some b => pack [(0, 16, b.sub), (16, 8, b.flags), (24, 8, b.steps)] :: pack [(0, 16, b.paramGen)] :: b.words
    | none => []

def readPln (k : Core) (addr : Nat) : Word :=
  let x := k.pln
  let r := x.record.getD {}
  let src := r.srcEpoch.getD (2 ^ 64 - 1)
  let now := k.clk.bound.getD 0
  let out : Bool := x.record.isSome && (r.holdEnd = 0 || decide (r.holdEnd * 32768 ≤ now))
  match addr with
  | 0xC00 => pack [(0, 7, r.flags), (8, 3, r.code), (12, 3, r.cause), (15, 1, (decide (x.causes ≠ 0)).toNat), (16, 1, x.island.toNat),
      (17, 1, x.gridLost.toNat), (18, 1, x.cmdHeld.toNat), (19, 1, x.gridAlarm.toNat), (20, 1, out.toNat)]
  | 0xC04 => pack [(0, 5, x.causes), (8, 5, x.recover)]
  | 0xC08 => word r.seq
  | 0xC0C => lo32 r.openEpoch
  | 0xC10 => hi32 r.openEpoch
  | 0xC14 => if x.record.isSome then lo32 src else 0
  | 0xC18 => if x.record.isSome then hi32 src else 0
  | 0xC1C => lo32 r.holdEnd
  | 0xC20 => hi32 r.holdEnd
  | 0xC24 => pack (x.shed.map fun g => (g, 1, 1))
  | 0xC28 => pack [(0, 16, x.entries), (16, 16, x.sheds)]
  | 0xC2C => word x.sat
  | 0xC30 => word x.limit
  | 0xC38 => pack [(0, 2, x.selKind), (2, 11, x.selIndex), (13, 2, x.selPage)]
  | _ =>
    if 0xD00 ≤ addr ∧ x.record.isSome then (planWindow r x.selKind x.selIndex).getD (192 * x.selPage + (addr - 0xD00) / 4) 0 else 0

/-- Fixed rules of the PLN_ writes against a core (R39, R192): ISL_CMD and PLN_SEL. -/
def checkPln (k : Core) (addr : Nat) (w : Word) : Bool :=
  match addr with
  | 0xC34 =>
    match field w 1 0 with
    | 1 => k.cst.islUsable
    | 2 => !k.pln.gridLost
    | 3 => false
    | _ => true
  | 0xC38 =>
    let r := k.pln.record.getD {}
    field w 14 13 ≠ 3 && (match field w 1 0 with
      | 0 => true
      | 1 => decide (field w 12 2 < r.points.length)
      | 2 => decide (field w 12 2 < r.subs.length)
      | _ => false)
  | _ => true

/-- ISL_CMD at its commit boundary (R192). -/
def State.islCommand (s : State) (cmd : Nat) : State :=
  match cmd with
  | 1 => (if s.live.pln.island then s else s.enterIsland).modPln fun p => { p with cmdHeld := true, leaveDue := false }
  | 2 => if s.live.pln.island && s.live.pln.cmdHeld then s.leaveIsland.yspUnshed s.live.pln.shed else s
  | _ => s

def State.commitPln (s : State) (src : Source) (addr : Nat) (w : Word) : State :=
  match addr with
  | 0xC00 => s.modPln fun p => { p with gridAlarm := p.gridAlarm && !bit w 19 }
  | 0xC34 =>
    if checkPln s.live addr w then
      let s := s.islCommand (field w 1 0)
      if bit w 2 then s.modPln fun p => { p with sat := 0, limit := 0 } else s
    else s.werr addr src .value
  | 0xC38 => s.modPln fun p => { p with selKind := field w 1 0, selIndex := field w 12 2, selPage := field w 14 13 }
  | _ => s

/-! MGT_ and the journal (R526, R537 to R539). -/

/-- R450 row 3. -/
def readsBilled (r : Role) : Bool := r = .owner || r = .operator

/-- The 48 bytes of a journal record for a reader (R537, R538): without row 3, DATA of codes 15 and 16 reads 0. The CRC is that of
the bytes delivered (log entry 48). -/
def JRec.bytes (r : JRec) (role : Role) : Bytes :=
  let data := if (r.event = 15 ∨ r.event = 16) ∧ !readsBilled role then List.replicate 16 0 else r.data
  let b := leBytes 4 r.jseq ++ leBytes 4 r.runId.toNat ++ leBytes 8 (r.epoch.getD (2 ^ 64 - 1))
    ++ leBytes 6 r.sec ++ leBytes 2 (r.sub % 32768 + 32768 * r.timeValid.toNat) ++ leBytes 2 r.event
    ++ leBytes 1 (r.incomplete.toNat + 2 * r.alarm.toNat) ++ leBytes 1 0 ++ data
  b ++ leBytes 4 (crc32 b)

/-- MGT_JFIRST and MGT_JLAST. -/
def Mgt.jfirst (m : Mgt) : Nat := (m.journal.head?.map JRec.jseq).getD m.jnext
def Mgt.jlast (m : Mgt) : Nat := (m.journal.getLast?.map JRec.jseq).getD (m.jnext - 1)

/-- The node number and MAINT of the strap (R475). -/
def Pwr.node (p : Pwr) : Nat := p.strapCode / 4
def Pwr.maint (p : Pwr) : Bool := p.strapCode.testBit 1

/-- The speed in use: 115,200 bit/s while MAINT is strapped (R526). -/
def Core.mgtSpeed (k : Core) : Nat := if k.pwr.maint then 0 else k.mgt.speed

def readMgt (k : Core) (role : Role) (addr : Nat) : Word :=
  let m := k.mgt
  match addr with
  | 0x300 => pack [(0, 3, m.sessions.length), (3, 2, k.pwr.node), (5, 2, k.mgtSpeed), (7, 1, k.pwr.maint.toNat)]
  | 0x304 => word m.cfgSpeed
  | 0x308 => pack [(0, 16, m.rx), (16, 16, m.tx)]
  | 0x30C => pack [(0, 16, m.crcErr), (16, 8, m.framingErr), (24, 8, m.jfail)]
  | 0x310 => pack [(0, 16, m.authFail)]
  | 0x318 => word m.jfirst
  | 0x31C => word m.jlast
  | 0x320 => m.jsel
  | _ =>
    if 0x330 ≤ addr ∧ addr < 0x360 then
      match m.journal.find? fun (r : JRec) => r.jseq = m.jsel.toNat with
      | some r => wordAt (r.bytes role) ((addr - 0x330) / 4)
      | none => 0
    else 0

def checkMgt (addr : Nat) (w : Word) : Bool := if addr = 0x304 then field w 1 0 ≠ 3 else true

def State.commitMgt (s : State) (addr : Nat) (w : Word) : State :=
  match addr with
  | 0x304 => s.modMgt fun m => { m with cfgSpeed := field w 1 0, speedDue := if field w 1 0 = m.cfgSpeed then m.speedDue else some (s.now + 10000000) }
  | 0x314 =>
    let s := if bit w 0 then s.modMgt fun m => { m with rx := 0, tx := 0, crcErr := 0, framingErr := 0, authFail := 0, jfail := 0 } else s
    if bit w 1 then (s.closeYml fun _ => true).modMgt fun m => { m with opening := [] } else s
  | 0x320 => s.modMgt fun m => { m with jsel := w }
  | _ => s

end Sys2Proof.Machine
end

