-- ==== Sys2Proof/Machine/PlanCmds.lean ====
section
/-! DEFINITION. The events of plans and ISLAND (spec/06): HOLD_END, grid loss and return, entry and exit, group restoration. -/

namespace Sys2Proof.Machine

open Sys2Proof

/-- HOLD_END (R178 to R180): the first boundary at or after HOLD_END of the published record. -/
def execHoldEnd (s : State) : Host.Outcome State Fault Refusal :=
  match s.live.pln.record with
  | some r =>
    if s.atBoundary ∧ !s.live.pln.holdDone ∧ r.holdEnd * 32768 ≤ s.bound then
      .next ((s.modPln fun p => { p with holdDone := true }).setPoints.yspHoldEnd).repour
    else .next s
  | none => .next s

/-- The modes in which ISLAND is entered; in STANDBY and HANDOVER the mode stays (R495). -/
def Mode.islands : Mode → Bool
  | .safehold => false
  | m => m.running

/-- GRID_LOSS_CONFIRM (R188, R191, R192): a detector has shown loss for LOSS_MS, in whatever mode; a restoration stops. Without a section in use there is nothing to time and the
command's word is taken (log entry 49); the alarm is set. -/
def execGridLossConfirm (s : State) : Host.Outcome State Fault Refusal :=
  if s.live.pln.gridLost ∨ !s.live.epc.casting then .next s
  else
    let c := s.live.cst
    match c.islGlobal with
    | some b =>
      if s.live.pln.lossSince.any fun d => decide (d.2 + u16 b 2 * 1000000 ≤ s.now) then
        .next (s.modPln fun p => { p with
          gridLost := true, enterDue := c.islUsable && !p.island, leaveDue := false, restoreAt := none
          gridAlarm := p.gridAlarm || !c.islUsable })
      else .next s
    | none => .next (s.modPln fun p => { p with gridLost := true, gridAlarm := true })

/-- ISLAND_ENTER (R189): the first boundary after confirmed loss. -/
def execIslandEnter (s : State) : Host.Outcome State Fault Refusal :=
  if !s.atBoundary ∨ !s.live.pln.enterDue ∨ !s.live.pwr.mode.islands then .next s
  else if s.live.pln.island then .next (s.modPln fun p => { p with enterDue := false })
  else .next s.enterIsland.settleMode.repour

/-- GRID_RESTORE (R188): every enabled detector has been healthy for RESTORE_S. A commanded ISLAND stays held (R192). -/
def execGridRestore (s : State) : Host.Outcome State Fault Refusal :=
  if !s.live.pln.gridLost then .next s
  else match s.live.cst.islGlobal with
    | some b =>
      match s.live.pln.healthySince with
      | some t =>
        if t + u16 b 10 * 1000000000 ≤ s.now then
          .next (s.modPln fun p => { p with gridLost := false, enterDue := false, leaveDue := p.island && !p.cmdHeld })
        else .next s
      | none => .next s
    | none => .next (s.modPln fun p => { p with gridLost := false })

/-- ISLAND_LEAVE (R191): the boundary after restoration. -/
def execIslandLeave (s : State) : Host.Outcome State Fault Refusal :=
  if !s.atBoundary ∨ !s.live.pln.leaveDue ∨ !s.live.pln.island then .next s
  else .next (s.leaveIsland.yspUnshed s.live.pln.shed).settleMode.repour

/-- GROUP_RESTORE (R191, R388): STAGGER_MS have passed; the highest shed group returns. -/
def execGroupRestore (s : State) : Host.Outcome State Fault Refusal :=
  match s.live.pln.restoreAt with
  | some t =>
    if s.live.pln.island ∨ s.live.pln.shed.isEmpty ∨ s.now < t then .next s
    else .next (s.restoreGroup.yspUnshed s.live.pln.shed)
  | none => .next s

end Sys2Proof.Machine
end

