-- ==== Sys2Proof/Machine/System.lean ====
section
/-! DEFINITION. Events of the system block and of the management port's line (spec/19, spec/20): DRAM errors, temperature, speed. -/

namespace Sys2Proof.Machine

open Sys2Proof

/-- A DRAM row is retired and mapped to a spare: at once, or at the end of the running solve window; without a spare it stays in use
(R544). -/
def State.retireRow (s : State) (row : Nat) : State :=
  if s.live.sys.dramRows.contains row then s
  else if s.live.sys.dramSpares = 0 then s.modSys fun x => { x with dramNoSpare := true }
  else s.modSys fun x => { x with
    dramSpares := x.dramSpares - 1, dramRetired := satAdd 8 x.dramRetired 1, dramSwapSeen := true
    dramRows := x.dramRows ++ [row], dramWaiting := if s.live.slv.run.isSome then x.dramWaiting ++ [row] else x.dramWaiting }

/-- DRAM_UNCORRECTABLE (R544): who read the row: 1 the solver array or the assembler, 2 and 3 the receive buffer of ports 0 and 1, where
a frame of `len` bytes is discarded; 0 another reader. -/
def execDramUncorrectable (row reader len : Nat) (s : State) : Host.Outcome State Fault Refusal :=
  let s1 := s.retireRow row
  let cut := fun (q : Port) => { q with bufOther := q.bufOther - len }
  .next (match reader with
    | 1 => s1.deadlineOutcome
    | 2 => s1.modEth fun e => { e with port0 := cut e.port0 }
    | 3 => s1.modEth fun e => { e with port1 := cut e.port1 }
    | _ => s1)

/-- DRAM_CORRECTED (R544): counted; the eighth on a row over the module's life retires it. -/
def execDramCorrected (row : Nat) (s : State) : Host.Outcome State Fault Refusal :=
  let s1 := s.modSys fun x => { x with dramCe := satAdd 16 x.dramCe 1, dramRowCe := tset x.dramRowCe row (tget x.dramRowCe row 0 + 1) }
  .next (if 8 ≤ tget s1.live.sys.dramRowCe row 0 then s1.retireRow row else s1)

/-- OVERTEMP_CHANGE (R545): the module temperature, in 0.1 °C, has crossed 95 °C or 90 °C. -/
def execOvertempChange (temp : Int) (s : State) : Host.Outcome State Fault Refusal :=
  .next (s.modSys fun x => { x with
    tempModule := temp, overtemp := if 950 < temp then true else if temp < 900 then false else x.overtemp })

/-- SPEED_CHANGE (R527): 10 ms after the commit of MGT_CFG.SPEED. -/
def execSpeedChange (s : State) : Host.Outcome State Fault Refusal :=
  match s.live.mgt.speedDue with
  | some t => if t ≤ s.now then .next (s.modMgt fun m => { m with speed := m.cfgSpeed, speedDue := none }) else .next s
  | none => .next s

end Sys2Proof.Machine
end

