-- ==== Sys2Proof/Machine/RegMap.lean ====
section
/-! DEFINITION. The register map (spec/20, R540): which addresses are registers, which bits a write may change and how (R7), which row of
the matrix governs each write (R450). -/

namespace Sys2Proof.Machine

open Sys2Proof

/-- A family of registers with a writable field: first address, stride, number; masks of its fields by type; the WO bits that act at
their access; rows of R450 by mask (20 LOCK, 21 rows 17 or 18, 22 OWNER alone, 23 REQ and OPEN_NEXT; R456, R561). A register named in
no row follows row 14. -/
structure RegRow where
  lo : Nat
  stride : Nat := 4
  n : Nat := 1
  rw : Nat := 0
  rwe : Nat := 0
  wo : Nat := 0
  w1c : Nat := 0
  imm : Nat := 0
  rows : List (Nat × Nat) := [(0xFFFFFFFF, 14)]
deriving DecidableEq, Repr

/-- Writable registers of the SYS_ block. -/
def regSys : List RegRow := [
  { lo := 0x0024, w1c := 0xC },
  { lo := 0x0028, wo := 0x1, rows := [(0xFFFFFFFF, 5)] }]

/-- Writable registers of the EPC_ block. -/
def regEpc : List RegRow := [
  { lo := 0x0114, w1c := 0x18 },
  { lo := 0x0138, wo := 0x1, rows := [(0xFFFFFFFF, 5)] }]

/-- Writable registers of the PWR_ block. -/
def regPwr : List RegRow := [
  { lo := 0x0204, wo := 0x7, rows := [(0xFFFFFFFF, 15)] },
  { lo := 0x0208, rwe := 0x1, rows := [(0xFFFFFFFF, 15)] },
  { lo := 0x020C, w1c := 0x2, rows := [(0xFFFFFFFF, 15)] }]

/-- Writable registers of the RST_ block. -/
def regRst : List RegRow := [
  { lo := 0x0284, wo := 0x3, imm := 0x3, rows := [(0xFFFFFFFF, 15)] },
  { lo := 0x0288, wo := 0x3F, imm := 0x3F, rows := [(0xFFFFFFFF, 15)] }]

/-- Writable registers of the MGT_ block. -/
def regMgt : List RegRow := [
  { lo := 0x0304, rwe := 0x3, rows := [(0xFFFFFFFF, 16)] },
  { lo := 0x0314, wo := 0x3, rows := [(0x1, 5), (0x1, 16), (0x2, 16)] },
  { lo := 0x0320, rwe := 0xFFFFFFFF, rows := [(0xFFFFFFFF, 5), (0xFFFFFFFF, 16)] }]

/-- Writable registers of the UPD_ block. -/
def regUpd : List RegRow := [
  { lo := 0x04C4, rwe := 0xFFFFFF, rows := [(0xFFFFFFFF, 21)] },
  { lo := 0x04C8, wo := 0xFF, rows := [(0x7F, 21), (0x80, 22)] },
  { lo := 0x0600, stride := 0x4, n := 128, rwe := 0xFFFFFFFF, rows := [(0xFFFFFFFF, 21)] }]

/-- Writable registers of the ASM_ block. -/
def regAsm : List RegRow := [
  { lo := 0x0800, w1c := 0xC },
  { lo := 0x0824, wo := 0x1, rows := [(0xFFFFFFFF, 6)] },
  { lo := 0x0834, rwe := 0x2, wo := 0xD },
  { lo := 0x0838, rwe := 0x3FFFF, rows := [(0xFFFFFFFF, 5)] },
  { lo := 0x0844, wo := 0xFFFFFFFF },
  { lo := 0x0900, stride := 0x4, n := 64, rwe := 0xFFFFFFFF, rows := [(0xFFFFFFFF, 6)] }]

/-- Writable registers of the SLV_ block. -/
def regSlv : List RegRow := [
  { lo := 0x0A00, w1c := 0xF0 },
  { lo := 0x0A38, wo := 0x3, rows := [(0x1, 5), (0x2, 14)] }]

/-- Writable registers of the PLN_ block. -/
def regPln : List RegRow := [
  { lo := 0x0C00, w1c := 0x80000 },
  { lo := 0x0C34, wo := 0x7, rows := [(0x3, 10), (0x4, 5)] },
  { lo := 0x0C38, rwe := 0x7FFF, rows := [(0xFFFFFFFF, 5)] }]

/-- Writable registers of the LPE_ block. -/
def regLpe : List RegRow := [
  { lo := 0x1000, w1c := 0x38 },
  { lo := 0x1018, wo := 0x1, rows := [(0xFFFFFFFF, 5)] },
  { lo := 0x1020, rw := 0xFF, rows := [(0xFFFFFFFF, 8)] },
  { lo := 0x1024, rw := 0xFFFFFFFF, rows := [(0xFFFFFFFF, 8)] },
  { lo := 0x1028, wo := 0x3, imm := 0x3, rows := [(0xFFFFFFFF, 8)] },
  { lo := 0x1030, rw := 0xFFFFFFF, rows := [(0xFFFFFFFF, 8)] },
  { lo := 0x1034, rw := 0xFFFFFFFF, rows := [(0xFFFFFFFF, 8)] },
  { lo := 0x1038, rw := 0xFFFFFFFF, rows := [(0xFFFFFFFF, 8)] },
  { lo := 0x103C, rw := 0xFFFFFFFF, rows := [(0xFFFFFFFF, 8)] },
  { lo := 0x1040, rw := 0xFFFFFFFF, rows := [(0xFFFFFFFF, 8)] },
  { lo := 0x1044, rw := 0xFFFFFFFF, rows := [(0xFFFFFFFF, 8)] },
  { lo := 0x1048, rw := 0xFFFFFFF, rows := [(0xFFFFFFFF, 8)] },
  { lo := 0x104C, wo := 0x3, imm := 0x3, rows := [(0xFFFFFFFF, 8)] },
  { lo := 0x1054, rwe := 0x3F, rows := [(0xFFFFFFFF, 5)] },
  { lo := 0x1400, stride := 0x10, n := 192, rwe := 0xFFFFFFFF, rows := [(0xFFFFFFFF, 6)] }]

/-- Writable registers of the LGC_ block. -/
def regLgc : List RegRow := [
  { lo := 0x2000, w1c := 0x18 },
  { lo := 0x2034, wo := 0x3, rows := [(0x1, 5), (0x2, 12)] },
  { lo := 0x2040, rwe := 0x7FFFFFF, rows := [(0xFFFFFFFF, 7)] },
  { lo := 0x2044, rwe := 0xFFFFFFFF, rows := [(0xFFFFFFFF, 7)] },
  { lo := 0x2048, wo := 0x3, rows := [(0xFFFFFFFF, 7)] },
  { lo := 0x2060, stride := 0x8, n := 8, rwe := 0xFFFFFFFF, rows := [(0xFFFFFFFF, 6)] },
  { lo := 0x2064, stride := 0x8, n := 8, rwe := 0xFFFFFFFF, rows := [(0xFFFFFFFF, 6)] },
  { lo := 0x20A0, rwe := 0x3FFF, rows := [(0xFFFFFFFF, 5)] }]

/-- Writable registers of the FAN_ block. -/
def regFan : List RegRow := [
  { lo := 0x2400, w1c := 0x30 },
  { lo := 0x2410, wo := 0x1, rows := [(0xFFFFFFFF, 5)] },
  { lo := 0x2414, wo := 0xFFFFFFFF, rows := [(0xFFFFFFFF, 12)] },
  { lo := 0x2500, stride := 0x10, n := 32, w1c := 0x3000 }]

/-- Writable registers of the NRG_ block. -/
def regNrg : List RegRow := [
  { lo := 0x2800, w1c := 0xF0 },
  { lo := 0x2814, wo := 0xFFFF00FF, rows := [(0xFFFFFFFF, 4)] },
  { lo := 0x2818, wo := 0x3, rows := [(0x1, 5), (0x2, 4)] },
  { lo := 0x2824, rwe := 0x3FF, rows := [(0xFFFFFFFF, 5)] },
  { lo := 0x2B08, rwe := 0xFFFFFFFF, rows := [(0xFFFFFFFF, 5)] },
  { lo := 0x2B70, rwe := 0x3F, rows := [(0xFFFFFFFF, 5)] }]

/-- Writable registers of the PAR_ block. -/
def regPar : List RegRow := [
  { lo := 0x3004, w1c := 0xFF },
  { lo := 0x303C, wo := 0xF, rows := [(0x7, 11), (0x8, 5)] }]

/-- Writable registers of the ETH_ block. -/
def regEth : List RegRow := [
  { lo := 0x3450, rwe := 0x3FF, rows := [(0xFFFFFFFF, 5)] },
  { lo := 0x345C, wo := 0x1, rows := [(0xFFFFFFFF, 5)] }]

/-- Writable registers of the PTP_ block. -/
def regPtp : List RegRow := [
  { lo := 0x3500, w1c := 0xE00 },
  { lo := 0x3514, rwe := 0xFFFFFFFF, rows := [(0xFFFFFFFF, 13)] },
  { lo := 0x3518, rwe := 0xFFFFFFFF, rows := [(0xFFFFFFFF, 13)] },
  { lo := 0x3524, rwe := 0x3, wo := 0x4, rows := [(0xFFFFFFFF, 13)] },
  { lo := 0x3528, wo := 0x1, imm := 0x1, rows := [(0xFFFFFFFF, 5)] },
  { lo := 0x3560, rwe := 0xFFFFFFFF, rows := [(0xFFFFFFFF, 13)] },
  { lo := 0x3564, rwe := 0xFFFFFFFF, rows := [(0xFFFFFFFF, 13)] },
  { lo := 0x3568, rwe := 0xFFFFFFFF, rows := [(0xFFFFFFFF, 13)] },
  { lo := 0x356C, rwe := 0x1, wo := 0x6, rows := [(0xFFFFFFFF, 13)] }]

/-- Writable registers of the CAN_ block. -/
def regCan : List RegRow := [
  { lo := 0x3804, wo := 0x1, rows := [(0xFFFFFFFF, 5)] },
  { lo := 0x3810, stride := 0x20, n := 4, w1c := 0x1E0 },
  { lo := 0x3828, stride := 0x20, n := 4, wo := 0x3, rows := [(0xFFFFFFFF, 6)] },
  { lo := 0x3900, rwe := 0x1FFF, rows := [(0xFFFFFFFF, 5)] },
  { lo := 0x390C, wo := 0x1, rows := [(0xFFFFFFFF, 12)] },
  { lo := 0x3980, rwe := 0xFF, rows := [(0xFFFFFFFF, 5)] },
  { lo := 0x3988, wo := 0x3, rows := [(0xFFFFFFFF, 6)] },
  { lo := 0x3990, stride := 0x4, n := 16, rwe := 0xFFFFFFFF, rows := [(0xFFFFFFFF, 6)] }]

/-- Writable registers of the CLK_ block. -/
def regClk : List RegRow := [
  { lo := 0x3C00, w1c := 0x30 },
  { lo := 0x3C20, wo := 0x1, imm := 0x1, rows := [(0xFFFFFFFF, 5)] },
  { lo := 0x3C40, rwe := 0xFFFFFFFF, rows := [(0xFFFFFFFF, 13)] },
  { lo := 0x3C44, rwe := 0xFFFFFFFF, rows := [(0xFFFFFFFF, 13)] },
  { lo := 0x3C48, rwe := 0xFFFFFFFF, rows := [(0xFFFFFFFF, 13)] },
  { lo := 0x3C4C, wo := 0x3, rows := [(0xFFFFFFFF, 13)] },
  { lo := 0x3C90, w1c := 0xFFFF },
  { lo := 0x3C94, w1c := 0xFFFF },
  { lo := 0x3C98, w1c := 0xFFFF },
  { lo := 0x3C9C, wo := 0xFFFFFFFF, rows := [(0xFFFFFFFF, 13)] },
  { lo := 0x3D00, stride := 0x4, n := 32, rwe := 0xFFFFFFFF, rows := [(0xFFFFFFFF, 6)] }]

/-- Writable registers of the SEC_ block. -/
def regSec : List RegRow := [
  { lo := 0x3E2C, rwe := 0x3F, rows := [(0xFFFFFFFF, 5)] },
  { lo := 0x3E38, wo := 0x1, rows := [(0xFFFFFFFF, 19)] },
  { lo := 0x3E40, wo := 0x7, rows := [(0x1, 23), (0x2, 20), (0x4, 23)] },
  { lo := 0x3E48, wo := 0x1, rows := [(0xFFFFFFFF, 19)] },
  { lo := 0x3E5C, rwe := 0x7, rows := [(0xFFFFFFFF, 5)] },
  { lo := 0x3E90, stride := 0x4, n := 4, rwe := 0xFFFFFFFF, rows := [(0xFFFFFFFF, 19)] },
  { lo := 0x3F00, stride := 0x4, n := 64, rwe := 0xFFFFFFFF, rows := [(0xFFFFFFFF, 19)] }]

/-- Writable registers of the FCH_ block. -/
def regFch : List RegRow := [
  { lo := 0x4004, stride := 0x40, n := 96, w1c := 0x3000 },
  { lo := 0x401C, stride := 0x40, n := 96, rw := 0xFFFFFFFF, rows := [(0xFFFFFFFF, 8)] },
  { lo := 0x4020, stride := 0x40, n := 96, wo := 0x1F, imm := 0xF, rows := [(0x13, 12), (0xC, 8)] },
  { lo := 0x5804, stride := 0x40, n := 96, rwe := 0xFFFFFFFF, rows := [(0xFFFFFFFF, 9)] },
  { lo := 0x5808, stride := 0x40, n := 96, rwe := 0xFFFFFFFF, rows := [(0xFFFFFFFF, 9)] },
  { lo := 0x5828, stride := 0x40, n := 96, wo := 0x1F, rows := [(0xFFFFFFFF, 9)] },
  { lo := 0x7000, w1c := 0x10 },
  { lo := 0x7028, wo := 0x1, rows := [(0xFFFFFFFF, 5)] }]

/-- The registers with a writable field, block by block. -/
def regRows : List RegRow :=
  regSys ++ regEpc ++ regPwr ++ regRst ++ regMgt ++ regUpd ++ regAsm ++ regSlv ++ regPln ++ regLpe ++ regLgc ++ regFan ++ regNrg ++ regPar ++ regEth ++ regPtp ++ regCan ++ regClk ++ regSec ++ regFch

/-- Registers of the types RO and ROS alone: first address, stride, number. -/
def roRows0 : List (Nat × Nat × Nat) := [
  (0x0000, 0x4, 1), (0x0008, 0x4, 7), (0x0100, 0x4, 5), (0x0118, 0x4, 8), (0x0200, 0x4, 1), (0x0210, 0x4, 4),
  (0x0280, 0x4, 1), (0x028C, 0x4, 3), (0x0300, 0x4, 1), (0x0308, 0x4, 3), (0x0318, 0x4, 2), (0x0330, 0x4, 12),
  (0x0400, 0x4, 23), (0x0480, 0x4, 17), (0x0804, 0x4, 8), (0x0828, 0x4, 3), (0x083C, 0x4, 2), (0x0848, 0x4, 1),
  (0x0A04, 0x4, 13), (0x0A40, 0x4, 12), (0x0A80, 0x4, 36), (0x0C04, 0x4, 12), (0x0D00, 0x4, 192), (0x1004, 0x4, 5),
  (0x1050, 0x4, 1), (0x1200, 0x4, 128), (0x1404, 0x10, 192), (0x1408, 0x10, 192), (0x140C, 0x10, 192),
  (0x2004, 0x4, 12), (0x204C, 0x4, 1), (0x20A4, 0x4, 1), (0x2100, 0x4, 192), (0x2404, 0x4, 3), (0x2504, 0x10, 32),
  (0x2508, 0x10, 32), (0x250C, 0x10, 32), (0x2804, 0x4, 4), (0x281C, 0x4, 2), (0x2828, 0x4, 2), (0x2900, 0x40, 8),
  (0x2904, 0x40, 8), (0x2908, 0x40, 8)]

/-- Registers of the types RO and ROS alone: first address, stride, number. -/
def roRows1 : List (Nat × Nat × Nat) := [
  (0x290C, 0x40, 8), (0x2910, 0x40, 8), (0x2914, 0x40, 8), (0x2918, 0x40, 8), (0x291C, 0x40, 8), (0x2920, 0x40, 8),
  (0x2924, 0x40, 8), (0x2928, 0x40, 8), (0x292C, 0x40, 8), (0x2930, 0x40, 8), (0x2934, 0x40, 8), (0x2938, 0x40, 8),
  (0x293C, 0x40, 8), (0x2B00, 0x4, 2), (0x2B10, 0x4, 24), (0x2B74, 0x4, 4), (0x2BC0, 0x4, 9), (0x2C00, 0x10, 32),
  (0x2C04, 0x10, 32), (0x2C08, 0x10, 32), (0x2C0C, 0x10, 32), (0x2E00, 0x8, 64), (0x2E04, 0x8, 64), (0x3000, 0x4, 1),
  (0x3008, 0x4, 13), (0x3400, 0x4, 1), (0x3410, 0x10, 2), (0x3414, 0x10, 2), (0x3418, 0x10, 2), (0x341C, 0x10, 2),
  (0x3430, 0x4, 2), (0x3440, 0x4, 4), (0x3454, 0x4, 2), (0x3504, 0x4, 4), (0x351C, 0x4, 2), (0x3530, 0x10, 3),
  (0x3534, 0x10, 3), (0x3538, 0x10, 3), (0x3800, 0x4, 1), (0x3808, 0x4, 1), (0x3814, 0x20, 4), (0x3818, 0x20, 4),
  (0x381C, 0x20, 4)]

/-- Registers of the types RO and ROS alone: first address, stride, number. -/
def roRows2 : List (Nat × Nat × Nat) := [
  (0x3820, 0x20, 4), (0x3824, 0x20, 4), (0x382C, 0x20, 4), (0x3890, 0x4, 4), (0x3904, 0x4, 2), (0x3910, 0x4, 16),
  (0x3984, 0x4, 1), (0x3C04, 0x4, 4), (0x3C24, 0x4, 4), (0x3C50, 0x4, 3), (0x3C60, 0x4, 6), (0x3C80, 0x4, 4),
  (0x3CA0, 0x4, 1), (0x3CC0, 0x4, 9), (0x3E00, 0x4, 11), (0x3E30, 0x4, 2), (0x3E3C, 0x4, 1), (0x3E44, 0x4, 1),
  (0x3E4C, 0x4, 4), (0x3E60, 0x4, 12), (0x3EA0, 0x4, 12), (0x4000, 0x40, 96), (0x4008, 0x40, 96), (0x400C, 0x40, 96),
  (0x4010, 0x40, 96), (0x4014, 0x40, 96), (0x4018, 0x40, 96), (0x4024, 0x40, 96), (0x4028, 0x40, 96),
  (0x402C, 0x40, 96), (0x5800, 0x40, 96), (0x580C, 0x40, 96), (0x5810, 0x40, 96), (0x5814, 0x40, 96),
  (0x5818, 0x40, 96), (0x581C, 0x40, 96), (0x5820, 0x40, 96), (0x5824, 0x40, 96), (0x582C, 0x40, 96),
  (0x5830, 0x40, 96), (0x7004, 0x4, 9), (0x7030, 0x4, 18)]

/-- Every register that has no writable field. -/
def roRows : List (Nat × Nat × Nat) := roRows0 ++ roRows1 ++ roRows2

/-- An address lies in a family of registers. -/
def inFamily (lo stride n addr : Nat) : Bool :=
  decide (lo ≤ addr) && (addr - lo) % stride = 0 && decide ((addr - lo) / stride < n)

/-- The writable register at an address. -/
def regAt (addr : Nat) : Option RegRow := regRows.find? fun r => inFamily r.lo r.stride r.n addr

/-- The address holds a register of type RO or ROS. -/
def isReadOnly (addr : Nat) : Bool := roRows.any fun r => inFamily r.1 r.2.1 r.2.2 addr

/-- The address is neither reserved nor unaligned (R6). -/
def isRegister (addr : Nat) : Bool := (regAt addr).isSome || isReadOnly addr

/-- The registers that R47 makes local to each module. -/
def isLocal (addr : Nat) : Bool :=
  (decide (0x3000 ≤ addr) && decide (addr < 0x3400)) || (decide (0x3E00 ≤ addr) && decide (addr < 0x4000)) ||
  (decide (0x0200 ≤ addr) && decide (addr < 0x0380)) || (decide (0x0480 ≤ addr) && decide (addr < 0x0800)) ||
  addr = 0x0138 || (decide (0x7000 ≤ addr) && decide (addr < 0x7080))

/-- Whether a row of R450 marks a role. -/
def rowAllows (row : Nat) (src : Source) (role : Role) : Bool :=
  match row with
  | 1 | 19 => true
  | 2 | 5 | 12 | 15 | 20 => role ≠ .nobody
  | 3 | 10 => role = .owner || role = .operator
  | 4 | 22 => role = .owner
  | 6 | 7 => role = .owner || role = .integrator || role = .operator || role = .vendor
  | 8 | 13 | 14 => role = .owner || role = .integrator || role = .vendor
  | 9 => role = .owner || role = .integrator || role = .service || role = .vendor
  | 11 => role = .owner || role = .operator || role = .service || role = .vendor
  | 16 => role = .owner || role = .service || role = .vendor
  | 21 => role = .owner || role = .integrator || role = .service || role = .vendor
  | 23 => src = .dbg
  | _ => false

/-- The rows served in SAFEHOLD (R452); row 20 as R453 needs it for an unlock (log entry 50). -/
def safeRow (row : Nat) : Bool := decide (row ≤ 5) || decide (15 ≤ row)

/-- The row of a read. -/
def readRow (addr : Nat) : Nat :=
  if (0x3E00 ≤ addr ∧ addr < 0x4000) ∨ addr = 0x100 ∨ addr = 0x104 then 1
  else if (0x2C00 ≤ addr ∧ addr < 0x2E00) ∨ (0x2B10 ≤ addr ∧ addr < 0x2B70) ∨ (0x2BC0 ≤ addr ∧ addr < 0x2BE4) then 3
  else 2

/-- R451: a write is permitted: bit by bit for a register of type WO, as a whole for another. -/
def RegRow.allows (r : RegRow) (ok : Nat → Bool) (w : Word) : Bool :=
  if r.wo ≠ 0 ∧ r.rw = 0 ∧ r.rwe = 0 then
    (List.range 32).all fun i => !(bit w i && r.wo.testBit i) || r.rows.any fun p => p.1.testBit i && ok p.2
  else r.rows.any fun p => ok p.2

/-- R455: what the debug port reads and writes while it is CLOSED. -/
def closedAllows : Access → Bool
  | .rd a => a = 0x3E00 || a = 0x3E04 || a = 0x3E08 || a = 0x3E0C || a = 0x3E44 || (decide (0x3EC0 ≤ a) && decide (a < 0x3ED0))
  | .wr a w => if a = 0x3E40 then !bit w 1 && !bit w 2 else a = 0x3E38 || (decide (0x3F00 ≤ a) && decide (a < 0x4000))

/-- R450 to R452, R455: an access is permitted. -/
def Core.permits (k : Core) (src : Source) (role : Role) (a : Access) : Bool :=
  let ok := fun row => rowAllows row src role && (k.pwr.mode ≠ .safehold || safeRow row)
  let free : Bool := match a with
    | .rd addr => !isRegister addr
    | .wr addr _ => (regAt addr).isNone
  src = .dp || free || (if src = .dbg ∧ k.sec.debug = 0 then closedAllows a else match a with
    | .rd addr => ok (readRow addr)
    | .wr addr w => match regAt addr with
      | some r => r.allows ok w
      | none => true)

end Sys2Proof.Machine
end

