-- ==== Sys2Proof/Machine/Access.lean ====
section
/-! DEFINITION. Register transactions (spec/02 R34 to R45, spec/16 R451): acceptance, accesses, the close with its outcome, staging; what
a read returns and what a write does, by block. -/

namespace Sys2Proof.Machine

open Sys2Proof

/-! Reads and writes by block (R540). -/

/-- A register of a block as the core `k` was poured; RW registers and capture banks come from the live core (R7, R379). -/
def readBlock (k live : Core) (src : Source) (role : Role) (addr : Nat) : Word :=
  if addr < 0x0100 then readSys k addr
  else if addr < 0x0200 then readEpc k addr
  else if addr < 0x0300 then readPwr k addr
  else if addr < 0x0400 then readMgt k role addr
  else if addr < 0x0480 then readCst k addr
  else if addr < 0x0800 then readUpd k live src addr
  else if 0x3E00 ≤ addr ∧ addr < 0x4000 then readSec k addr
  else if !k.epc.casting then 0
  else if addr < 0x0A00 then readAsm k addr
  else if addr < 0x0C00 then readSlv k addr
  else if addr < 0x1000 then readPln k addr
  else if addr < 0x2000 then readLpe k live addr
  else if addr < 0x2400 then readLgc k addr
  else if addr < 0x2800 then readFan k addr
  else if 0x2E00 ≤ addr ∧ addr < 0x3000 then readHeat k ((addr - 0x2E00) / 8) ((addr - 0x2E00) % 8)
  else if 0x2900 ≤ addr ∧ addr < 0x2B00 then readGroup k ((addr - 0x2900) / 0x40) ((addr - 0x2900) % 0x40)
  else if addr < 0x3000 then readNrg k addr
  else if addr < 0x3400 then readPar k addr
  else if addr < 0x3500 then readEth k addr
  else if addr < 0x3800 then readPtp k live src addr
  else if addr < 0x3C00 then readCan k addr
  else if addr < 0x3E00 then readClk k live src addr
  else if addr < 0x5800 then readChan k live ((addr - 0x4000) / 0x40) ((addr - 0x4000) % 0x40)
  else if addr < 0x7000 then readChanCal k ((addr - 0x5800) / 0x40) ((addr - 0x5800) % 0x40)
  else readFchGlobal k (addr - 0x7000)

/-- A register as a transaction reads it: 0 at a reserved or unaligned address (R6) and from a register of WO fields. -/
def readReg (k live : Core) (src : Source) (role : Role) (addr : Nat) : Word :=
  match regAt addr with
  | some r => if r.rw = 0 ∧ r.rwe = 0 ∧ r.w1c = 0 then 0 else readBlock k live src role addr
  | none => if isReadOnly addr then readBlock k live src role addr else 0

/-- A staged write at its commit, or a W1C write at its access (R37, R42). -/
def State.applyWrite (s : State) (src : Source) (role : Role) (session addr : Nat) (w : Word) : State :=
  if addr < 0x0100 then s.commitSys addr w
  else if addr < 0x0200 then s.commitEpc addr w
  else if addr < 0x0300 then s.commitPwr src addr w
  else if addr < 0x0400 then s.commitMgt addr w
  else if addr < 0x0480 then s
  else if addr < 0x0800 then s.commitUpd src role session addr w
  else if addr < 0x0A00 then s.commitAsm addr w
  else if addr < 0x0C00 then s.commitSlv addr w
  else if addr < 0x1000 then s.commitPln src addr w
  else if addr < 0x2000 then s.commitLpe addr w
  else if addr < 0x2400 then s.commitLgc src role addr w
  else if addr < 0x2800 then s.commitFan src addr w
  else if addr < 0x3000 then s.commitNrg addr w
  else if addr < 0x3400 then s.commitPar src addr w
  else if addr < 0x3500 then s.commitEth addr w
  else if addr < 0x3800 then s.commitPtp src addr w
  else if addr < 0x3C00 then s.commitCan src addr w
  else if addr < 0x3E00 then s.commitClk src addr w
  else if addr < 0x4000 then s.commitSec src role session addr w
  else s.commitFch addr w

/-- The immediate part of a write outside RST_: RW registers and commands that act at their access (R7). -/
def State.immediate (s : State) (src : Source) (txn addr : Nat) (w : Word) : State :=
  if addr < 0x2000 then s.immediateLpe src addr w
  else if addr = 0x3528 then (if bit w 0 then s.ptpCapture src txn else s)
  else if addr = 0x3C20 then (if bit w 0 then s.clkCapture src txn else s)
  else s.immediateFch src addr w

/-- The rules of a staged write (R39) against the poured core `k`; `ws` are the writes of its transaction. -/
def State.writeOk (s : State) (k : Core) (src : Source) (ws : List (Nat × Word)) (addr : Nat) (w : Word) : Bool :=
  let at_ : State := { s with live := k }
  if addr < 0x0300 then checkPwr k at_.holdsClaim ws addr w
  else if addr < 0x0400 then checkMgt addr w
  else if addr < 0x0800 then checkUpd addr w
  else if addr < 0x0A00 then checkAsm k ws addr w
  else if addr < 0x0C00 then true
  else if addr < 0x1000 then checkPln k addr w
  else if addr < 0x2000 then at_.checkLpe addr w
  else if addr < 0x2400 then
    (if 0x2060 ≤ addr ∧ addr < 0x20A0 then at_.pairOk ws ((addr - 0x2060) / 8) else true)
  else if addr < 0x2800 then true
  else if addr < 0x3000 then at_.checkNrg addr w
  else if addr < 0x3500 then true
  else if addr < 0x3800 then checkPtp k ws addr w
  else if addr < 0x3C00 then checkCan k ws addr w
  else if addr < 0x3E00 then checkClk k ws addr w
  else if addr < 0x4000 then checkSec k addr src w
  else checkFch addr w

/-! Transactions. -/

/-- The bank of an epoch that a transaction reads (R34, R35). -/
def State.bankOf (s : State) (epoch : Nat) : Core :=
  match s.pub with
  | some b => if b.epoch = epoch then b.core else match s.prev with
    | some p => p.core
    | none => b.core
  | none => s.live

/-- The role of the debug port (R455). -/
def Sec.dbgRole (x : Sec) : Role :=
  if x.debug = 0 then .nobody else if x.lifecycle = .manufacture ∨ x.lifecycle = .returned then .vendor else .service

/-- R433: the role exists. -/
def Sec.roleExists (x : Sec) : Role → Bool
  | .nobody => true
  | .vendor => x.lifecycle = .manufacture || x.lifecycle = .returned
  | _ => (x.lifecycle = .provisioned || x.lifecycle = .deployed) && x.ownerOpen

/-- The writes that a transaction stages. -/
def stagedPart (addr : Nat) (w : Word) : Bool :=
  match regAt addr with
  | some r => r.rwe ≠ 0 || (r.wo ≠ 0 && r.imm = 0) || (w.toNat &&& (r.wo - r.imm)) ≠ 0
  | none => false

/-- One access of an open transaction: a read returns the value of its epoch; a write acts, is ignored and counted, or is kept for the
close (R7, R34, R37, R39, R42). -/
def State.access (s : State) (t : Txn) (a : Access) : State × Txn :=
  let t := { t with accesses := t.accesses + 1, lastAccess := s.now }
  match a with
  | .rd addr => (s, { t with values := t.values ++ [readReg (s.bankOf t.readEpoch) s.live t.src t.role addr] })
  | .wr addr w =>
    match regAt addr with
    | none => (s.werr (addr % 65536) t.src (if isReadOnly addr then .readOnly else .reserved), t)
    | some r =>
      if addr = 0x284 then
        if field w 1 0 = 3 then (s.werr addr t.src .value, t)
        else (s, { t with moduleReset := max t.moduleReset (field w 1 0) })
      else if addr = 0x288 then
        (s, { t with blockBits := t.blockBits ||| field w 5 0, blockWrites := t.blockWrites + (decide (field w 5 0 ≠ 0)).toNat })
      else
        let s := if r.w1c = 0 then s else s.applyWrite t.src t.role 0 addr w
        let now_ : Bool := r.rw ≠ 0 || (w.toNat &&& r.imm) ≠ 0
        let s := if !now_ then s else
          let s' := s.immediate t.src t.id addr w
          if s'.paired && s'.live.par.gate && s'.linkRuns && s'.live.sys.werr = s.live.sys.werr then
            s'.send (.coupling 6 [srcCode t.src, addr, w.toNat])
          else s'
        (s, if stagedPart addr w then { t with writes := t.writes ++ [(addr, w)] } else t)

/-- An answer in a session is kept for a request that repeats its CTR (R383). -/
def keepReply (xs : List Session) (session : Nat) (m : OutMsg) : List Session :=
  xs.map fun x => if x.id = session then { x with lastReply := some m } else x

/-- The answer of a transaction (R44, R45), kept where it is one of a session; a response of the management port is counted. -/
def State.answer (s : State) (t : Txn) (o : TxnOutcome) (commit : Option Nat) : State :=
  let values := if o = .ok ∨ o = .partialDrop ∨ o = .full then t.values else []
  let m := OutMsg.txn t.src t.reply o t.dropped t.readEpoch commit values
  let s := s.send m
  match t.reply with
  | .none => s
  | .yra n _ => s.modEth fun e => { e with sessions := keepReply e.sessions n m }
  | .mgt n _ => s.modMgt fun x => { x with sessions := keepReply x.sessions n m, tx := satAdd 16 x.tx 1 }

/-- Resets that the transaction asked for (R479, R484, R485): 1 ms from now. -/
def State.requestResets (s : State) (module blocks detail : Nat) : State :=
  let due := s.now + 1000000
  let s := if module = 0 then s else s.modPwr fun p => { p with pendModule := match p.pendModule with
    | some r => some { r with module := max r.module module }
    | none => some { module := module, detail := detail, due := due } }
  if blocks = 0 then s else s.modPwr fun p => { p with pendBlocks := p.pendBlocks ++ [{ blocks := blocks, due := due }] }

/-- The staging area for external sources (R38). -/
def stagingMax : Nat := 2048

/-- A transaction closes: capacity, the rules of each write, staging, the answer (R37 to R39, R44). Capacity counts every write of the
transaction, those that R39 then drops too (log entry 77). -/
def State.closeTxn (s : State) (t : Txn) : State :=
  let s := { s with txns := s.txns.filter fun x => x.id ≠ t.id }
  let both : Bool := t.moduleReset ≠ 0 && t.blockBits ≠ 0
  let s := if both then (List.range t.blockWrites).foldl (fun (s : State) _ => s.werr 0x288 t.src .value) s else s
  let t := if both then { t with dropped := t.dropped + t.blockWrites, blockBits := 0 } else t
  let s := s.requestResets t.moduleReset t.blockBits 0
  if stagingMax < (s.staged.filter fun x => x.src ≠ .dp && !x.mirror).length + t.writes.length ∧ t.writes ≠ [] then
    (s.modEpc fun e => { e with stgFull := sat32 e.stgFull }).answer t .full none
  else
    let k := s.bankOf t.readEpoch
    let bad := t.writes.filter fun x => !s.writeOk k t.src t.writes x.1 x.2
    let good := t.writes.filter fun x => s.writeOk k t.src t.writes x.1 x.2
    let s := bad.foldl (fun (s : State) x => s.werr x.1 t.src .value) s
    let t := { t with dropped := t.dropped + bad.length }
    let new := good.map fun x => ({ txn := t.id, src := t.src, role := t.role, addr := x.1, val := x.2, readEpoch := t.readEpoch,
                                    closedAt := s.now, session := t.session } : Staged)
    let s := { s with staged := s.staged ++ new }
    s.answer t (if t.dropped = 0 then .ok else .partialDrop) (if new.isEmpty then none else some (s.live.epc.epoch + 1))

/-- A transaction with nothing executed (R451). -/
def emptyTxn (s : State) (src : Source) (role : Role) (session : Nat) (reply : ReplyTo) : Txn :=
  { id := s.nextTxn, src := src, role := role, readEpoch := (s.pub.map Bank.epoch).getD 0, acceptedAt := s.now, lastAccess := s.now
    closeAt := none, reply := reply, accesses := 0, values := [], writes := [], dropped := 0, session := session }

/-- A write to a mirrored register (R47). -/
def mirroredWrite : Access → Bool
  | .wr addr _ => (regAt addr).isSome && !isLocal addr
  | .rd _ => false

/-- The outcome that ends a transaction before any of its accesses acts, in the order of R451. -/
def State.refuses (s : State) (src : Source) (role : Role) (as : List Access) : Option TxnOutcome :=
  if 1024 < as.length ∧ src ≠ .dp then some .tooLong
  else if (as.any fun a => !s.live.permits src role a) ∨ (src = .dbg ∧ s.live.sec.locked) then some .denied
  else if as.any mirroredWrite ∧ !s.isActive then some .notActive
  else none

/-- A transaction that ends with nothing executed; a DENIED one is counted (R451). -/
def State.refuse (s : State) (t : Txn) (o : TxnOutcome) : State :=
  (if o = .denied then s.modSec fun x => { x with denied := satAdd 8 x.denied 1 } else s).answer t o none

/-- The accesses of a transaction act in their order (R34, R37). -/
def State.accessAll (s : State) (t : Txn) (as : List Access) : State × Txn :=
  as.foldl (fun (p : State × Txn) a => p.1.access p.2 a) (s, t)

/-- A transaction of a source with all its accesses (R34 to R39, R451): it is answered at its close, `dur` ns from now. -/
def State.transact (s : State) (src : Source) (role : Role) (session dur : Nat) (reply : ReplyTo) (as : List Access) : State :=
  let t := emptyTxn s src role session reply
  let s := { s with nextTxn := s.nextTxn + 1 }
  if s.pub.isNone then s.answer t .notServed none
  else match s.refuses src role as with
    | some o => s.refuse t o
    | none =>
      let r := s.accessAll t as
      if dur = 0 then r.1.closeTxn r.2
      else { r.1 with txns := r.1.txns ++ [{ r.2 with closeAt := some (s.now + dur) }] }

/-- The transactions whose time has come close, in the fixed sequence of their sources (R41). -/
def State.closeDue (s : State) : State :=
  let due := s.txns.filter fun t => (t.closeAt.map fun c => decide (c ≤ s.now)).getD false
  [Source.dp, .yra, .yml, .dbg].foldl (fun (s : State) src => (due.filter fun t => t.src = src).foldl (fun (s : State) t => s.closeTxn t) s) s

/-- The source can be heard at all: YRA needs a run with a casting, a link and the control processor (R368, R452), YML and the
debug port need supply. -/
def State.hears (s : State) (src : Source) : Bool :=
  match src with
  | .dp => true
  | .yra => s.live.epc.casting && s.pub.isSome && (s.portUp 0 || s.portUp 1) && s.live.pwr.cpRunning
  | _ => s.live.pwr.powered && !s.live.pwr.inReset

/-- The role of a requester: the debug port's is that of its level; a session's role exists, and under LOCK is OWNER (R433, R434,
R452, R455). -/
def State.whoRole (s : State) (w : Who) : Option Role :=
  match w.src with
  | .dbg => some s.live.sec.dbgRole
  | .yra => if w.role = .nobody ∨ !s.live.sec.roleExists w.role ∨ (s.live.sec.locked ∧ w.role ≠ .owner) then none else some w.role
  | .yml => if !s.live.sec.roleExists w.role ∨ (s.live.sec.locked ∧ w.role ≠ .owner ∧ w.role ≠ .nobody) then none else some w.role
  | .dp => some .nobody

/-- A burst of the debug port that is open takes further accesses (R454). -/
def State.burst? (s : State) : Option Txn := s.txns.find? fun t => t.src = .dbg && t.closeAt.isNone

/-- Accesses in the open burst of a number (R454). A burst is one transaction, and one that ends TOO_LONG, DENIED or NOT_ACTIVE has
executed nothing (R45), so its accesses are kept and act at its close (log entry 75); one past the limit of R36 is enough. -/
def State.burstAll (s : State) (n : Nat) (as : List Access) : State :=
  { s with txns := s.txns.map fun x =>
      if x.id = n then { x with held := (x.held ++ as).take 1025, lastAccess := s.now } else x }

/-- The burst closes (R36, R451, R454): it is refused whole, or its accesses act and it closes as any transaction. -/
def State.closeBurst (s : State) (t : Txn) : State :=
  match s.refuses .dbg t.role t.held with
  | some o => { s with txns := s.txns.filter fun x => x.id ≠ t.id }.refuse t o
  | none => let r := s.accessAll t t.held; r.1.closeTxn r.2

/-- A requester's accesses: into the open burst of the debug port, or a transaction of their own. -/
def State.submit (s : State) (w : Who) (as : List Access) : State :=
  if !s.hears w.src then s
  else match s.whoRole w with
    | none => s
    | some role =>
      match w.src, s.burst? with
      | .dbg, some t => (s.modSec fun x => { x with lastBurst := s.now }).burstAll t.id as
      | .dbg, none => (s.modSec fun x => { x with lastBurst := s.now }).transact .dbg role 0 w.dur .none as
      | src, _ => s.transact src role w.session w.dur .none as

end Sys2Proof.Machine
end

