-- ==== Sys2Proof/Machine/AccessCmds.lean ====
section
/-! DEFINITION. The commands that are register writes, each one transaction of its requester (R37), and the bursts of the debug port
(R454). What the write then does at its commit boundary, or at once, stands with its block. -/

namespace Sys2Proof.Machine

open Sys2Proof

/-- One write by a requester. -/
def State.writeBy (s : State) (w : Who) (addr : Nat) (v : Word) : Host.Outcome State Fault Refusal := .next (s.submit w [.wr addr v])

/-- Words written to consecutive registers. -/
def writesAt (addr : Nat) (ws : List Word) : List Access := ws.zipIdx.map fun p => .wr (addr + 4 * p.2) p.1

/-- REGISTER_WRITE (R37). -/
def execRegisterWrite (w : Who) (addr : Nat) (v : Word) (s : State) : Host.Outcome State Fault Refusal := s.writeBy w addr v

/-! Statistics. -/

/-- EPC_CLR_STATS. -/
def execEpcClrStats (w : Who) (s : State) : Host.Outcome State Fault Refusal := s.writeBy w 0x0138 1
/-- SYS_CLR_STATS (R543). -/
def execSysClrStats (w : Who) (s : State) : Host.Outcome State Fault Refusal := s.writeBy w 0x0028 1
/-- SLV_CLR_STATS. -/
def execSlvClrStats (w : Who) (s : State) : Host.Outcome State Fault Refusal := s.writeBy w 0x0A38 1
/-- PLN_CLR_STATS. -/
def execPlnClrStats (w : Who) (s : State) : Host.Outcome State Fault Refusal := s.writeBy w 0x0C34 4
/-- LPE_CLR_STATS. -/
def execLpeClrStats (w : Who) (s : State) : Host.Outcome State Fault Refusal := s.writeBy w 0x1018 1
/-- LGC_CLR_STATS. -/
def execLgcClrStats (w : Who) (s : State) : Host.Outcome State Fault Refusal := s.writeBy w 0x2034 1
/-- FCH_CLR_STATS. -/
def execFchClrStats (w : Who) (s : State) : Host.Outcome State Fault Refusal := s.writeBy w 0x7028 1
/-- FAN_CLR_STATS. -/
def execFanClrStats (w : Who) (s : State) : Host.Outcome State Fault Refusal := s.writeBy w 0x2410 1
/-- NRG_CLR_STATS. -/
def execNrgClrStats (w : Who) (s : State) : Host.Outcome State Fault Refusal := s.writeBy w 0x2818 1
/-- PAR_CLR_STATS. -/
def execParClrStats (w : Who) (s : State) : Host.Outcome State Fault Refusal := s.writeBy w 0x303C 8
/-- ETH_CLR_STATS. -/
def execEthClrStats (w : Who) (s : State) : Host.Outcome State Fault Refusal := s.writeBy w 0x345C 1
/-- CAN_CLR_STATS. -/
def execCanClrStats (w : Who) (s : State) : Host.Outcome State Fault Refusal := s.writeBy w 0x3804 1
/-- MGT_CLR_STATS. -/
def execMgtClrStats (w : Who) (s : State) : Host.Outcome State Fault Refusal := s.writeBy w 0x0314 1

/-! The assembler and the solver (R108, R120 to R124, R156). ASM_CTRL also carries IDENT_HOLD, which every write of it sets. -/

/-- The value written to ASM_CTRL. -/
def asmCtrl (hold : Bool) (cmd : Nat) : Word := pack [(0, 4, cmd), (1, 1, hold.toNat)]

/-- SERIES_SUBMIT (R108): the words of a series record from the start of the window, with SUBMIT in the same transaction. -/
def execSeriesSubmit (w : Who) (words : List Word) (s : State) : Host.Outcome State Fault Refusal :=
  .next (s.submit w (writesAt 0x0900 (words.take 64) ++ [.wr 0x0824 1]))
/-- REFRESH_ALL (R121). -/
def execRefreshAll (w : Who) (hold : Bool) (s : State) : Host.Outcome State Fault Refusal := s.writeBy w 0x0834 (asmCtrl hold 1)
/-- IDENT_HOLD (R120). -/
def execIdentHold (w : Who) (hold : Bool) (s : State) : Host.Outcome State Fault Refusal := s.writeBy w 0x0834 (asmCtrl hold 0)
/-- ASM_CLR_STATS (R116). -/
def execAsmClrStats (w : Who) (hold : Bool) (s : State) : Host.Outcome State Fault Refusal := s.writeBy w 0x0834 (asmCtrl hold 4)
/-- ASM_RELEASE (R124): of the selected substation. -/
def execAsmRelease (w : Who) (hold : Bool) (s : State) : Host.Outcome State Fault Refusal := s.writeBy w 0x0834 (asmCtrl hold 8)
/-- PARAM_OVERRIDE (R124): of the selected parameter. -/
def execParamOverride (w : Who) (v : Word) (s : State) : Host.Outcome State Fault Refusal := s.writeBy w 0x0844 v
/-- COLD_NEXT (R156). -/
def execColdNext (w : Who) (s : State) : Host.Outcome State Fault Refusal := s.writeBy w 0x0A38 2
/-- ISL_CMD_ENTER (R192). -/
def execIslCmdEnter (w : Who) (s : State) : Host.Outcome State Fault Refusal := s.writeBy w 0x0C34 1
/-- ISL_CMD_LEAVE (R192). -/
def execIslCmdLeave (w : Who) (s : State) : Host.Outcome State Fault Refusal := s.writeBy w 0x0C34 2

/-! The loop engine (R211 to R220). -/

/-- SETPOINT_WRITE (R211): a slot from 0 to 191. -/
def execSetpointWrite (w : Who) (n : Nat) (v : Word) (s : State) : Host.Outcome State Fault Refusal :=
  if n < 192 then s.writeBy w (0x1400 + n * 0x10) v else .next s
/-- HAND (R214): the selected slot. -/
def execLpeHand (w : Who) (s : State) : Host.Outcome State Fault Refusal := s.writeBy w 0x1028 1
/-- AUTO (R214). -/
def execLpeAuto (w : Who) (s : State) : Host.Outcome State Fault Refusal := s.writeBy w 0x1028 2
/-- AUTO_ALL (R214). -/
def execLpeAutoAll (w : Who) (s : State) : Host.Outcome State Fault Refusal := s.writeBy w 0x1028 3
/-- LPE_HAND_VALUE (R214). -/
def execLpeHandValue (w : Who) (v : Word) (s : State) : Host.Outcome State Fault Refusal := s.writeBy w 0x1024 v
/-- ARM (R215). -/
def execInjArm (w : Who) (s : State) : Host.Outcome State Fault Refusal := s.writeBy w 0x104C 1
/-- INJ_ABORT (R220). -/
def execInjAbort (w : Who) (s : State) : Host.Outcome State Fault Refusal := s.writeBy w 0x104C 2

/-! The logic engine (R228, R235, R246). -/

/-- RESTART (R228). -/
def execLgcRestart (w : Who) (s : State) : Host.Outcome State Fault Refusal := s.writeBy w 0x2034 2
/-- FORCE_SET (R235). -/
def execForceSet (w : Who) (tag : Nat) (v : Word) (s : State) : Host.Outcome State Fault Refusal :=
  .next (s.submit w [.wr 0x2040 (word tag), .wr 0x2044 v, .wr 0x2048 1])
/-- FORCE_REMOVE (R235). -/
def execForceRemove (w : Who) (tag : Nat) (s : State) : Host.Outcome State Fault Refusal :=
  .next (s.submit w [.wr 0x2040 (word tag), .wr 0x2048 2])
/-- FORCE_REMOVE_ALL (R235). -/
def execForceRemoveAll (w : Who) (s : State) : Host.Outcome State Fault Refusal := s.writeBy w 0x2048 3
/-- HOST_TAG_WRITE (R246): pair `k`, 0 to 7. -/
def execHostTagWrite (w : Who) (k tag : Nat) (v : Word) (s : State) : Host.Outcome State Fault Refusal :=
  if k < 8 then .next (s.submit w [.wr (0x2060 + 8 * k) (word tag), .wr (0x2064 + 8 * k) v]) else .next s

/-! Field channels (R262 to R277), drivers, energy. -/

/-- A write to a register of channel `n`, 0 to 95. -/
def State.writeChan (s : State) (w : Who) (base n : Nat) (v : Word) : Host.Outcome State Fault Refusal :=
  if n < 96 then s.writeBy w (base + n * 0x40) v else .next s

/-- START (R262). -/
def execFchStart (w : Who) (n : Nat) (s : State) : Host.Outcome State Fault Refusal := s.writeChan w 0x4020 n 1
/-- URGENT (R262). -/
def execFchUrgent (w : Who) (n : Nat) (s : State) : Host.Outcome State Fault Refusal := s.writeChan w 0x4020 n 2
/-- FCH_HAND (R277). -/
def execFchHand (w : Who) (n : Nat) (s : State) : Host.Outcome State Fault Refusal := s.writeChan w 0x4020 n 4
/-- FCH_AUTO (R277). -/
def execFchAuto (w : Who) (n : Nat) (s : State) : Host.Outcome State Fault Refusal := s.writeChan w 0x4020 n 8
/-- FLT_RESET (R273). -/
def execFltReset (w : Who) (n : Nat) (s : State) : Host.Outcome State Fault Refusal := s.writeChan w 0x4020 n 16
/-- FCH_HAND_VALUE (R277). -/
def execFchHandValue (w : Who) (n : Nat) (v : Word) (s : State) : Host.Outcome State Fault Refusal := s.writeChan w 0x401C n v
/-- CAL_ZERO (R266). -/
def execCalZero (w : Who) (n : Nat) (s : State) : Host.Outcome State Fault Refusal := s.writeChan w 0x5828 n 1
/-- CAL_SPAN (R266). -/
def execCalSpan (w : Who) (n : Nat) (s : State) : Host.Outcome State Fault Refusal := s.writeChan w 0x5828 n 2
/-- CAL_ACCEPT (R266). -/
def execCalAccept (w : Who) (n : Nat) (s : State) : Host.Outcome State Fault Refusal := s.writeChan w 0x5828 n 4
/-- CAL_DISCARD (R266). -/
def execCalDiscard (w : Who) (n : Nat) (s : State) : Host.Outcome State Fault Refusal := s.writeChan w 0x5828 n 8
/-- CAL_FACTORY (R266). -/
def execCalFactory (w : Who) (n : Nat) (s : State) : Host.Outcome State Fault Refusal := s.writeChan w 0x5828 n 16
/-- FAN_RESTART (R293): bit d restarts driver d. -/
def execFanRestart (w : Who) (map : Word) (s : State) : Host.Outcome State Fault Refusal := s.writeBy w 0x2414 map
/-- CLEAR_GROUP (R323). -/
def execClearGroup (w : Who) (g confirm : Nat) (s : State) : Host.Outcome State Fault Refusal := s.writeBy w 0x2814 (clearWord 0 g confirm)
/-- CLEAR_METER (R323). -/
def execClearMeter (w : Who) (m confirm : Nat) (s : State) : Host.Outcome State Fault Refusal := s.writeBy w 0x2814 (clearWord 1 m confirm)
/-- CLEAR_ALL (R323). -/
def execClearAll (w : Who) (confirm : Nat) (s : State) : Host.Outcome State Fault Refusal := s.writeBy w 0x2814 (clearWord 2 0 confirm)
/-- UNS_ACK (R321). -/
def execUnsAck (w : Who) (s : State) : Host.Outcome State Fault Refusal := s.writeBy w 0x2818 2

/-! The pair (R352, R358, R360). -/

/-- SWITCH. -/
def execParSwitch (w : Who) (s : State) : Host.Outcome State Fault Refusal := s.writeBy w 0x303C 1
/-- DIV_CLR. -/
def execDivClr (w : Who) (s : State) : Host.Outcome State Fault Refusal := s.writeBy w 0x303C 2
/-- SELFTEST. -/
def execParSelftest (w : Who) (s : State) : Host.Outcome State Fault Refusal := s.writeBy w 0x303C 4

/-! Network time and the calendar (R376 to R380, R417, R418, R428, R430). PTP_CTRL's writes set both SERVO_OFF fields. -/

/-- The value written to PTP_CTRL. -/
def ptpCtrl (off0 off1 clr : Bool) : Word := pack [(0, 1, off0.toNat), (1, 1, off1.toNat), (2, 1, clr.toNat)]

/-- ADDEND_WRITE (R376): slot 0 or 1. -/
def execAddendWrite (w : Who) (d : Nat) (v : Word) (s : State) : Host.Outcome State Fault Refusal :=
  if d < 2 then s.writeBy w (0x3514 + 4 * d) v else .next s
/-- SERVO_OFF (R376). -/
def execServoOff (w : Who) (off0 off1 : Bool) (s : State) : Host.Outcome State Fault Refusal := s.writeBy w 0x3524 (ptpCtrl off0 off1 false)
/-- PTP_CLR_STATS (R378). -/
def execPtpClrStats (w : Who) (off0 off1 : Bool) (s : State) : Host.Outcome State Fault Refusal := s.writeBy w 0x3524 (ptpCtrl off0 off1 true)
/-- PTP_CAPTURE (R379). -/
def execPtpCapture (w : Who) (s : State) : Host.Outcome State Fault Refusal := s.writeBy w 0x3528 1
/-- PTP_LOAD_ARM (R380). -/
def execPtpLoadArm (w : Who) (clock sec : Nat) (s : State) : Host.Outcome State Fault Refusal :=
  .next (s.submit w [.wr 0x3560 (lo32 sec), .wr 0x3564 (hi32 sec), .wr 0x356C (pack [(0, 1, clock), (1, 1, 1)])])
/-- PTP_LOAD_STEP (R380). -/
def execPtpLoadStep (w : Who) (clock sec ns : Nat) (s : State) : Host.Outcome State Fault Refusal :=
  .next (s.submit w [.wr 0x3560 (lo32 sec), .wr 0x3564 (hi32 sec), .wr 0x3568 (word ns), .wr 0x356C (pack [(0, 1, clock), (2, 1, 1)])])
/-- CLK_CAPTURE (R417). -/
def execClkCapture (w : Who) (s : State) : Host.Outcome State Fault Refusal := s.writeBy w 0x3C20 1
/-- CLK_LOAD_ARM (R418). -/
def execClkLoadArm (w : Who) (sec : Nat) (s : State) : Host.Outcome State Fault Refusal :=
  .next (s.submit w [.wr 0x3C40 (lo32 sec), .wr 0x3C44 (hi32 sec), .wr 0x3C4C 1])
/-- CLK_LOAD_STEP (R418). -/
def execClkLoadStep (w : Who) (sec sub : Nat) (s : State) : Host.Outcome State Fault Refusal :=
  .next (s.submit w [.wr 0x3C40 (lo32 sec), .wr 0x3C44 (hi32 sec), .wr 0x3C48 (word sub), .wr 0x3C4C 2])
/-- ALARM_ARM (R430): alarm 0 to 15. -/
def execAlarmArm (w : Who) (n : Nat) (s : State) : Host.Outcome State Fault Refusal :=
  if n < 16 then s.writeBy w 0x3C9C (word (2 ^ n)) else .next s
/-- ALARM_DISARM (R430). -/
def execAlarmDisarm (w : Who) (n : Nat) (s : State) : Host.Outcome State Fault Refusal :=
  if n < 16 then s.writeBy w 0x3C9C (word (2 ^ (16 + n))) else .next s
/-- ALARM_FIRED_CLEAR (R428). -/
def execAlarmFiredClear (w : Who) (map : Word) (s : State) : Host.Outcome State Fault Refusal := s.writeBy w 0x3C90 map

/-! CAN (R401 to R407). -/

/-- SEND (R401): the selected mailbox. -/
def execCanSend (w : Who) (s : State) : Host.Outcome State Fault Refusal := s.writeBy w 0x3988 1
/-- CANCEL (R403). -/
def execCanCancel (w : Who) (s : State) : Host.Outcome State Fault Refusal := s.writeBy w 0x3988 2
/-- CAN_RELEASE (R406): the selected object. -/
def execCanRelease (w : Who) (s : State) : Host.Outcome State Fault Refusal := s.writeBy w 0x390C 1
/-- SLEEP (R407): controller 0 to 3. -/
def execCanSleep (w : Who) (c : Nat) (s : State) : Host.Outcome State Fault Refusal :=
  if c < 4 then s.writeBy w (0x3828 + c * 0x20) 1 else .next s
/-- WAKE (R407). -/
def execCanWake (w : Who) (c : Nat) (s : State) : Host.Outcome State Fault Refusal :=
  if c < 4 then s.writeBy w (0x3828 + c * 0x20) 2 else .next s

/-! Signed commands (R446, R447): the command's words and EXEC in one transaction. -/

/-- The bytes of a signed command. -/
def signedBytes (code : Nat) (c : SignedCmd) : Bytes :=
  leBytes 4 0x4D435359 ++ leBytes 2 code ++ leBytes 2 c.body.length ++ leBytes 8 c.serial ++ leBytes 4 c.seq ++ leBytes 4 0 ++ c.body ++ c.sig

/-- A signed command submitted. -/
def State.submitSigned (s : State) (w : Who) (code : Nat) (c : SignedCmd) : Host.Outcome State Fault Refusal :=
  let b := signedBytes code c
  .next (s.submit w (writesAt 0x3F00 (((List.range ((b.length + 3) / 4)).map (wordAt b)).take 64) ++ [.wr 0x3E38 1]))

/-- PROVISION. -/
def execProvision (w : Who) (c : SignedCmd) (s : State) : Host.Outcome State Fault Refusal := s.submitSigned w 1 c
/-- ENROL. -/
def execEnrol (w : Who) (c : SignedCmd) (s : State) : Host.Outcome State Fault Refusal := s.submitSigned w 2 c
/-- ENROL_PUB. -/
def execEnrolPub (w : Who) (c : SignedCmd) (s : State) : Host.Outcome State Fault Refusal := s.submitSigned w 3 c
/-- REVOKE. -/
def execRevoke (w : Who) (c : SignedCmd) (s : State) : Host.Outcome State Fault Refusal := s.submitSigned w 4 c
/-- DEPLOY. -/
def execDeploy (w : Who) (c : SignedCmd) (s : State) : Host.Outcome State Fault Refusal := s.submitSigned w 5 c
/-- RETURN. -/
def execReturnModule (w : Who) (c : SignedCmd) (s : State) : Host.Outcome State Fault Refusal := s.submitSigned w 6 c
/-- SCRAP. -/
def execScrap (w : Who) (c : SignedCmd) (s : State) : Host.Outcome State Fault Refusal := s.submitSigned w 7 c
/-- SETTINGS. -/
def execSecSettings (w : Who) (c : SignedCmd) (s : State) : Host.Outcome State Fault Refusal := s.submitSigned w 8 c
/-- TAMPER_ACK. -/
def execTamperAck (w : Who) (c : SignedCmd) (s : State) : Host.Outcome State Fault Refusal := s.submitSigned w 9 c
/-- FORCE_CLAIM. -/
def execForceClaim (w : Who) (c : SignedCmd) (s : State) : Host.Outcome State Fault Refusal := s.submitSigned w 10 c
/-- DEBUG_UNLOCK. -/
def execDebugUnlock (w : Who) (c : SignedCmd) (s : State) : Host.Outcome State Fault Refusal := s.submitSigned w 11 c
/-- REQ (R456). -/
def execDbgReq (w : Who) (s : State) : Host.Outcome State Fault Refusal := s.writeBy w 0x3E40 1
/-- LOCK (R456). -/
def execDbgLock (w : Who) (s : State) : Host.Outcome State Fault Refusal := s.writeBy w 0x3E40 2
/-- OPEN_NEXT (R456). -/
def execDbgOpenNext (w : Who) (s : State) : Host.Outcome State Fault Refusal := s.writeBy w 0x3E40 4
/-- GO (R458): the challenge and GO in one transaction. -/
def execAttGo (w : Who) (chal : List Word) (s : State) : Host.Outcome State Fault Refusal :=
  .next (s.submit w (writesAt 0x3E90 (chal.take 4) ++ [.wr 0x3E48 1]))

/-! Power, resets, modes (R484, R485, R493, R494). -/

/-- RST_WARM. -/
def execRstWarm (w : Who) (s : State) : Host.Outcome State Fault Refusal := s.writeBy w 0x0284 1
/-- RST_COLD. -/
def execRstCold (w : Who) (s : State) : Host.Outcome State Fault Refusal := s.writeBy w 0x0284 2
/-- BLOCK_RESET_CP. -/
def execBlockResetCp (w : Who) (s : State) : Host.Outcome State Fault Refusal := s.writeBy w 0x0288 1
/-- BLOCK_RESET_SOLVER. -/
def execBlockResetSolver (w : Who) (s : State) : Host.Outcome State Fault Refusal := s.writeBy w 0x0288 2
/-- BLOCK_RESET_ASM. -/
def execBlockResetAsm (w : Who) (s : State) : Host.Outcome State Fault Refusal := s.writeBy w 0x0288 4
/-- BLOCK_RESET_ETH. -/
def execBlockResetEth (w : Who) (s : State) : Host.Outcome State Fault Refusal := s.writeBy w 0x0288 8
/-- BLOCK_RESET_CAN. -/
def execBlockResetCan (w : Who) (s : State) : Host.Outcome State Fault Refusal := s.writeBy w 0x0288 16
/-- BLOCK_RESET_MGT. -/
def execBlockResetMgt (w : Who) (s : State) : Host.Outcome State Fault Refusal := s.writeBy w 0x0288 32
/-- MODE_COMMISSION. -/
def execModeCommission (w : Who) (s : State) : Host.Outcome State Fault Refusal := s.writeBy w 0x0204 1
/-- MODE_RUN. -/
def execModeRun (w : Who) (s : State) : Host.Outcome State Fault Refusal := s.writeBy w 0x0204 2
/-- MODE_TUNE. -/
def execModeTune (w : Who) (s : State) : Host.Outcome State Fault Refusal := s.writeBy w 0x0204 3
/-- MODE_SAFEHOLD. -/
def execModeSafehold (w : Who) (s : State) : Host.Outcome State Fault Refusal := s.writeBy w 0x0204 4
/-- START_MODE. -/
def execStartMode (w : Who) (commission : Bool) (s : State) : Host.Outcome State Fault Refusal := s.writeBy w 0x0208 (word commission.toNat)

/-! Updates (R505 to R520). -/

/-- Stream bytes as window words at an offset, with a control bit. -/
def streamWrites (ofs ctrl : Nat) (words : List Word) : List Access :=
  [.wr 0x04C4 (word ofs)] ++ writesAt 0x0600 (words.take 128) ++ [.wr 0x04C8 (word ctrl)]

/-- OFFER (R506): the chunk at offset 0. -/
def execUpdOffer (w : Who) (words : List Word) (s : State) : Host.Outcome State Fault Refusal := .next (s.submit w (streamWrites 0 1 words))
/-- CHUNK (R505). -/
def execUpdChunk (w : Who) (ofs : Nat) (words : List Word) (s : State) : Host.Outcome State Fault Refusal := .next (s.submit w (streamWrites ofs 2 words))
/-- END (R510). -/
def execEndOffer (w : Who) (s : State) : Host.Outcome State Fault Refusal := s.writeBy w 0x04C8 4
/-- ABORT (R509). -/
def execUpdAbort (w : Who) (s : State) : Host.Outcome State Fault Refusal := s.writeBy w 0x04C8 8
/-- SWAP (R514). -/
def execUpdSwap (w : Who) (s : State) : Host.Outcome State Fault Refusal := s.writeBy w 0x04C8 16
/-- CONFIRM (R518). -/
def execUpdConfirm (w : Who) (s : State) : Host.Outcome State Fault Refusal := s.writeBy w 0x04C8 32
/-- REVERT (R519). -/
def execUpdRevert (w : Who) (s : State) : Host.Outcome State Fault Refusal := s.writeBy w 0x04C8 64
/-- FLOOR (R520). -/
def execUpdFloor (w : Who) (s : State) : Host.Outcome State Fault Refusal := s.writeBy w 0x04C8 128
/-- CLOSE_ALL (R531). -/
def execCloseAll (w : Who) (s : State) : Host.Outcome State Fault Refusal := s.writeBy w 0x0314 2

/-! Bursts (R454). -/

/-- BURST_OPEN (R454): a burst with the accesses that follow at once; one burst is open at a time. -/
def execBurstOpen (as : List Access) (s : State) : Host.Outcome State Fault Refusal :=
  if !s.hears .dbg then .next s
  else
    let role := s.live.sec.dbgRole
    let s := s.modSec fun x => { x with lastBurst := s.now }
    match s.burst? with
    | some _ => .next s
    | none =>
      let t := emptyTxn s .dbg role 0 .none
      let s := { s with nextTxn := s.nextTxn + 1 }
      if s.pub.isNone then .next (s.answer t .notServed none)
      else
        .next ({ s with txns := s.txns ++ [t] }.burstAll t.id as)

/-- BURST_CLOSE (R454). -/
def execBurstClose (s : State) : Host.Outcome State Fault Refusal :=
  match s.burst? with
  | some t => .next (s.closeBurst t)
  | none => .next s

/-- BURST_TIMEOUT (R454): 1 ms after its last access. -/
def execBurstTimeout (s : State) : Host.Outcome State Fault Refusal :=
  match s.burst? with
  | some t => if t.lastAccess + 1000000 ≤ s.now then .next (s.closeBurst t) else .next s
  | none => .next s

end Sys2Proof.Machine
end

