-- ==== Sys2Proof/Machine/Yra.lean ====
section
/-! DEFINITION. Sessions of Yelti Register Access (spec/13 R381 to R384). -/

namespace Sys2Proof.Machine

open Sys2Proof

/-- The slot of a role's secret (R433, R442). -/
def roleSlot (r : Role) : Nat := 4 + roleCode r

/-- R382, R433, R465: a session may be opened for a role: it exists, its secret is enrolled, LOCK does not forbid it. -/
def Sec.opens (x : Sec) (r : Role) : Bool :=
  r ≠ .nobody && x.roleExists r && (x.key? (roleSlot r)).isSome && !(x.locked && r ≠ .owner)

/-- The first slot of a range that no session and no opening holds. -/
def freeSlot (lo n : Nat) (used : List Nat) : Option Nat := ((List.range n).map (lo + ·)).find? fun k => !used.contains k

/-- The key check of PROVE and the session key (R382, R530), by the labels of the port. -/
def proveMac (label : String) (key : Bytes) (o : Opening) : Bytes := Config.hmac key (ascii label ++ o.hostNonce ++ o.nonce ++ leBytes 4 o.session)
def sessionKey (label : String) (key : Bytes) (o : Opening) : Bytes := Config.hmac key (ascii label ++ o.hostNonce ++ o.nonce)

/-- The most sessions of YRA (R371). -/
def Cst.yraSessions (c : Cst) : Nat := u16 c.netGlobal 12

/-- YRA_OPEN (R382): a role code and the host's nonce. A session is reserved until its PROVE, or for 60 s (log entry 45). -/
def execYraOpen (role : Nat) (hostNonce : Bytes) (ctr : Nat) (s : State) : Host.Outcome State Fault Refusal :=
  if !s.hears .yra then .next s
  else
    let e := s.live.eth
    let r := roleOfCode role
    let open_ := e.opening.filter fun o => decide (s.now < o.openedAt + 60000000000)
    let used := e.sessions.map Session.slot ++ open_.map Opening.slot
    match freeSlot 16 s.live.cst.yraSessions used with
    | some slot =>
      if s.live.sec.opens r then
        let n := s.random 128
        let o : Opening := { session := s.nextTxn, role := r, slot := slot, hostNonce := hostNonce.take 16, nonce := leBytes 16 n.1, openedAt := s.now }
        let s := { n.2 with nextTxn := s.nextTxn + 1 }
        .next ((s.modEth fun e => { e with opening := open_ ++ [o] }).send (.yra 1 o.session ctr (leBytes 4 o.session ++ o.nonce)))
      else .next (s.send (.yra 1 0 ctr (leBytes 4 0 ++ leBytes 16 0)))
    | none => .next (s.send (.yra 1 0 ctr (leBytes 4 0 ++ leBytes 16 0)))

/-- A failed tag or PROVE (R382, R383). -/
def State.yraAuthFail (s : State) : State := s.modEth fun e => { e with authFail := satAdd 16 e.authFail 1 }

/-- YRA_PROVE (R382). -/
def execYraProve (session : Nat) (mac : Bytes) (ctr : Nat) (s : State) : Host.Outcome State Fault Refusal :=
  if !s.hears .yra then .next s
  else match s.live.eth.opening.find? fun (o : Opening) => o.session = session && decide (s.now < o.openedAt + 60000000000) with
    | none => .next s.yraAuthFail
    | some o =>
      match s.live.sec.key? (roleSlot o.role) with
      | none => .next s.yraAuthFail
      | some key =>
        if mac = proveMac "YRA-OPEN" key o ∧ s.live.sec.opens o.role then
          let s := s.modEth fun e => { e with
            opening := e.opening.filter fun x => x.session ≠ session
            sessions := e.sessions ++ [{ id := session, role := o.role, slot := o.slot, lastAt := s.now }] }
          let s := s.modSec fun x => x.fill o.slot 5 3 false (sessionKey "YRA-SK" key o)
          .next (s.send (.yra 2 session ctr []))
        else .next s.yraAuthFail

/-- A protected request of an open session: checked, then served once (R383). -/
def State.yraRequest (s : State) (session ctr : Nat) (tagOk : Bool) (serve : Session → State → State) : State :=
  if !s.hears .yra then s
  else match s.live.eth.sessions.find? fun (x : Session) => x.id = session with
    | none => s
    | some x =>
      if !tagOk then s.yraAuthFail
      else match x.ctr with
        | some c =>
          if ctr < c then s
          else if ctr = c then (match x.lastReply with
            | some m => s.send m
            | none => s)
          else serve x (s.modEth fun e => { e with
            sessions := e.sessions.map fun y => if y.id = session then { y with ctr := some ctr, lastReply := none, lastAt := s.now } else y })
        | none => serve x (s.modEth fun e => { e with
            sessions := e.sessions.map fun y => if y.id = session then { y with ctr := some ctr, lastReply := none, lastAt := s.now } else y })

/-- YRA_DATA (R384): one register transaction that stays open for `dur` ns; `tagOk` is the verification of the tag. -/
def execYraData (session ctr : Nat) (tagOk : Bool) (as : List Access) (dur : Nat) (s : State) : Host.Outcome State Fault Refusal :=
  .next (s.yraRequest session ctr tagOk fun x s => s.transact .yra x.role session dur (.yra session ctr) as)

/-- YRA_CLOSE (R382). -/
def execYraClose (session ctr : Nat) (tagOk : Bool) (s : State) : Host.Outcome State Fault Refusal :=
  .next (s.yraRequest session ctr tagOk fun _ s => ((s.closeYra fun x => x.id = session).dropLock).send (.yra 4 session ctr []))

/-- YRA_SESSION_TIMEOUT (R382): 60 s without a valid request. -/
def execYraSessionTimeout (session : Nat) (s : State) : Host.Outcome State Fault Refusal :=
  match s.live.eth.sessions.find? fun (x : Session) => x.id = session with
  | some x => if x.lastAt + 60000000000 ≤ s.now then .next ((s.closeYra fun x => x.id = session).dropLock) else .next s
  | none => .next s

end Sys2Proof.Machine
end

