-- ==== Sys2Proof/Machine/Management.lean ====
section
/-! DEFINITION. The management port (spec/19 R523 to R539): its frames, sessions, health report, journal and resets. -/

namespace Sys2Proof.Machine

open Sys2Proof

/-- The management controller serves (R523): supply present, no cold reset held. -/
def State.mgtServes (s : State) : Bool :=
  s.live.pwr.powered && !(s.live.pwr.inReset && s.live.pwr.resetCold) && s.live.pwr.mode ≠ .backup

/-- R532: before the first pour of a run, when no session exists. -/
def State.mgtAlone (s : State) : Bool := s.pub.isNone || s.live.pwr.inReset

/-- A response (R534), counted; kept for a repeated CTR. -/
def State.mgtReply (s : State) (cmd session ctr status : Nat) (readEpoch : Option Nat) (body : Bytes) : State :=
  let m := OutMsg.yml cmd session ctr status readEpoch body
  (s.send m).modMgt fun x => { x with tx := satAdd 16 x.tx 1, sessions := keepReply x.sessions session m }

def State.mgtAuthFail (s : State) : State := s.modMgt fun m => { m with authFail := satAdd 16 m.authFail 1 }

/-- A request frame to this node: counted; in a session it is checked by tag and CTR (R530). The role outside a session is NONE. -/
def State.mgtRequest (s : State) (cmd session ctr : Nat) (tagOk : Bool) (serve : Role → State → State) : State :=
  if !s.mgtServes then s
  else
    let s := s.modMgt fun m => { m with rx := satAdd 16 m.rx 1 }
    if session = 0 then serve .nobody s
    else match s.live.mgt.sessions.find? fun (x : Session) => x.id = session with
      | none => s.mgtReply cmd session ctr 3 none []
      | some x =>
        let go := serve x.role (s.modMgt fun m => { m with
          sessions := m.sessions.map fun y => if y.id = session then { y with ctr := some ctr, lastReply := none, lastAt := s.now } else y })
        if !tagOk then s.mgtAuthFail
        else match x.ctr with
          | some c =>
            if ctr < c then s
            else if ctr = c then (match x.lastReply with
              | some m => (s.send m).modMgt fun x => { x with tx := satAdd 16 x.tx 1 }
              | none => s)
            else go
          | none => go

/-- MGT_HELLO (R533). -/
def execMgtHello (ctr : Nat) (s : State) : Host.Outcome State Fault Refusal :=
  .next (s.mgtRequest 1 0 ctr true fun _ s => s.mgtReply 1 0 ctr 0 none
    (leBytes 8 s.live.sec.serial ++ leBytes 4 (imgVersion (tget s.live.upd.runImg 0 [])) ++ leBytes 1 s.live.pwr.node
      ++ leBytes 1 s.live.mgtSpeed ++ leBytes 2 0))

/-- MGT_OPEN (R530, R531): refused before the first pour. -/
def execMgtOpen (role : Nat) (hostNonce : Bytes) (ctr : Nat) (s : State) : Host.Outcome State Fault Refusal :=
  .next (s.mgtRequest 2 0 ctr true fun _ s =>
    let m := s.live.mgt
    let r := roleOfCode role
    let open_ := m.opening.filter fun o => decide (s.now < o.openedAt + 120000000000)
    match freeSlot 24 4 (m.sessions.map Session.slot ++ open_.map Opening.slot) with
    | some slot =>
      if s.live.sec.opens r ∧ !s.mgtAlone then
        let n := s.random 128
        let o : Opening := { session := s.nextTxn, role := r, slot := slot, hostNonce := hostNonce.take 16, nonce := leBytes 16 n.1, openedAt := s.now }
        let s1 := { n.2 with nextTxn := s.nextTxn + 1 }
        (s1.modMgt fun m => { m with opening := open_ ++ [o] }).mgtReply 2 0 ctr 0 none (leBytes 4 o.session ++ o.nonce)
      else s.mgtReply 2 0 ctr 6 none []
    | none => s.mgtReply 2 0 ctr 6 none [])

/-- MGT_PROVE (R530). -/
def execMgtProve (session : Nat) (mac : Bytes) (ctr : Nat) (s : State) : Host.Outcome State Fault Refusal :=
  .next (s.mgtRequest 3 0 ctr true fun _ s =>
    match s.live.mgt.opening.find? fun (o : Opening) => o.session = session && decide (s.now < o.openedAt + 120000000000) with
    | none => s.mgtAuthFail
    | some o =>
      match s.live.sec.key? (roleSlot o.role) with
      | none => s.mgtAuthFail
      | some key =>
        if mac = proveMac "YML-OPEN" key o ∧ s.live.sec.opens o.role then
          let s := s.modMgt fun m => { m with
            opening := m.opening.filter fun x => x.session ≠ session
            sessions := m.sessions ++ [{ id := session, role := o.role, slot := o.slot, lastAt := s.now }] }
          let s := s.modSec fun x => x.fill o.slot 5 3 false (sessionKey "YML-SK" key o)
          s.mgtReply 3 session ctr 0 none []
        else s.mgtAuthFail)

/-- MGT_CLOSE (R531). -/
def execMgtClose (session ctr : Nat) (tagOk : Bool) (s : State) : Host.Outcome State Fault Refusal :=
  .next (s.mgtRequest 4 session ctr tagOk fun _ s =>
    if session = 0 then s.mgtReply 4 0 ctr 3 none []
    else ((s.closeYml fun x => x.id = session).dropLock).mgtReply 4 session ctr 0 none [])

/-- The health report (R536): live fields, and those of the latest pour. -/
def State.health64 (s : State) : Bytes :=
  let k := s.live
  let p := (s.pub.map Bank.core).getD {}
  let poured := fun (n : Nat) => if s.pub.isSome then n else 0
  leBytes 1 (if k.pwr.inReset then 12 else k.pwr.mode.code)
    ++ leBytes 1 (s.pub.isSome.toNat + 2 * poured p.epc.dpAbsent.toNat)
    ++ leBytes 1 (poured (field (readPar p 0x3000) 3 0))
    ++ leBytes 1 (k.par.code % 8 + 8 * (k.par.pcode % 8))
    ++ leBytes 2 (poured (readPar p 0x3008).toNat) ++ leBytes 2 (poured (readPar p 0x300C).toNat)
    ++ leBytes 4 k.secStatus.toNat ++ leBytes 4 k.secTamper.toNat ++ leBytes 4 (readPwr k 0x280).toNat
    ++ leBytes 4 (poured (readCst p 0x400).toNat) ++ leBytes 4 (poured (readPln p 0xC00).toNat)
    ++ leBytes 4 (poured (readUpd p p .yml 0x480).toNat) ++ leBytes 4 (poured p.epc.runId.toNat)
    ++ leBytes 4 k.mgt.jlast ++ leBytes 2 k.pwr.vsupMv ++ leBytes 2 k.pwr.vfldMv ++ leBytes 2 (unsigned 16 k.sys.tempModule) ++ leBytes 2 0
    ++ leBytes 4 ((s.now - k.mgt.startedAt) / 1000000000) ++ leBytes 12 0

/-- MGT_HEALTH (R535, R536): with or without a session. -/
def execMgtHealth (session ctr : Nat) (tagOk : Bool) (s : State) : Host.Outcome State Fault Refusal :=
  .next (s.mgtRequest 0x10 session ctr tagOk fun _ s => s.mgtReply 0x10 session ctr 0 (s.pub.map Bank.epoch) s.health64)

/-- MGT_JOURNAL (R532, R539): up to COUNT records from FROM_SEQ, the oldest first. -/
def execMgtJournal (session ctr : Nat) (tagOk : Bool) (fromSeq count : Nat) (s : State) : Host.Outcome State Fault Refusal :=
  .next (s.mgtRequest 0x11 session ctr tagOk fun role s =>
    if session = 0 ∧ !s.mgtAlone then s.mgtReply 0x11 0 ctr 3 none []
    else if 32 < count then s.mgtReply 0x11 session ctr 2 none []
    else
      let rs := (s.live.mgt.journal.filter fun r => decide (fromSeq ≤ r.jseq)).take count
      s.mgtReply 0x11 session ctr 0 none (leBytes 1 rs.length ++ leBytes 3 0 ++ rs.flatMap fun r => r.bytes role))

/-- MGT_REGS (R533): one register transaction from YML, with or without a session. -/
def execMgtRegs (session ctr : Nat) (tagOk : Bool) (as : List Access) (dur : Nat) (s : State) : Host.Outcome State Fault Refusal :=
  .next (s.mgtRequest 0x20 session ctr tagOk fun role s =>
    if s.mgtAlone then s.mgtReply 0x20 session ctr 4 none []
    else s.transact .yml role session dur (.mgt session ctr) as)

/-- MGT_RESET (R532, R533): as writes of RST_CMD and RST_BLOCK, with DETAIL 1. -/
def execMgtReset (session ctr : Nat) (tagOk : Bool) (module blocks : Nat) (s : State) : Host.Outcome State Fault Refusal :=
  .next (s.mgtRequest 0x21 session ctr tagOk fun _ s =>
    if s.live.pwr.inReset then s.mgtReply 0x21 session ctr 4 none []
    else if session = 0 ∧ !s.mgtAlone then s.mgtReply 0x21 0 ctr 3 none []
    else if session = 0 ∧ ¬((module = 1 ∨ module = 2) ∧ blocks = 0) then s.mgtReply 0x21 0 ctr 5 none []
    else if (module = 0 ∧ blocks % 64 = 0) ∨ 3 ≤ module then s.mgtReply 0x21 session ctr 2 none []
    else
      let s1 := s.mgtReply 0x21 session ctr 0 none []
      let s1 := if module ≠ 0 ∧ blocks % 64 ≠ 0 then s1.werr 0x288 .yml .value else s1
      s1.requestResets module (if module = 0 then blocks % 64 else 0) 1)

/-- MGT_FRAME_DISCARD (R528, R529): `why` is 0 a wrong CRC, 1 a gap or a framing error; another reason is not counted. -/
def execMgtFrameDiscard (why : Nat) (s : State) : Host.Outcome State Fault Refusal :=
  if !s.mgtServes then .next s
  else .next (match why with
    | 0 => s.modMgt fun m => { m with crcErr := satAdd 16 m.crcErr 1 }
    | 1 => s.modMgt fun m => { m with framingErr := satAdd 8 m.framingErr 1 }
    | _ => s)

/-- MGT_SESSION_TIMEOUT (R530): 120 s without a valid request. -/
def execMgtSessionTimeout (session : Nat) (s : State) : Host.Outcome State Fault Refusal :=
  match s.live.mgt.sessions.find? fun (x : Session) => x.id = session with
  | some x => if x.lastAt + 120000000000 ≤ s.now then .next ((s.closeYml fun x => x.id = session).dropLock) else .next s
  | none => .next s

end Sys2Proof.Machine
end

