-- ==== Sys2Proof/Machine/Load.lean ====
section
/-! DEFINITION. LOAD (R76 to R88): the choice of a slot, at most two attempts, the installation of what passed and the pour of epoch 0;
the on-line change of the logic program (R239). -/

namespace Sys2Proof.Machine

open Sys2Proof

/-- Step 7 of R79, the casting itself: what CST_STATUS, CST_REJECT and the identity registers show (R84, R85, R88). -/
def Cst.installed (c : Cst) (slot : Nat) (k : Container) (j : Judge) (now : Nat) : Cst :=
  { c with
    state := if j.plan.isSome || j.island.isSome || !j.notes.isEmpty then 3 else 2
    slot := slot, optOff := j.plan.isSome, islandOff := j.island.isSome, legacy := k.legacy
    noOpt := decide (j.c.scenarios = 0) || k.legacy
    seq := k.seq, fmtMajor := k.fmtMajor, fmtMinor := k.fmtMinor, minFw := k.minFw, digest := k.digest
    canOff := j.canOff, groupsOff := j.groupsOff, metersOff := j.metersOff, alarmsOff := j.alarmsOff, sectOff := j.sectOff
    loadTimeMs := min 65535 ((now - c.loadAt) / 1000000), contentKey := false, sects := j.c.sects }

/-- R20: the clocks that a casting calls for, while the crystal is there. -/
def State.startClocks (s : State) : State :=
  let c := s.live.cst
  let x := !s.live.sys.reserveOsc
  s.modSys fun y => { y with
    eth0Clk := x && c.portMode 0 ≠ 0, eth1Clk := x && c.portMode 1 ≠ 0
    canClk := (List.range 4).any fun n => canMode (c.canCtrl n) ≠ 0
    cplClk := x && c.pairInUse ≠ 0 }

/-- R125: the saved parameter sets enter through a refresh when they belong to this casting. -/
def State.restoreParams (s : State) : State :=
  if s.live.asm.savedDigest ≠ s.live.cst.digest then s.modAsm fun a => { a with savedAt := s.now, savedDigest := [], savedSets := [] }
  else if !s.live.cst.optimiser then s.modAsm fun a => { a with savedAt := s.now }
  else s.modAsm fun a =>
    a.savedSets.foldl (fun a p => (a.setSub p.1 fun x => { x with est := p.2 }).request p.1 p.2 0) { a with savedAt := s.now }

/-- R461: a casting with another KGEN empties the key cache. -/
def State.settleKeyCache (s : State) (old : Cst) : State :=
  if u16 old.netGlobal 10 = u16 s.live.cst.netGlobal 10 then s else s.modSec Sec.flushKeys

/-- Step 7 of R79: the sections that passed are installed, and epoch 0 is poured with the record of R177; the run mode or STANDBY
follows (R495). A warm start holds outputs and keeps RETAIN tags (R233, R280). -/
def State.install (s : State) (slot : Nat) (k : Container) (j : Judge) : State :=
  let old := s.live.cst
  let warm : Bool := !s.live.pwr.resetCold
  let s := j.content.foldl (fun (s : State) e => s.noteErr 5 slot e) s
  let s := s.modCst fun c => c.installed slot k j s.now
  let s := s.settleKeyCache old
  let run := s.random 32
  let s := run.2.modEpc fun e => { e with
    served := false, casting := true, epoch := 0, periodMs := u16 s.live.cst.system 0, planP := u32 s.live.cst.system 4, runId := word run.1
    commitYra := 0, commitYml := 0, commitDbg := 0 }
  let s := s.modPwr fun p => { p with startCommission := p.startMode }
  let s := s.modPln fun p => { p with cOptOff := j.plan.isSome, cClock := s.live.sys.reserveOsc }
  let s := s.startClocks.restoreMetering
  let s := (((s.configureLogic warm old).configureChannels warm fun n => old.chan n).configureLoops warm).configureFans warm
  let s := s.startMetering.startPtp.startCan.startCalendar.owedTamper.restoreParams.latchCalendar
  let s := s.modSlv fun x => x.placeLanes s.live.cst.lanes
  let s := s.pourRecord (s.fallbackRecord 0 (s.live.cst.t0 (s.bound / 32768))) s.live.pln.causes
  let s := s.startPair
  let s := if s.live.cst.pairInUse = 0 then s.enterMode (s.runMode true) else s
  ({ s with pub := none, prev := none, txns := [], staged := [] }).beginPour

/-- One attempt on a slot (R78); a failed one journals the content failures found before its end, and itself (R87). -/
def State.tryCasting (s : State) (slot : Nat) : State × Option (Container × Judge) :=
  let s := s.modCst fun c => if slot = 0 then { c with tried0 := true } else { c with tried1 := true }
  match attempt s.loadEnv (s.live.cst.flash slot) with
  | .error e =>
    let s := (attemptNotes s.loadEnv (s.live.cst.flash slot)).foldl (fun (s : State) e => s.noteErr 5 slot e) s
    ((s.modCst fun c => c.setErr slot e).noteErr 4 slot e, none)
  | .ok x => (s, some x)

/-- A failure that precedes every attempt: recorded in CST_ERR0 (R78). -/
def State.noAttempt (s : State) (code : Nat) : State :=
  let e : CstErr := { code := code }
  ((s.modCst fun c => { c with err0 := e, err1 := {} }).noteErr 4 0 e).loadFails

/-- LOAD_COMPLETE (R50, R76 to R88): LOAD has run to its end. While the Owner material is held after a tamper it fails with SEALED_HOLD on
the chosen slot (R81, R464). -/
def execLoadComplete (s : State) : Host.Outcome State Fault Refusal :=
  if s.live.pwr.mode ≠ .load ∨ s.live.pwr.inReset then .next s
  else
    let s := s.modCst fun c => { c with
      state := 1, quad := decide (c.sfdp = 2), tried0 := false, tried1 := false, err0 := {}, err1 := {} }
    if s.live.cst.sfdp = 0 then .next (s.noAttempt cNoFlash)
    else
      match s.live.cst.chosen with
      | none => .next (s.noAttempt cEmpty)
      | some slot =>
        if s.live.sec.ownerHeld && s.live.sec.ackPending then
          let e : CstErr := { code := cSealedHold }
          .next (((s.modCst fun c => { c.setErr slot e with
            tried0 := decide (slot = 0), tried1 := decide (slot ≠ 0) }).noteErr 4 slot e).loadFails)
        else
          let r := s.tryCasting slot
          match r.2 with
          | some x => .next (r.1.install slot x.1 x.2)
          | none =>
            if slotEmpty (s.live.cst.flash (1 - slot)) then .next r.1.loadFails
            else
              let q := r.1.tryCasting (1 - slot)
              match q.2 with
              | some x => .next (q.1.install (1 - slot) x.1 x.2)
              | none => .next q.1.loadFails

/-! The on-line change (R239, R240). -/

/-- The tags that other sections name (R239 code 4): sources of class TAG (R102) of loops, recipes, series and shed groups,
destinations of loops, points and CAN maps, requests of drivers, the trip tag, shed members, tags that alarms pulse. -/
def Cst.namedTags (c : Cst) : List Nat :=
  let src : Bytes → Nat → List Nat := fun b o => if u32 b o / 2 ^ 28 = 6 then [u32 b o % 2 ^ 27] else []
  let loops := (c.recs 0x30).flatMap fun r =>
    src r.body 8 ++ src r.body 20 ++ src r.body 32 ++ (if slDstKind r.body = 3 then [u32 r.body 12] else [])
  let recipes := (c.recs 0x23).flatMap fun r => (List.range (r.body.length / 20)).flatMap fun i => src r.body (20 * i + 8)
  let series := ((c.recs 0x24).filter fun r => r.rtype = 0x244).flatMap fun r => src r.body 4
  let sheds := c.shedGroups.flatMap fun r =>
    src r.body 4 ++ ((shedMembers r.body).filter fun m => m.1 = 4).map fun m => m.2.1
  let points := (List.range c.nPoints).flatMap fun p => if u8 (c.point p) 6 = 2 then [u32 (c.point p) 8] else []
  let trip := match c.islGlobal with
    | some b => if (u8 b 1).testBit 1 then [u32 b 4] else []
    | none => []
  let fans := (c.recs 0x41).flatMap fun r => if u8 r.body 3 = 2 then [u32 r.body 12] else []
  let alarms := ((c.recs 0x90).filter fun r => r.rtype = 0x902).flatMap fun r => if u32 r.body 16 = 0 then [] else [u32 r.body 16]
  (loops ++ recipes ++ series ++ sheds ++ points ++ trip ++ fans ++ (c.canMaps.map fun r => u32 r.body 8) ++ alarms).eraseDups

/-- Every tag another section names is in the new program with the same type. -/
def Cst.keepsTags (old new : Cst) : Bool :=
  old.namedTags.all fun id => (new.tagRec id).isSome && new.tagType id = old.tagType id

/-- The code of LGC_CHANGE.RESULT that refuses the casting in the other slot, or what LOAD would make of it (R239). -/
def State.judgeChange (s : State) : Nat ⊕ (Container × Judge) :=
  let c := s.live.cst
  let new := c.flash (1 - c.slot)
  let mode := s.live.pwr.mode
  if !logicOnly s.loadEnv (c.flash c.slot) new then .inl 2
  else match attempt s.loadEnv new with
    | .error _ => .inl 3
    | .ok x =>
      if !c.keepsTags x.2.c then .inl 4
      else if !s.isActive ∨ !(mode = .commission || mode = .active || mode = .degraded || mode = .island || mode = .tune) then .inl 5
      else .inr x

/-- ONLINE_CHANGE_CHECK (R239, R240, R514): the casting offered is checked; E_c is the second boundary from now, named to the partner. -/
def execOnlineChangeCheck (s : State) : Host.Outcome State Fault Refusal :=
  if !s.live.lgc.offered ∨ !s.live.epc.casting then .next s
  else
    let s1 := s.modLgc fun x => { x with offered := false }
    match s.judgeChange with
    | .inl code => .next (s1.modLgc fun x => { x with changeResult := code })
    | .inr x =>
      let e := s.live.epc.epoch + 2
      let s1 := s1.modLgc fun y => { y with change := some (e, x.2.c.sects, x.1.seq, x.1.digest) }
      .next (if s.paired && s.linkRuns then s1.send (.coupling 0x0C [e, x.1.seq, leNat x.1.digest]) else s1)

end Sys2Proof.Machine
end

