-- ==== Sys2Proof/Machine/PairCmds.lean ====
section
/-! DEFINITION. The frames of the pair that touch registers or the loop engine (spec/12, R342, R355): BULK, IMMEDIATE; the loop tick and the
output instant with what the pair adds to them. -/

namespace Sys2Proof.Machine

open Sys2Proof

/-- A mirrored register of the image: its fields of type RWE, or the whole of a register that acts at its access (RW). -/
def State.applyImage (s : State) (x : Nat × Word) : State :=
  match regAt x.1 with
  | some r =>
    if isLocal x.1 then s
    else if r.rw ≠ 0 then s.immediate .dp 0 x.1 (x.2 &&& word r.rw)
    else if r.rwe = 0 then s
    else s.applyWrite .dp .nobody 0 x.1 (x.2 &&& word r.rwe)
  | none => s

/-- The resynchronisation image installed (R342). -/
def State.installImage (s : State) (g : BulkImage) : State :=
  let s := g.regs.foldl State.applyImage s
  let s := s.modPln fun p => { p with
    record := g.record, lastValid := g.lastValid
    cShiftRun := g.causes.testBit 0, cNoLanes := g.causes.testBit 1, cDpAbsent := g.causes.testBit 2, cOptOff := g.causes.testBit 3
    cClock := g.causes.testBit 4, recover := g.recover, island := g.island, shed := g.shed
    nextSeq := match g.record with
      | some r => r.seq + 1
      | none => p.nextSeq }
  let s := s.modAsm fun a => { a with
    params := g.params, queue := g.queue, history := g.history, dayValues := g.dayValues, host := g.host }
  let s := s.modSlv fun x => { x with
    excluded := g.excluded, shiftRun := g.shiftRun, spare := []
    inUse := x.inUse.filter fun p => p.2.params = (s.live.asm.sub p.1).inUse }
  let s := s.modLpe fun p => { p with slots := g.slots }
  let s := s.modFan fun f => { f with drivers := g.drivers }
  let s := s.modLgc fun x => { x with
    adopt := some g.tags, forces := g.forces
    shedTags := s.live.cst.shedTags g.shed }
  s.modPar fun p => { p with gen := g.generation, imageIn := true, commitEpoch := max p.commitEpoch g.epoch }

/-- R46, R315: the adoption of the partner's run is the start of a new one: open intervals close for the old run, the counter and the run
identifier change, intervals, ticks (R196) and passes (R261) go on from the adopted counter. -/
def State.adoptRun (s : State) (epoch : Nat) (runId : Word) : State :=
  let old := s.live.epc.runId
  let open_ := s.live.nrg.run
  let s := if open_ then s.live.cst.units.foldl (fun (s : State) u => s.closeInterval u.1 u.2 1) s else s
  let s := s.modEpc fun e => { e with
    epoch := epoch, runId := runId, boundaryAt := s.now, commitYra := 0, commitYml := 0, commitDbg := 0 }
  let s := if open_ then s.live.cst.units.foldl (fun (s : State) u => s.modNrg fun x => x.setInterval u.1 u.2
    (some (openInterval (s.live.cst.intervalS u.1 u.2) s.calSec epoch 65))) s else s
  let s := s.modLpe fun p => { p with nextTick := epoch * s.live.epc.periodMs }
  let s := s.followPasses
  let s := s.modPar fun p => { p with adopted := true, commitEpoch := epoch, tagsEpoch := epoch }
  if old = runId then s else s.journal 28 (leBytes 4 old.toNat ++ leBytes 4 runId.toNat ++ leBytes 8 epoch)

/-- EPOCH_FRAME (R46, R416): the active unit's boundary with its counter, run identifier, calendar value in counts and the
measured offset of the own boundary. The first one after the JOIN exchange gives counter and run identifier. -/
def execEpochFrame (ok : Bool) (epoch : Nat) (runId : Word) (counts : Nat) (ofsNs : Int) (s : State) :
    Host.Outcome State Fault Refusal :=
  if !s.linkRuns ∨ !s.follows then .next s
  else if !ok then .next s.crcError
  else if !s.atBoundary then .next s
  else
    let s1 := s.modEpc fun e => { e with pairLock := decide (ofsNs.natAbs ≤ 2000), alignNs := ofsNs }
    let own := s.live.clk.counts
    let diff : Bool := 32768 < own - counts || 32768 < counts - own
    let s1 := s1.modClk fun c => { c with
      bound := some counts, pairValue := some counts
      pairStep := if diff then some ((counts : Int) - (own : Int)) else none
      pairAt := if c.pairStep.isNone then own else c.pairAt }
    if s.live.par.adopted then .next s1.repour
    else
      let s2 := s1.adoptRun epoch runId
      .next { s2 with prep := s2.prep.map fun b => { b with epoch := epoch, core := s2.live } }

/-- CHANGE_EPOCH (R240, R243): at the boundary of E_c the new program is installed; a force command committed there is judged by it,
and a BARRED module joins again (R340). -/
def execChangeEpoch (s : State) : Host.Outcome State Fault Refusal :=
  match s.live.lgc.change with
  | some (e, sects, seq, digest) =>
    if s.atBoundary ∧ s.live.epc.epoch = e then
      let new := { s.live.cst with sects := sects, seq := seq, digest := digest, slot := 1 - s.live.cst.slot }
      let s1 := (s.installProgram new).takeHeld
      .next (if s1.paired ∧ s1.live.par.pstate = 5 then s1.enterJoin else s1).repour
    else .next s
  | none => .next s

/-- BULK_FRAME (R342): a piece of the image; `image` is the image once it is complete. The joining module installs it. -/
def execBulkFrame (ok : Bool) (image : Option BulkImage) (s : State) : Host.Outcome State Fault Refusal :=
  if !s.linkRuns ∨ !s.follows then .next s
  else if !ok then .next s.crcError
  else
    let s := s.send (.coupling 0x0B [])
    match image with
    | some g => if s.live.par.pstate = 3 ∨ (s.live.par.pstate = 4 ∧ s.live.par.stale) then .next (s.installImage g) else .next s
    | none => .next s

/-- IMMEDIATE_FRAME (R355): a write that the active unit let act at its access, for the next tick. -/
def execImmediateFrame (ok : Bool) (src : Source) (addr : Nat) (w : Word) (s : State) : Host.Outcome State Fault Refusal :=
  if !s.linkRuns ∨ !s.follows then .next s
  else if !ok then .next s.crcError
  else .next (s.modPar fun p => { p with immediate := p.immediate ++ [(src, addr, w)] })

/-- One forwarded write at the tick: registers with fields that act at their access, local ones apart. -/
def State.applyImmediate (s : State) (x : Source × Nat × Word) : State :=
  match regAt x.2.1 with
  | some r => if (r.rw = 0 ∧ r.imm = 0) ∨ isLocal x.2.1 then s
      else { s with nextTxn := s.nextTxn + 1 }.immediate x.1 s.nextTxn x.2.1 x.2.2
  | none => s

/-- LOOP_TICK (R195, R196, R355): forwarded writes act, then the tick; `us` is the time its evaluation took. -/
def execLoopTick (us : Nat) (s : State) : Host.Outcome State Fault Refusal :=
  .next ((s.live.par.immediate.foldl State.applyImmediate (s.modPar fun p => { p with immediate := [] })).loopTick us)

/-- What the active unit sends for comparison (R213, R356): number and value of each slot evaluated but one under injection, 1000 + number and duty of each driver, and
at the first instant of an epoch 2000 + number and electrical value of each output channel that the logic drives. -/
def State.cmpData (s : State) (due : List (Nat × Word)) : List Nat :=
  let chans := if s.now < s.live.epc.boundaryAt + 1000000 then
      ((s.live.cst.ioRecs.filter fun r => u8 r.body 0 = 1).map fun r => u32 r.body 4).eraseDups else []
  let slots := due.filter fun p => !(s.live.lpe.injecting && s.live.lpe.injSlot = p.1)
  (slots.flatMap fun p => [p.1, p.2.toNat]) ++ (s.live.fan.drivers.flatMap fun p => [1000 + p.1, p.2.duty.toNat])
    ++ chans.flatMap fun n => [2000 + n, (s.chan n).elec.toNat]

/-- OUTPUT_INSTANT (R195, R285, R353, R356): the outputs of the tick are applied, the drivers evaluated; the active unit sends its
outputs to the standby, and gives its claim up where R353 says so. -/
def execOutputInstant (s : State) : Host.Outcome State Fault Refusal :=
  if !s.outputDue then .next s
  else
  let due := s.live.lpe.due
  let s1 := s.outputs
  let s1 := if s1.paired && s1.live.par.gate && s1.linkRuns then
      s1.send (.coupling 5 (s1.cmpData due))
    else s1
  .next s1.pairInstant

end Sys2Proof.Machine
end

