-- ==== Sys2Proof/Machine/Epoch.lean ====
section
/-! DEFINITION. Epochs (spec/02, R16, R17, R28 to R44): liveness, the commit of staged writes with its collision groups, what a boundary
does, the end of a pour; the idle cycle. -/

namespace Sys2Proof.Machine

open Sys2Proof

/-! The commit (R37, R39, R41). -/

/-- Registers that no two transactions may write in one epoch: 1 the input window (R109), 2 the force registers (R237), 3 to 10 the
tag write pairs (R246), 11 and 12 the CAN windows, 13 the security registers (R449), 14 to 16 the update banks (R505). -/
def collideGroup (src : Source) (addr : Nat) : Nat :=
  if addr = 0x824 ∨ (0x900 ≤ addr ∧ addr < 0xA00) then 1
  else if 0x2040 ≤ addr ∧ addr < 0x204C then 2
  else if 0x2060 ≤ addr ∧ addr < 0x20A0 then 3 + (addr - 0x2060) / 8
  else if addr = 0x3900 ∨ addr = 0x390C then 11
  else if addr = 0x3980 ∨ addr = 0x3988 ∨ (0x3990 ≤ addr ∧ addr < 0x39D0) then 12
  else if addr = 0x3E38 ∨ addr = 0x3E48 ∨ (0x3E90 ≤ addr ∧ addr < 0x3EA0) ∨ (0x3F00 ≤ addr ∧ addr < 0x4000) then 13
  else if 0x480 ≤ addr ∧ addr < 0x800 then 13 + srcCode src
  else 0

/-- The order of commit: as the transactions closed, in the fixed sequence of sources within one cycle (R41). -/
def Staged.before (a b : Staged) : Bool := decide (a.closedAt < b.closedAt) || (a.closedAt = b.closedAt && decide (srcCode a.src ≤ srcCode b.src))

/-- The transactions that have writes in a group. -/
def groupTxns (ws : List Staged) (g : Nat) : List Nat := ((ws.filter fun x => collideGroup x.src x.addr = g).map Staged.txn).eraseDups

/-- A group written by more than one transaction; the input window settles its own (R109). -/
def collided (ws : List Staged) (g : Nat) : Bool := 2 ≤ g && decide (1 < (groupTxns ws g).length)

/-- What a collision in a group does beside discarding its writes. -/
def State.noteCollision (s : State) (ws : List Staged) (g : Nat) : State :=
  if g = 2 then s.modLgc fun x => { x with collide := sat32 x.collide, resCode := 6 }
  else if g ≤ 10 then s.modLgc fun x => { x with collide := sat32 x.collide }
  else if g ≤ 12 then s.modCan fun x => { x with collide := sat32 x.collide }
  else if g = 13 then s.secCollision (ws.any fun x => collideGroup x.src x.addr = 13 && (x.addr = 0x3E38 || decide (0x3F00 ≤ x.addr)))
  else s.updCollision (if g = 14 then .yra else if g = 15 then .yml else .dbg)

/-- A write superseded by a transaction that closed later (R41). -/
def superseded (ws : List Staged) (x : Staged) : Bool :=
  match (ws.filter fun y => y.addr = x.addr && (y.src = x.src || !(0x480 ≤ x.addr && x.addr < 0x800))).getLast? with
  | some y => y.txn ≠ x.txn || y.mirror ≠ x.mirror
  | none => false

/-- Registers with a command bit: their writes act after the values of the same commit are in. -/
def hasCommand (addr : Nat) : Bool :=
  match regAt addr with
  | some r => r.wo ≠ 0
  | none => false

/-- R543: a write counted at its commit takes its place in the order of R41; SYS_WERR_AT keeps the later of it and of what it showed. -/
def State.orderWerr (t s : State) (x : Staged) : State :=
  let o := x.closedAt * 4 + srcCode x.src
  if t.live.sys.werr ≤ s.live.sys.werr then t
  else if o < s.live.sys.werrAt.order then t.modSys fun y => { y with werrAt := s.live.sys.werrAt }
  else t.modSys fun y => { y with werrAt := { y.werrAt with order := o } }

/-- One staged write at its commit; none acts once a command of this commit has asserted a reset. -/
def State.commitOne (s : State) (x : Staged) : State :=
  if s.live.epc.pouring then (s.applyWrite x.src x.role x.session x.addr x.val).orderWerr s x else s

/-- The EPC_COMMIT register of a source (R44). -/
def Epc.committed (e : Epc) : Source → Epc
  | .yra => { e with commitYra := e.epoch }
  | .yml => { e with commitYml := e.epoch }
  | .dbg => { e with commitDbg := e.epoch }
  | .dp => e

/-- R237: one force command takes effect per epoch at most; of several in one transaction it is the last (log entry 62). -/
def oneForce (ws : List Staged) : List Staged :=
  match (ws.filter fun x => x.addr = 0x2048).getLast? with
  | some f => ws.filter (fun x => x.addr ≠ 0x2048) ++ [f]
  | none => ws

/-- The writes that stand act: values, the source window of the assembler, commands (R37, R109). -/
def State.commitWinners (s : State) (rest win : List Staged) : State :=
  let s := (rest.filter fun x => !hasCommand x.addr).foldl State.commitOne s
  let s := if s.live.epc.casting then s.commitWindow win else s
  (oneForce (rest.filter fun x => hasCommand x.addr)).foldl State.commitOne s

/-- What the blocks do with their windows after the writes (R246, R266, R448), and what the active unit tells its standby (R48). -/
def State.commitTail (s : State) (rest win : List Staged) : State :=
  let s := if (rest.any fun x => decide (0x3F00 ≤ x.addr) && decide (x.addr < 0x4000)) && !(rest.any fun x => x.addr = 0x3E38 && bit x.val 0)
    then s.noExec else s
  let s := s.takePairs.installCals
  if s.paired && s.live.par.gate && s.linkRuns then
    let ms := (rest ++ win).filter fun x => !isLocal x.addr
    (s.send (.coupling 2 [s.live.epc.epoch, s.live.epc.runId.toNat, s.bound])).send (.coupling 3 (s.live.epc.epoch ::
      ms.flatMap fun x => [srcCode x.src, x.addr, x.val.toNat]))
  else s

/-- What a commit counts before its writes act: the EPC_COMMIT of each source, collisions, overwritten writes (R41, R44). -/
def State.commitCounts (s : State) (ws : List Staged) (bad : List Nat) (lost : Nat) : State :=
  let s := ((ws.filter fun x => !x.mirror).map Staged.src).foldl (fun (s : State) src => s.modEpc fun e => e.committed src) s
  let s := bad.foldl (fun (s : State) g => s.noteCollision ws g) s
  s.modEpc fun e => { e with overwrite := satAdd 32 e.overwrite lost }

/-- The staged writes committed together: collisions discarded, the last to close winning, values before commands (R37, R41). -/
def State.commitStaged (s : State) : State :=
  let ws := sortBy Staged.before (s.staged.filter fun x => decide (x.closedAt < s.now))
  let bad := (List.range 17).filter (collided ws)
  let rest := ws.filter fun x => !bad.contains (collideGroup x.src x.addr)
  let win := rest.filter fun x => collideGroup x.src x.addr = 1
  let rest := rest.filter fun x => collideGroup x.src x.addr ≠ 1
  let lost := (rest.filter (superseded rest)).length
  let rest := rest.filter fun x => !superseded rest x
  let s := { s with staged := s.staged.filter fun x => !decide (x.closedAt < s.now) }
  ((s.commitCounts ws bad lost).commitWinners rest win).commitTail rest win

/-! Pours (R28, R29). -/

/-- A run goes on: epoch 0 has been prepared. -/
def State.runs (s : State) : Bool := s.pub.isSome || s.prep.isSome

/-- The bank in preparation becomes the published one; a pour of more than 120 µs sets POUR_LATE and is journalled (R28, R29). -/
def State.finishPour (s : State) : State :=
  match s.prep with
  | none => s
  | some b =>
    let ns := s.now - s.live.epc.boundaryAt
    let late : Bool := decide (120000 < ns)
    let s := s.modEpc fun e => { e with
      served := true, pouring := false, pourMax := min 65535 (max e.pourMax (ns / 10)), pourLate := e.pourLate || late }
    let s := if late then s.journal 0 (leBytes 8 b.epoch) true else s
    { s with prev := s.pub, pub := some b, prep := none }

/-- POUR_COMPLETE (R28, R29): the pour of the present boundary ends. -/
def execPourComplete (s : State) : Host.Outcome State Fault Refusal := .next s.finishPour

/-! Liveness (R17, R18). -/

/-- LIVENESS_STAGE (R17): the control processor, restarted if it was reset, has taken what its ports received. -/
def execLivenessStage (s : State) : Host.Outcome State Fault Refusal :=
  if !s.runs then .next s
  else
    let drain := fun (q : Port) => { q with bufPtp := 0, bufOther := 0 }
    let s := (s.modPwr fun p => { p with cpRunning := true }).modEth fun e => { e with port0 := drain e.port0, port1 := drain e.port1 }
    .next (s.modEpc fun e => { e with liveStaged := true })

/-- The coupler's look at a boundary: liveness returned clears the mark; an epoch without it counts. -/
def State.checkLiveness (s : State) : State :=
  (s.modEpc fun e => { e with
    dpAbsent := e.dpAbsent && !e.liveStaged, liveMiss := if e.liveStaged then 0 else min 3 (e.liveMiss + 1), liveStaged := false }).canSettle

/-- The mode follows the conditions of this boundary, unless ISLAND is about to be entered or left in its own step (R496). -/
def State.settleBoundary (s : State) : State := if s.live.pln.enterDue || s.live.pln.leaveDue then s else s.settleMode

/-- DP_ABSENT (R17, R181): after 3 consecutive epochs without liveness, at the boundary. -/
def execDpAbsent (s : State) : Host.Outcome State Fault Refusal :=
  if !s.atBoundary ∨ s.live.epc.dpAbsent ∨ s.live.epc.liveMiss < 3 then .next s
  else
    let s := (s.modEpc fun e => { e with dpAbsent := true }).modPln fun p => { p with cDpAbsent := s.live.epc.casting || p.cDpAbsent }
    let s := if s.live.epc.casting then s.settleBoundary else s
    .next s.canSettle.repour

/-! The boundary. -/

/-- R35: transactions that read the bank now reclaimed end STALE. -/
def State.reclaim (s : State) : State :=
  let cur := (s.pub.map Bank.epoch).getD 0
  let old := s.txns.filter fun t => t.readEpoch ≠ cur
  let s := { s with prev := none, txns := s.txns.filter fun t => t.readEpoch = cur }
  old.foldl (fun (s : State) t => (s.modEpc fun e => { e with txnLost := sat32 e.txnLost }).answer t .stale none) s

/-- R27, R160, R175, R179, R180: the record of a finished solve is poured, the points of a new horizon step are set. -/
def State.pourPlan (s : State) : State :=
  let n := s.live.pln.nextSeq
  let s := s.pourResult
  let s := if s.live.pln.nextSeq ≠ n then s.yspPour else s
  s.stepPoints

/-- R190: shed groups on the poured levels; substations restored hear of it (R388). -/
def State.pourShed (s : State) : State :=
  let old := s.live.pln.shed
  (s.evalShed s.live fun code => (s.live.source code).1).yspUnshed old

/-- What a boundary does in a run with a casting, after the commit. -/
def State.castingBoundary (s : State) : State :=
  let s := s.pourPlan.pourShed.pairBoundary.settleBoundary
  let s := s.yspSettle.canBoundary
  let s := if s.live.cst.optimiser then s.sampleHistory else s
  if s.paired && s.live.par.gate && s.linkRuns then
    let s := s.send (.tags s.live.epc.epoch s.live.lgc.tags)
    if s.live.par.heard && s.live.par.partner.pstate = 3 then s.send (.coupling 0x0B [s.live.epc.epoch]) else s
  else s

/-- The epoch timer has come to a boundary of the run (R32, R33), or takes the phase of the active unit's (R46; log entry 81). -/
def State.boundaryDue (s : State) : Bool :=
  s.runs && (s.toLock || decide (s.live.epc.boundaryAt + s.live.epc.periodMs * 1000000 ≤ s.now + s.timerSlack))

/-- R37, R44: an answer given at the instant of this boundary names the following one, at which its writes commit. -/
def OutMsg.later (srcs : List Source) (e : Nat) : OutMsg → OutMsg
  | .txn src reply o dropped read (some c) values =>
    .txn src reply o dropped read (some (if c = e ∧ srcs.contains src then c + 1 else c)) values
  | m => m
def State.reannounce (s : State) : State :=
  let srcs := ((s.staged.filter fun x => !decide (x.closedAt < s.now) && !x.mirror).map Staged.src).eraseDups
  if srcs = [] then s
  else
    let late := OutMsg.later srcs s.live.epc.epoch
    let keep := fun (x : Session) => { x with lastReply := x.lastReply.map fun m => if s.out.contains m then late m else m }
    { (s.modEth fun e => { e with sessions := e.sessions.map keep }).modMgt (fun m => { m with sessions := m.sessions.map keep }) with
      out := s.out.map late }

/-- The boundary up to the commit (R16, R18, R33, R35, R416): the bank before the published one is reclaimed, the counter
advances, ticks are numbered from it (R196), the calendar is latched, the grid is aligned. -/
def State.newEpoch (s : State) : State :=
  let s := s.finishPour.reclaim.modLgc Lgc.roll
  let s := s.modEpc fun e => { e with epoch := e.epoch + 1, boundaryAt := s.now, pouring := true }
  let s := s.reannounce.modLpe fun p => { p with nextTick := s.live.epc.epoch * s.live.epc.periodMs }
  let s := s.checkLiveness.latchCalendar
  s.modEpc fun e => { e with alignNs := if e.pairLock then e.alignNs else if e.refLock then s.refOffset else 0 }

/-- The new bank takes what the machine holds after the boundary (R34, R36). -/
def State.prepareBank (s : State) : State :=
  { s with prep := some { epoch := s.live.epc.epoch, core := s.live } }

/-- EPOCH_BOUNDARY (R16, R31, R32, R37): at the timer's instant the counter advances, staging closes, the pour of the new epoch starts; where a
committed command has asserted a reset, no bank is prepared. -/
def execEpochBoundary (s : State) : Host.Outcome State Fault Refusal :=
  if !s.boundaryDue then .next s
  else
    let s := s.newEpoch.commitStaged
    if !s.live.epc.pouring then .next s
    else .next (if s.live.epc.casting then s.castingBoundary else s).prepareBank

/-- The idle cycle of the step on an empty queue: 10 ns pass; lines are quiet, the backup clock counts, conversions end, mailboxes
start, transactions whose time has come close (log entry 2). -/
def State.idle (s : State) : State :=
  let s := { s with now := s.now + 10, out := [] }
  let s := (s.modClk fun c => c.advance 10 (s.live.pwr.mode = .backup)).advanceGroups
  ((List.range 4).foldl State.canOffer s).closeDue

end Sys2Proof.Machine
end

