-- ==== Sys2Proof/Machine/Dispatch.lean ====
section
/-! DEFINITION. The one place where a command is given its meaning: one arm per constructor of Instr, each a direct call. -/
namespace Sys2Proof.Machine

open Sys2Proof

/-- The effect of a command on everything but the queue. -/
def exec (i : Instr) (s : State) : Host.Outcome State Fault Refusal :=
  match i with
  | .epochBoundary => Sys2Proof.Machine.execEpochBoundary s
  | .pourComplete => Sys2Proof.Machine.execPourComplete s
  | .livenessStage => Sys2Proof.Machine.execLivenessStage s
  | .dpAbsent => Sys2Proof.Machine.execDpAbsent s
  | .registerWrite w addr v => Sys2Proof.Machine.execRegisterWrite w addr v s
  | .crystalLoss => Sys2Proof.Machine.execCrystalLoss s
  | .epcClrStats w => Sys2Proof.Machine.execEpcClrStats w s
  | .bootStart ratio => Sys2Proof.Machine.execBootStart ratio s
  | .bootEnd imagesOk rsOk settingsOk => Sys2Proof.Machine.execBootEnd imagesOk rsOk settingsOk s
  | .loadComplete => Sys2Proof.Machine.execLoadComplete s
  | .openingEpoch => Sys2Proof.Machine.execOpeningEpoch s
  | .ladleReady => Sys2Proof.Machine.execLadleReady s
  | .horizonStepBoundary => Sys2Proof.Machine.execHorizonStepBoundary s
  | .seriesSubmit w words => Sys2Proof.Machine.execSeriesSubmit w words s
  | .refreshAll w hold => Sys2Proof.Machine.execRefreshAll w hold s
  | .identHold w hold => Sys2Proof.Machine.execIdentHold w hold s
  | .asmClrStats w hold => Sys2Proof.Machine.execAsmClrStats w hold s
  | .asmRelease w hold => Sys2Proof.Machine.execAsmRelease w hold s
  | .paramOverride w v => Sys2Proof.Machine.execParamOverride w v s
  | .paramSave => Sys2Proof.Machine.execParamSave s
  | .knownAnswerTest bad => Sys2Proof.Machine.execKnownAnswerTest bad s
  | .entryStart l => Sys2Proof.Machine.execEntryStart l s
  | .entryEnd l ce => Sys2Proof.Machine.execEntryEnd l ce s
  | .solveDeadline => Sys2Proof.Machine.execSolveDeadline s
  | .crucibleFault l ecc bad => Sys2Proof.Machine.execCrucibleFault l ecc bad s
  | .coldNext w => Sys2Proof.Machine.execColdNext w s
  | .slvClrStats w => Sys2Proof.Machine.execSlvClrStats w s
  | .holdEnd => Sys2Proof.Machine.execHoldEnd s
  | .gridLossConfirm => Sys2Proof.Machine.execGridLossConfirm s
  | .islandEnter => Sys2Proof.Machine.execIslandEnter s
  | .gridRestore => Sys2Proof.Machine.execGridRestore s
  | .islandLeave => Sys2Proof.Machine.execIslandLeave s
  | .groupRestore => Sys2Proof.Machine.execGroupRestore s
  | .islCmdEnter w => Sys2Proof.Machine.execIslCmdEnter w s
  | .islCmdLeave w => Sys2Proof.Machine.execIslCmdLeave w s
  | .plnClrStats w => Sys2Proof.Machine.execPlnClrStats w s
  | .loopTick us => Sys2Proof.Machine.execLoopTick us s
  | .outputInstant => Sys2Proof.Machine.execOutputInstant s
  | .setpointWrite w n v => Sys2Proof.Machine.execSetpointWrite w n v s
  | .lpeHand w => Sys2Proof.Machine.execLpeHand w s
  | .lpeAuto w => Sys2Proof.Machine.execLpeAuto w s
  | .lpeAutoAll w => Sys2Proof.Machine.execLpeAutoAll w s
  | .lpeHandValue w v => Sys2Proof.Machine.execLpeHandValue w v s
  | .injArm w => Sys2Proof.Machine.execInjArm w s
  | .injAbort w => Sys2Proof.Machine.execInjAbort w s
  | .preSamplesDone => Sys2Proof.Machine.execPreSamplesDone s
  | .injectionDone => Sys2Proof.Machine.execInjectionDone s
  | .lpeClrStats w => Sys2Proof.Machine.execLpeClrStats w s
  | .logicCycle us ops => Sys2Proof.Machine.execLogicCycle us ops s
  | .logicWatchdog net => Sys2Proof.Machine.execLogicWatchdog net s
  | .lgcRestart w => Sys2Proof.Machine.execLgcRestart w s
  | .forceSet w tag v => Sys2Proof.Machine.execForceSet w tag v s
  | .forceRemove w tag => Sys2Proof.Machine.execForceRemove w tag s
  | .forceRemoveAll w => Sys2Proof.Machine.execForceRemoveAll w s
  | .hostTagWrite w k tag v => Sys2Proof.Machine.execHostTagWrite w k tag v s
  | .lgcClrStats w => Sys2Proof.Machine.execLgcClrStats w s
  | .onlineChangeCheck => Sys2Proof.Machine.execOnlineChangeCheck s
  | .changeEpoch => Sys2Proof.Machine.execChangeEpoch s
  | .passStart g samples => Sys2Proof.Machine.execPassStart g samples s
  | .fchStart w n => Sys2Proof.Machine.execFchStart w n s
  | .fchUrgent w n => Sys2Proof.Machine.execFchUrgent w n s
  | .fchHand w n => Sys2Proof.Machine.execFchHand w n s
  | .fchAuto w n => Sys2Proof.Machine.execFchAuto w n s
  | .fltReset w n => Sys2Proof.Machine.execFltReset w n s
  | .fchHandValue w n v => Sys2Proof.Machine.execFchHandValue w n v s
  | .sliceHandover => Sys2Proof.Machine.execSliceHandover s
  | .calibrationVisitEnd k zeroSum refSum midSum zeroSquares => Sys2Proof.Machine.execCalibrationVisitEnd k zeroSum refSum midSum zeroSquares s
  | .sliceStuck k => Sys2Proof.Machine.execSliceStuck k s
  | .calZero w n => Sys2Proof.Machine.execCalZero w n s
  | .calSpan w n => Sys2Proof.Machine.execCalSpan w n s
  | .calAverageDone n => Sys2Proof.Machine.execCalAverageDone n s
  | .calAccept w n => Sys2Proof.Machine.execCalAccept w n s
  | .calDiscard w n => Sys2Proof.Machine.execCalDiscard w n s
  | .calFactory w n => Sys2Proof.Machine.execCalFactory w n s
  | .outputFaultTimer n openLoad on => Sys2Proof.Machine.execOutputFaultTimer n openLoad on s
  | .stageTrip n => Sys2Proof.Machine.execStageTrip n s
  | .tripRetry n => Sys2Proof.Machine.execTripRetry n s
  | .shuntOpen n => Sys2Proof.Machine.execShuntOpen n s
  | .shuntRetry n => Sys2Proof.Machine.execShuntRetry n s
  | .vfldLow mv => Sys2Proof.Machine.execVfldLow mv s
  | .vfldRestored mv => Sys2Proof.Machine.execVfldRestored mv s
  | .fchClrStats w => Sys2Proof.Machine.execFchClrStats w s
  | .kickEnd d => Sys2Proof.Machine.execKickEnd d s
  | .retryWaitEnd d => Sys2Proof.Machine.execRetryWaitEnd d s
  | .tachLoss d => Sys2Proof.Machine.execTachLoss d s
  | .lowSpeedRekick d => Sys2Proof.Machine.execLowSpeedRekick d s
  | .tachRecovery d => Sys2Proof.Machine.execTachRecovery d s
  | .stallRetry d => Sys2Proof.Machine.execStallRetry d s
  | .fanRestart w map => Sys2Proof.Machine.execFanRestart w map s
  | .fanClrStats w => Sys2Proof.Machine.execFanClrStats w s
  | .referencePeriodEnd g p => Sys2Proof.Machine.execReferencePeriodEnd g p s
  | .referenceSwitch g => Sys2Proof.Machine.execReferenceSwitch g s
  | .forcedPeriodClose g p => Sys2Proof.Machine.execForcedPeriodClose g p s
  | .gainChange g k up => Sys2Proof.Machine.execGainChange g k up s
  | .heatSample m => Sys2Proof.Machine.execHeatSample m s
  | .intervalClose kind unit => Sys2Proof.Machine.execIntervalClose kind unit s
  | .periodicCapture us fails => Sys2Proof.Machine.execPeriodicCapture us fails s
  | .clearGroup w g confirm => Sys2Proof.Machine.execClearGroup w g confirm s
  | .clearMeter w m confirm => Sys2Proof.Machine.execClearMeter w m confirm s
  | .clearAll w confirm => Sys2Proof.Machine.execClearAll w confirm s
  | .unsAck w => Sys2Proof.Machine.execUnsAck w s
  | .nrgClrStats w => Sys2Proof.Machine.execNrgClrStats w s
  | .partnerCodeChange code parity => Sys2Proof.Machine.execPartnerCodeChange code parity s
  | .gateOpen gapNs => Sys2Proof.Machine.execGateOpen gapNs s
  | .watchdogFire cause => Sys2Proof.Machine.execWatchdogFire cause s
  | .watchdogReset => Sys2Proof.Machine.execWatchdogReset s
  | .heartbeatSend => Sys2Proof.Machine.execHeartbeatSend s
  | .heartbeatFrame ok h => Sys2Proof.Machine.execHeartbeatFrame ok h s
  | .hbPathLost => Sys2Proof.Machine.execHbPathLost s
  | .linkPathLost => Sys2Proof.Machine.execLinkPathLost s
  | .pathRestored hb => Sys2Proof.Machine.execPathRestored hb s
  | .killInEnergised => Sys2Proof.Machine.execKillInEnergised s
  | .killInReleased => Sys2Proof.Machine.execKillInReleased s
  | .killOutRelease => Sys2Proof.Machine.execKillOutRelease s
  | .waitTimeout => Sys2Proof.Machine.execWaitTimeout s
  | .joinFrame ok roleB ir4800 minor major seq digest => Sys2Proof.Machine.execJoinFrame ok roleB ir4800 minor major seq digest s
  | .epochFrame ok epoch runId counts ofsNs => Sys2Proof.Machine.execEpochFrame ok epoch runId counts ofsNs s
  | .calendarSyncStep => Sys2Proof.Machine.execCalendarSyncStep s
  | .commitFrame ok epoch writes snap steps commits => Sys2Proof.Machine.execCommitFrame ok epoch writes snap steps commits s
  | .staleTimeout => Sys2Proof.Machine.execStaleTimeout s
  | .tagsFrame ok epoch tags => Sys2Proof.Machine.execTagsFrame ok epoch tags s
  | .resyncComplete passed => Sys2Proof.Machine.execResyncComplete passed s
  | .immediateFrame ok src addr w => Sys2Proof.Machine.execImmediateFrame ok src addr w s
  | .changeFrame ok epoch seq digest sects => Sys2Proof.Machine.execChangeFrame ok epoch seq digest sects s
  | .handoverFrame ok epoch cause => Sys2Proof.Machine.execHandoverFrame ok epoch cause s
  | .handoverStart => Sys2Proof.Machine.execHandoverStart s
  | .handoverEnd => Sys2Proof.Machine.execHandoverEnd s
  | .takeBack => Sys2Proof.Machine.execTakeBack s
  | .outputsFrame ok items => Sys2Proof.Machine.execOutputsFrame ok items s
  | .divergeFrame ok kind index value => Sys2Proof.Machine.execDivergeFrame ok kind index value s
  | .divergenceResolve => Sys2Proof.Machine.execDivergenceResolve s
  | .selftestPeriodic test passed => Sys2Proof.Machine.execSelftestPeriodic test passed s
  | .parSwitch w => Sys2Proof.Machine.execParSwitch w s
  | .divClr w => Sys2Proof.Machine.execDivClr w s
  | .parSelftest w => Sys2Proof.Machine.execParSelftest w s
  | .parClrStats w => Sys2Proof.Machine.execParClrStats w s
  | .linkChange p up gig => Sys2Proof.Machine.execLinkChange p up gig s
  | .ethFrameRx p f => Sys2Proof.Machine.execEthFrameRx p f s
  | .prpSupervision => Sys2Proof.Machine.execPrpSupervision s
  | .arpRequest p ip asker => Sys2Proof.Machine.execArpRequest p ip asker s
  | .icmpEcho p ip ident data => Sys2Proof.Machine.execIcmpEcho p ip ident data s
  | .reassemblyTimeout dg => Sys2Proof.Machine.execReassemblyTimeout dg s
  | .ptpAnnounce d port dom ds utc => Sys2Proof.Machine.execPtpAnnounce d port dom ds utc s
  | .ptpSync d port t1 corr logI ago => Sys2Proof.Machine.execPtpSync d port t1 corr logI ago s
  | .delayReq d => Sys2Proof.Machine.execDelayReq d s
  | .delayResp d seq t4 => Sys2Proof.Machine.execDelayResp d seq t4 s
  | .ptpSyncLoss d => Sys2Proof.Machine.execPtpSyncLoss d s
  | .ptpReturn => Sys2Proof.Machine.execPtpReturn s
  | .addendWrite w d v => Sys2Proof.Machine.execAddendWrite w d v s
  | .servoOff w off0 off1 => Sys2Proof.Machine.execServoOff w off0 off1 s
  | .ptpCapture w => Sys2Proof.Machine.execPtpCapture w s
  | .ptpLoadArm w clock sec => Sys2Proof.Machine.execPtpLoadArm w clock sec s
  | .ptpArmedLoad d => Sys2Proof.Machine.execPtpArmedLoad d s
  | .ptpLoadStep w clock sec ns => Sys2Proof.Machine.execPtpLoadStep w clock sec ns s
  | .ptpClrStats w off0 off1 => Sys2Proof.Machine.execPtpClrStats w off0 off1 s
  | .ethClrStats w => Sys2Proof.Machine.execEthClrStats w s
  | .yraOpen role hostNonce ctr => Sys2Proof.Machine.execYraOpen role hostNonce ctr s
  | .yraProve session mac ctr => Sys2Proof.Machine.execYraProve session mac ctr s
  | .yraData session ctr tagOk as dur => Sys2Proof.Machine.execYraData session ctr tagOk as dur s
  | .yraClose session ctr tagOk => Sys2Proof.Machine.execYraClose session ctr tagOk s
  | .yraSessionTimeout session => Sys2Proof.Machine.execYraSessionTimeout session s
  | .telemetry f => Sys2Proof.Machine.execTelemetry f s
  | .yspSyncSend sub => Sys2Proof.Machine.execYspSyncSend sub s
  | .canFrameRx c f => Sys2Proof.Machine.execCanFrameRx c f s
  | .canObjectTimeout c id => Sys2Proof.Machine.execCanObjectTimeout c id s
  | .canFrameEnd c how code clash => Sys2Proof.Machine.execCanFrameEnd c how code clash s
  | .busOff c => Sys2Proof.Machine.execBusOff c s
  | .busOffRecovery c => Sys2Proof.Machine.execBusOffRecovery c s
  | .canSend w => Sys2Proof.Machine.execCanSend w s
  | .canCancel w => Sys2Proof.Machine.execCanCancel w s
  | .canRelease w => Sys2Proof.Machine.execCanRelease w s
  | .canSleep w c => Sys2Proof.Machine.execCanSleep w c s
  | .canWake w c => Sys2Proof.Machine.execCanWake w c s
  | .wakeEdge c => Sys2Proof.Machine.execWakeEdge c s
  | .wakeFrame c f => Sys2Proof.Machine.execWakeFrame c f s
  | .canClrStats w => Sys2Proof.Machine.execCanClrStats w s
  | .vbakSwitch railMv vbakMv => Sys2Proof.Machine.execVbakSwitch railMv vbakMv s
  | .vbakReturn railMv vbakMv => Sys2Proof.Machine.execVbakReturn railMv vbakMv s
  | .vbakMeasure mv => Sys2Proof.Machine.execVbakMeasure mv s
  | .clkCapture w => Sys2Proof.Machine.execClkCapture w s
  | .clkLoadArm w sec => Sys2Proof.Machine.execClkLoadArm w sec s
  | .calendarArmedLoad => Sys2Proof.Machine.execCalendarArmedLoad s
  | .clkLoadStep w sec sub => Sys2Proof.Machine.execClkLoadStep w sec sub s
  | .temperatureTrim temp => Sys2Proof.Machine.execTemperatureTrim temp s
  | .mainsWindow => Sys2Proof.Machine.execMainsWindow s
  | .ptpReferenceCompare => Sys2Proof.Machine.execPtpReferenceCompare s
  | .automaticStep => Sys2Proof.Machine.execAutomaticStep s
  | .referenceTimeout => Sys2Proof.Machine.execReferenceTimeout s
  | .dstTransition => Sys2Proof.Machine.execDstTransition s
  | .alarmFire n => Sys2Proof.Machine.execAlarmFire n s
  | .alarmArm w n => Sys2Proof.Machine.execAlarmArm w n s
  | .alarmDisarm w n => Sys2Proof.Machine.execAlarmDisarm w n s
  | .alarmFiredClear w map => Sys2Proof.Machine.execAlarmFiredClear w map s
  | .tamperActivation n => Sys2Proof.Machine.execTamperActivation n s
  | .provision w c => Sys2Proof.Machine.execProvision w c s
  | .enrol w c => Sys2Proof.Machine.execEnrol w c s
  | .enrolPub w c => Sys2Proof.Machine.execEnrolPub w c s
  | .revoke w c => Sys2Proof.Machine.execRevoke w c s
  | .deploy w c => Sys2Proof.Machine.execDeploy w c s
  | .returnModule w c => Sys2Proof.Machine.execReturnModule w c s
  | .scrap w c => Sys2Proof.Machine.execScrap w c s
  | .secSettings w c => Sys2Proof.Machine.execSecSettings w c s
  | .tamperAck w c => Sys2Proof.Machine.execTamperAck w c s
  | .forceClaim w c => Sys2Proof.Machine.execForceClaim w c s
  | .debugUnlock w c => Sys2Proof.Machine.execDebugUnlock w c s
  | .dbgReq w => Sys2Proof.Machine.execDbgReq w s
  | .dbgLock w => Sys2Proof.Machine.execDbgLock w s
  | .dbgOpenNext w => Sys2Proof.Machine.execDbgOpenNext w s
  | .challengeExpiry => Sys2Proof.Machine.execChallengeExpiry s
  | .partialTimeout => Sys2Proof.Machine.execPartialTimeout s
  | .burstOpen as => Sys2Proof.Machine.execBurstOpen as s
  | .burstClose => Sys2Proof.Machine.execBurstClose s
  | .burstTimeout => Sys2Proof.Machine.execBurstTimeout s
  | .attGo w chal => Sys2Proof.Machine.execAttGo w chal s
  | .drbgReseed => Sys2Proof.Machine.execDrbgReseed s
  | .powerOnReset => Sys2Proof.Machine.execPowerOnReset s
  | .powerOnRelease vsupMv => Sys2Proof.Machine.execPowerOnRelease vsupMv s
  | .pfWarning vsupMv => Sys2Proof.Machine.execPfWarning vsupMv s
  | .pfWarningEnd vsupMv => Sys2Proof.Machine.execPfWarningEnd vsupMv s
  | .pfWarmReset => Sys2Proof.Machine.execPfWarmReset s
  | .resetNRequest => Sys2Proof.Machine.execResetNRequest s
  | .resetNRelease => Sys2Proof.Machine.execResetNRelease s
  | .rstWarm w => Sys2Proof.Machine.execRstWarm w s
  | .rstCold w => Sys2Proof.Machine.execRstCold w s
  | .moduleResetExecute => Sys2Proof.Machine.execModuleResetExecute s
  | .blockResetCp w => Sys2Proof.Machine.execBlockResetCp w s
  | .blockResetSolver w => Sys2Proof.Machine.execBlockResetSolver w s
  | .blockResetAsm w => Sys2Proof.Machine.execBlockResetAsm w s
  | .blockResetEth w => Sys2Proof.Machine.execBlockResetEth w s
  | .blockResetCan w => Sys2Proof.Machine.execBlockResetCan w s
  | .blockResetMgt w => Sys2Proof.Machine.execBlockResetMgt w s
  | .blockResetExecute cpOk mgtOk => Sys2Proof.Machine.execBlockResetExecute cpOk mgtOk s
  | .lockstepMismatch imageOk => Sys2Proof.Machine.execLockstepMismatch imageOk s
  | .cpFirmwareWatchdog imageOk => Sys2Proof.Machine.execCpFirmwareWatchdog imageOk s
  | .modeCommission w => Sys2Proof.Machine.execModeCommission w s
  | .modeRun w => Sys2Proof.Machine.execModeRun w s
  | .modeTune w => Sys2Proof.Machine.execModeTune w s
  | .modeSafehold w => Sys2Proof.Machine.execModeSafehold w s
  | .startMode w commission => Sys2Proof.Machine.execStartMode w commission s
  | .updOffer w words => Sys2Proof.Machine.execUpdOffer w words s
  | .updChunk w ofs words => Sys2Proof.Machine.execUpdChunk w ofs words s
  | .endOffer w => Sys2Proof.Machine.execEndOffer w s
  | .updAbort w => Sys2Proof.Machine.execUpdAbort w s
  | .lockTimeout => Sys2Proof.Machine.execLockTimeout s
  | .installation bad => Sys2Proof.Machine.execInstallation bad s
  | .swapPoint => Sys2Proof.Machine.execSwapPoint s
  | .updSwap w => Sys2Proof.Machine.execUpdSwap w s
  | .updConfirm w => Sys2Proof.Machine.execUpdConfirm w s
  | .trialConfirmed => Sys2Proof.Machine.execTrialConfirmed s
  | .updRevert w => Sys2Proof.Machine.execUpdRevert w s
  | .trialFailure => Sys2Proof.Machine.execTrialFailure s
  | .updFloor w => Sys2Proof.Machine.execUpdFloor w s
  | .mgtHello ctr => Sys2Proof.Machine.execMgtHello ctr s
  | .mgtOpen role hostNonce ctr => Sys2Proof.Machine.execMgtOpen role hostNonce ctr s
  | .mgtProve session mac ctr => Sys2Proof.Machine.execMgtProve session mac ctr s
  | .mgtClose session ctr tagOk => Sys2Proof.Machine.execMgtClose session ctr tagOk s
  | .mgtHealth session ctr tagOk => Sys2Proof.Machine.execMgtHealth session ctr tagOk s
  | .mgtJournal session ctr tagOk fromSeq count => Sys2Proof.Machine.execMgtJournal session ctr tagOk fromSeq count s
  | .mgtRegs session ctr tagOk as dur => Sys2Proof.Machine.execMgtRegs session ctr tagOk as dur s
  | .mgtReset session ctr tagOk module blocks => Sys2Proof.Machine.execMgtReset session ctr tagOk module blocks s
  | .mgtFrameDiscard why => Sys2Proof.Machine.execMgtFrameDiscard why s
  | .mgtSessionTimeout session => Sys2Proof.Machine.execMgtSessionTimeout session s
  | .speedChange => Sys2Proof.Machine.execSpeedChange s
  | .closeAll w => Sys2Proof.Machine.execCloseAll w s
  | .mgtClrStats w => Sys2Proof.Machine.execMgtClrStats w s
  | .dramUncorrectable row reader len => Sys2Proof.Machine.execDramUncorrectable row reader len s
  | .dramCorrected row => Sys2Proof.Machine.execDramCorrected row s
  | .overtempChange temp => Sys2Proof.Machine.execOvertempChange temp s
  | .sysClrStats w => Sys2Proof.Machine.execSysClrStats w s
  | .tamperInputInactive n => Sys2Proof.Machine.execTamperInputInactive n s
  | .backupDomainLoss => Sys2Proof.Machine.execBackupDomainLoss s
  | .pulseEdge n => Sys2Proof.Machine.execPulseEdge n s
  | .dinSample n level => Sys2Proof.Machine.execDinSample n level s
  | .pwmPeriodStart n => Sys2Proof.Machine.execPwmPeriodStart n s
  | .busIntegration c => Sys2Proof.Machine.execBusIntegration c s
  | .busOffRecoveryComplete c => Sys2Proof.Machine.execBusOffRecoveryComplete c s
  | .selftestFrame ok passed => Sys2Proof.Machine.execSelftestFrame ok passed s
  | .selftestComplete loop logic sram gate => Sys2Proof.Machine.execSelftestComplete loop logic sram gate s
  | .bulkFrame ok image => Sys2Proof.Machine.execBulkFrame ok image s
  | .securityCommandEnd => Sys2Proof.Machine.execSecurityCommandEnd s
  | .attestationComplete => Sys2Proof.Machine.execAttestationComplete s
  | .takingActiveCode => Sys2Proof.Machine.execTakingActiveCode s

end Sys2Proof.Machine
end

