-- ==== Sys2Proof/Machine/Pins.lean ====
section
/-! DEFINITION. The pins of connector B as a function of the state (R487, R554), and the contacts of both connectors (R551, R552).
The pins of field channels and CAN controllers stand beside their blocks. -/

namespace Sys2Proof.Machine

open Sys2Proof

/-- BOOT has begun and no reset holds the module (R479, R487). -/
def State.booted (s : State) : Bool :=
  s.live.pwr.powered && !s.live.pwr.inReset && s.live.pwr.bootStarted && decide (s.live.pwr.mode ≠ .backup)

/-- What the pin REFCLK_OUT carries (R556). -/
inductive RefClk where
  | low
  | crystal
  | onDie
deriving DecidableEq, Repr

/-- REFCLK_OUT (R556): 25 MHz from BOOT onwards in every mode but BACKUP, from the on-die oscillator while the crystal is lost;
low without supply, before BOOT and during every module reset. -/
def State.refclkOut (s : State) : RefClk :=
  if !s.booted then .low
  else if s.live.sys.reserveOsc then .onDie
  else .crystal

/-- CLMO2 to CLMO0 and CLMOP, the most significant first (R326, R327): the code with odd parity; NONE is driven as 0000. -/
def State.claimPins (s : State) : List Bool :=
  let c := if s.live.pwr.powered && !s.live.pwr.inReset then s.live.par.code else 0
  let ones := [c.testBit 2, c.testBit 1, c.testBit 0]
  ones ++ [decide (c ≠ 0) && (ones.filter id).length % 2 = 0]

/-- What HBO carries: low, or the 400 kHz square wave (R335, R556). -/
inductive HeartbeatPin where
  | low
  | square
deriving DecidableEq, Repr

def State.hbo (s : State) : HeartbeatPin := if s.booted && !s.live.par.wdFired then .square else .low

/-- KILL_OUT sources current (R348, R555). -/
def State.killOutPin (s : State) : Bool := s.booted && s.live.par.killOut

/-- CPL_TXP and CPL_TXN are driven, otherwise electrically idle (R337, R487). -/
def State.cplDriven (s : State) : Bool := s.booted && s.linkRuns

/-- FORCE_N and ALARM_N, both open-drain, are pulled low (R238, R428); ALARM_N is supplied from the backup domain. -/
def State.forceLow (s : State) : Bool := s.booted && s.live.lgc.forceN
def State.alarmLow (s : State) : Bool := s.live.clk.alarmN

/-- The open-drain pin RSTO_N is pulled low: during every module reset and for 1 ms after its release (R483). -/
def State.rstoLow (s : State) : Bool :=
  s.live.pwr.powered && (s.live.pwr.inReset || (s.live.pwr.releasedAt.any fun t => decide (s.now < t + 1000000)))

/-- CFL_CS_N (R487): high-impedance until epoch 0; from then on high, but for reads and writes of the casting flash (R76, R512),
whose waveform (R557) lies below one command. -/
inductive FlashSelect where
  | highZ
  | high
deriving DecidableEq, Repr

def State.cflCsN (s : State) : FlashSelect :=
  if s.booted && s.live.epc.served then .high else .highZ

/-- VIO_OUT is on from BOOT until the next reset, off in BACKUP (R554). -/
def State.vioOut (s : State) : Bool := s.booted

/-- The PHY of a port is powered (R364, R487): after epoch 0 in mode 1 or 2. -/
def State.phyOn (s : State) (port : Nat) : Bool :=
  s.booted && s.live.epc.casting && decide (port < 2) && s.live.cst.portMode port ≠ 0 && !s.live.sys.reserveOsc

/-! Contacts (R551, R552). -/

/-- The rows of a connector. -/
inductive ContactRow where
  | a | b | c | d
deriving DecidableEq, Repr

/-- What a contact carries. -/
inductive Contact where
  | fchS (ch : Nat) | fchX (ch : Nat) | fgnd (group : Nat) | vfld
  | vsup | gnd | mgVa (g : Nat) | mgVb (g : Nat) | mgVc (g : Nat) | mgIa (g : Nat) | mgIb (g : Nat) | mgIc (g : Nat) | mgIn (g : Nat)
  | mgGnd | mgVref | ethP (port pair : Nat) | ethN (port pair : Nat) | cplTxP | cplTxN | cplRxP | cplRxN
  | canTx (c : Nat) | canRx (c : Nat) | canStb (c : Nat) | clmo (bit : Nat) | clmoP | clmi (bit : Nat) | clmiP | hbo | hbi
  | killOut | killRet | killIn | killRtn | mgtA | mgtB | mgtGnd | cflSck | cflCsN | cflIo (bit : Nat) | vioOut
  | dbgTck | dbgTms | dbgTdi | dbgTdo | dbgTrstN | refclkOut | strap | resetN | rstoN | forceN | alarmN | tamperN (input : Nat) | vbak
  | reserved
deriving DecidableEq, Repr

/-- Connector A (R551). -/
def contactA (row : ContactRow) (col : Nat) : Option Contact :=
  if col = 0 ∨ 60 < col then none
  else match row with
    | .a => some (.fchS (col - 1))
    | .b => some (.fchX (col - 1))
    | .c => some (if col ≤ 36 then .fchS (col + 59) else if col ≤ 52 then .fgnd (col - 37) else .vfld)
    | .d => some (if col ≤ 36 then .fchX (col + 59) else if col ≤ 52 then .fgnd (col - 37) else .vfld)

/-- The entry of a row of four contacts. -/
def ContactRow.pick (r : ContactRow) (a b c d : Contact) : Contact :=
  match r with
  | .a => a
  | .b => b
  | .c => c
  | .d => d

/-- Connector B (R552). -/
def contactB (row : ContactRow) (col : Nat) : Option Contact :=
  let g := (col - 9) / 2
  if col = 0 ∨ 60 < col then none
  else if col ≤ 8 then some (row.pick .vsup .vsup .gnd .gnd)
  else if col ≤ 24 then
    some (if col % 2 = 1 then row.pick (.mgVa g) (.mgVb g) (.mgVc g) .mgGnd else row.pick (.mgIa g) (.mgIb g) (.mgIc g) (.mgIn g))
  else if col ≤ 27 then some (if col = 25 then row.pick .mgVref .mgVref .gnd .gnd else .gnd)
  else if col ≤ 31 then some (row.pick (.ethP 0 (col - 28)) (.ethN 0 (col - 28)) (.ethP 1 (col - 28)) (.ethN 1 (col - 28)))
  else if 35 ≤ col ∧ col ≤ 38 then some (row.pick (.canTx (col - 35)) (.canRx (col - 35)) (.canStb (col - 35)) .gnd)
  else some (match col with
    | 33 => row.pick .cplTxP .cplTxN .gnd .gnd
    | 34 => row.pick .cplRxP .cplRxN .gnd .gnd
    | 39 => row.pick (.clmo 0) (.clmo 1) (.clmo 2) .clmoP
    | 40 => row.pick (.clmi 0) (.clmi 1) (.clmi 2) .clmiP
    | 41 => row.pick .hbo .hbi .gnd .gnd
    | 42 => row.pick .killOut .killRet .killIn .killRtn
    | 43 => row.pick .mgtA .mgtB .mgtGnd .gnd
    | 44 => row.pick .cflSck .cflCsN (.cflIo 0) (.cflIo 1)
    | 45 => row.pick (.cflIo 2) (.cflIo 3) .vioOut .gnd
    | 46 => row.pick .dbgTck .dbgTms .dbgTdi .dbgTdo
    | 47 => row.pick .dbgTrstN .refclkOut .gnd .strap
    | 48 => row.pick .resetN .rstoN .forceN .alarmN
    | 49 => row.pick (.tamperN 0) (.tamperN 1) .vbak .gnd
    | 55 | 56 | 57 | 58 | 59 | 60 => .reserved
    | _ => .gnd)

end Sys2Proof.Machine
end

