-- ==== Sys2Proof/Safety.lean ====
section
/-! DEFINITION. What a safe run is: no step stops, and the state keeps the shape that the spec gives the banks, the open
transactions and the staging area between any two commands (spec/02 R34, R35, R37, R38). -/

namespace Sys2Proof.Machine

open Sys2Proof

/-- The number of staged writes that external sources brought: the staging area of R38 holds these. -/
def externalStaged (l : List Staged) : Nat := (l.filter fun x => x.src ≠ .dp && !x.mirror).length

/-- What lies outside the blocks, with the epoch, the pour (R16, R28) and the lifecycle (R435). -/
structure View where
  pending : List Instr
  now : Nat
  nextTxn : Nat
  pub : Option Bank
  prepares : Bool
  prev : Option Bank
  txns : List Txn
  external : Nat
  epoch : Nat
  pouring : Bool
  lifecycle : Lifecycle

def State.view (s : State) : View where
  pending := s.pending
  now := s.now
  nextTxn := s.nextTxn
  pub := s.pub
  prepares := s.prep.isSome
  prev := s.prev
  txns := s.txns
  external := externalStaged s.staged
  epoch := s.live.epc.epoch
  pouring := s.live.epc.pouring
  lifecycle := s.live.sec.lifecycle

/-- An epoch whose bank is intact: the published one, or the one before it until it is reclaimed (R35). -/
def View.Intact (v : View) (epoch : Nat) : Prop :=
  v.pub.map Bank.epoch = some epoch ∨ v.prev.map Bank.epoch = some epoch

/-- R34, R35, R38: open transactions have numbers of their own, given out before; each reads an intact bank; the bank before the
published one exists only beside it and never while another is being prepared; the staging area holds no more than it can. -/
structure View.Inv (v : View) : Prop where
  numbers : (v.txns.map Txn.id).Nodup
  given : ∀ t ∈ v.txns, t.id < v.nextTxn
  intact : ∀ t ∈ v.txns, v.Intact t.readEpoch
  beside : v.prev.isSome → v.pub.isSome
  one : v.prepares → v.prev = none
  room : v.external ≤ stagingMax

def State.Inv (s : State) : Prop := s.view.Inv

/-- The state after a number of steps, none where one of them stops. -/
def run : Nat → State → Option State
  | 0, s => some s
  | n + 1, s =>
    match step s with
    | .next t => run n t
    | _ => none

/-- A safe run: no step stops, and the invariant holds at every state of it. -/
def Safe (s : State) : Prop := ∀ n, ∃ t, run n s = some t ∧ t.Inv

end Sys2Proof.Machine
end

