-- ==== Sys2Proof/Certificates/Slice0/Obligations.lean ====
section
/-! DEFINITION. The statements for the provers, with the vocabulary they share: the tables of register-write commands, when such a
command is taken, and what it leaves. -/

namespace Sys2Proof.Claims

open Sys2Proof Sys2Proof.Machine

/-! Register-write commands. -/

/-- Words written to consecutive registers. -/
def words (addr : Nat) (ws : List Word) : List (Nat × Word) := ws.zipIdx.map fun p => (addr + 4 * p.2, p.1)

/-- A signed command in the window SEC_CMD_W (R447, R448), with its GO. -/
def signed (code : Nat) (c : SignedCmd) : List (Nat × Word) :=
  let b := signedBytes code c
  words 0x3F00 (((List.range ((b.length + 3) / 4)).map (wordAt b)).take 64) ++ [(0x3E38, 1)]

/-- A write that acts only at a boundary: no field of the register acts at the access (R7). -/
def boundaryOnly (addr : Nat) (v : Word) : Bool :=
  match regAt addr with
  | some r => addr ≠ 0x0284 && addr ≠ 0x0288 && r.w1c = 0 && r.rw = 0 && (v.toNat &&& r.imm) = 0 && stagedPart addr v
  | none => false

/-- The commands that stand for writes taken at a boundary (R37): who sends each and the words, as the register maps give them. -/
inductive StagedWrite : Instr → Who → List (Nat × Word) → Prop where
  | registerWrite (w addr v) (h : boundaryOnly addr v = true) : StagedWrite (.registerWrite w addr v) w [(addr, v)]
  | epcClrStats (w) : StagedWrite (.epcClrStats w) w [(0x0138, 0x1)]
  | seriesSubmit (w ws) : StagedWrite (.seriesSubmit w ws) w (words 0x0900 (ws.take 64) ++ [(0x0824, 0x1)])
  | refreshAll (w hold) : StagedWrite (.refreshAll w hold) w [(0x0834, if hold then 0x3 else 0x1)]
  | identHold (w hold) : StagedWrite (.identHold w hold) w [(0x0834, if hold then 0x2 else 0x0)]
  | asmClrStats (w hold) : StagedWrite (.asmClrStats w hold) w [(0x0834, if hold then 0x6 else 0x4)]
  | asmRelease (w hold) : StagedWrite (.asmRelease w hold) w [(0x0834, if hold then 0xA else 0x8)]
  | paramOverride (w v) : StagedWrite (.paramOverride w v) w [(0x0844, v)]
  | coldNext (w) : StagedWrite (.coldNext w) w [(0x0A38, 0x2)]
  | slvClrStats (w) : StagedWrite (.slvClrStats w) w [(0x0A38, 0x1)]
  | islCmdEnter (w) : StagedWrite (.islCmdEnter w) w [(0x0C34, 0x1)]
  | islCmdLeave (w) : StagedWrite (.islCmdLeave w) w [(0x0C34, 0x2)]
  | plnClrStats (w) : StagedWrite (.plnClrStats w) w [(0x0C34, 0x4)]
  | setpointWrite (w n v) (h : n < 192) : StagedWrite (.setpointWrite w n v) w [(0x1400 + n * 0x10, v)]
  | lpeClrStats (w) : StagedWrite (.lpeClrStats w) w [(0x1018, 0x1)]
  | lgcRestart (w) : StagedWrite (.lgcRestart w) w [(0x2034, 0x2)]
  | forceSet (w tag v) : StagedWrite (.forceSet w tag v) w [(0x2040, word tag), (0x2044, v), (0x2048, 0x1)]
  | forceRemove (w tag) : StagedWrite (.forceRemove w tag) w [(0x2040, word tag), (0x2048, 0x2)]
  | forceRemoveAll (w) : StagedWrite (.forceRemoveAll w) w [(0x2048, 0x3)]
  | hostTagWrite (w k tag v) (h : k < 8) : StagedWrite (.hostTagWrite w k tag v) w [(0x2060 + 8 * k, word tag), (0x2064 + 8 * k, v)]
  | lgcClrStats (w) : StagedWrite (.lgcClrStats w) w [(0x2034, 0x1)]
  | fltReset (w n) (h : n < 96) : StagedWrite (.fltReset w n) w [(0x4020 + n * 0x40, 0x10)]
  | calZero (w n) (h : n < 96) : StagedWrite (.calZero w n) w [(0x5828 + n * 0x40, 0x1)]
  | calSpan (w n) (h : n < 96) : StagedWrite (.calSpan w n) w [(0x5828 + n * 0x40, 0x2)]
  | calAccept (w n) (h : n < 96) : StagedWrite (.calAccept w n) w [(0x5828 + n * 0x40, 0x4)]
  | calDiscard (w n) (h : n < 96) : StagedWrite (.calDiscard w n) w [(0x5828 + n * 0x40, 0x8)]
  | calFactory (w n) (h : n < 96) : StagedWrite (.calFactory w n) w [(0x5828 + n * 0x40, 0x10)]
  | fchClrStats (w) : StagedWrite (.fchClrStats w) w [(0x7028, 0x1)]
  | fanRestart (w map) : StagedWrite (.fanRestart w map) w [(0x2414, map)]
  | fanClrStats (w) : StagedWrite (.fanClrStats w) w [(0x2410, 0x1)]
  | clearGroup (w g confirm) : StagedWrite (.clearGroup w g confirm) w [(0x2814, clearWord 0 g confirm)]
  | clearMeter (w m confirm) : StagedWrite (.clearMeter w m confirm) w [(0x2814, clearWord 1 m confirm)]
  | clearAll (w confirm) : StagedWrite (.clearAll w confirm) w [(0x2814, clearWord 2 0 confirm)]
  | unsAck (w) : StagedWrite (.unsAck w) w [(0x2818, 0x2)]
  | nrgClrStats (w) : StagedWrite (.nrgClrStats w) w [(0x2818, 0x1)]
  | parSwitch (w) : StagedWrite (.parSwitch w) w [(0x303C, 0x1)]
  | divClr (w) : StagedWrite (.divClr w) w [(0x303C, 0x2)]
  | parSelftest (w) : StagedWrite (.parSelftest w) w [(0x303C, 0x4)]
  | parClrStats (w) : StagedWrite (.parClrStats w) w [(0x303C, 0x8)]
  | addendWrite (w d v) (h : d < 2) : StagedWrite (.addendWrite w d v) w [(0x3514 + 4 * d, v)]
  | servoOff (w off0 off1) : StagedWrite (.servoOff w off0 off1) w [(0x3524, ptpCtrl off0 off1 false)]
  | ptpClrStats (w off0 off1) : StagedWrite (.ptpClrStats w off0 off1) w [(0x3524, ptpCtrl off0 off1 true)]
  | ptpLoadArm (w clock sec) : StagedWrite (.ptpLoadArm w clock sec) w
      [(0x3560, lo32 sec), (0x3564, hi32 sec), (0x356C, pack [(0, 1, clock), (1, 1, 1)])]
  | ptpLoadStep (w clock sec ns) : StagedWrite (.ptpLoadStep w clock sec ns) w
      [(0x3560, lo32 sec), (0x3564, hi32 sec), (0x3568, word ns), (0x356C, pack [(0, 1, clock), (2, 1, 1)])]
  | ethClrStats (w) : StagedWrite (.ethClrStats w) w [(0x345C, 0x1)]
  | canSend (w) : StagedWrite (.canSend w) w [(0x3988, 0x1)]
  | canCancel (w) : StagedWrite (.canCancel w) w [(0x3988, 0x2)]
  | canRelease (w) : StagedWrite (.canRelease w) w [(0x390C, 0x1)]
  | canSleep (w c) (h : c < 4) : StagedWrite (.canSleep w c) w [(0x3828 + c * 0x20, 0x1)]
  | canWake (w c) (h : c < 4) : StagedWrite (.canWake w c) w [(0x3828 + c * 0x20, 0x2)]
  | canClrStats (w) : StagedWrite (.canClrStats w) w [(0x3804, 0x1)]
  | clkLoadArm (w sec) : StagedWrite (.clkLoadArm w sec) w [(0x3C40, lo32 sec), (0x3C44, hi32 sec), (0x3C4C, 0x1)]
  | clkLoadStep (w sec sub) : StagedWrite (.clkLoadStep w sec sub) w
      [(0x3C40, lo32 sec), (0x3C44, hi32 sec), (0x3C48, word sub), (0x3C4C, 0x2)]
  | alarmArm (w n) (h : n < 16) : StagedWrite (.alarmArm w n) w [(0x3C9C, word (2 ^ n))]
  | alarmDisarm (w n) (h : n < 16) : StagedWrite (.alarmDisarm w n) w [(0x3C9C, word (2 ^ (16 + n)))]
  | provision (w c) : StagedWrite (.provision w c) w (signed 1 c)
  | enrol (w c) : StagedWrite (.enrol w c) w (signed 2 c)
  | enrolPub (w c) : StagedWrite (.enrolPub w c) w (signed 3 c)
  | revoke (w c) : StagedWrite (.revoke w c) w (signed 4 c)
  | deploy (w c) : StagedWrite (.deploy w c) w (signed 5 c)
  | returnModule (w c) : StagedWrite (.returnModule w c) w (signed 6 c)
  | scrap (w c) : StagedWrite (.scrap w c) w (signed 7 c)
  | secSettings (w c) : StagedWrite (.secSettings w c) w (signed 8 c)
  | tamperAck (w c) : StagedWrite (.tamperAck w c) w (signed 9 c)
  | forceClaim (w c) : StagedWrite (.forceClaim w c) w (signed 10 c)
  | debugUnlock (w c) : StagedWrite (.debugUnlock w c) w (signed 11 c)
  | dbgReq (w) : StagedWrite (.dbgReq w) w [(0x3E40, 0x1)]
  | dbgLock (w) : StagedWrite (.dbgLock w) w [(0x3E40, 0x2)]
  | dbgOpenNext (w) : StagedWrite (.dbgOpenNext w) w [(0x3E40, 0x4)]
  | attGo (w chal) : StagedWrite (.attGo w chal) w (words 0x3E90 (chal.take 4) ++ [(0x3E48, 0x1)])
  | modeCommission (w) : StagedWrite (.modeCommission w) w [(0x0204, 0x1)]
  | modeRun (w) : StagedWrite (.modeRun w) w [(0x0204, 0x2)]
  | modeTune (w) : StagedWrite (.modeTune w) w [(0x0204, 0x3)]
  | modeSafehold (w) : StagedWrite (.modeSafehold w) w [(0x0204, 0x4)]
  | startMode (w commission) : StagedWrite (.startMode w commission) w [(0x0208, if commission then 0x1 else 0x0)]
  | updOffer (w ws) : StagedWrite (.updOffer w ws) w ((0x04C4, 0x0) :: words 0x0600 (ws.take 128) ++ [(0x04C8, 0x1)])
  | updChunk (w ofs ws) : StagedWrite (.updChunk w ofs ws) w ((0x04C4, word ofs) :: words 0x0600 (ws.take 128) ++ [(0x04C8, 0x2)])
  | endOffer (w) : StagedWrite (.endOffer w) w [(0x04C8, 0x4)]
  | updAbort (w) : StagedWrite (.updAbort w) w [(0x04C8, 0x8)]
  | updSwap (w) : StagedWrite (.updSwap w) w [(0x04C8, 0x10)]
  | updConfirm (w) : StagedWrite (.updConfirm w) w [(0x04C8, 0x20)]
  | updRevert (w) : StagedWrite (.updRevert w) w [(0x04C8, 0x40)]
  | updFloor (w) : StagedWrite (.updFloor w) w [(0x04C8, 0x80)]
  | closeAll (w) : StagedWrite (.closeAll w) w [(0x0314, 0x2)]
  | mgtClrStats (w) : StagedWrite (.mgtClrStats w) w [(0x0314, 0x1)]
  | sysClrStats (w) : StagedWrite (.sysClrStats w) w [(0x0028, 0x1)]

/-- The commands that stand for one write that acts at its access (R7): who sends each, the register and the word. -/
inductive InstantWrite : Instr → Who → Nat → Word → Prop where
  | lpeHand (w) : InstantWrite (.lpeHand w) w 0x1028 0x1
  | lpeAuto (w) : InstantWrite (.lpeAuto w) w 0x1028 0x2
  | lpeAutoAll (w) : InstantWrite (.lpeAutoAll w) w 0x1028 0x3
  | lpeHandValue (w v) : InstantWrite (.lpeHandValue w v) w 0x1024 v
  | injArm (w) : InstantWrite (.injArm w) w 0x104C 0x1
  | injAbort (w) : InstantWrite (.injAbort w) w 0x104C 0x2
  | fchStart (w n) (h : n < 96) : InstantWrite (.fchStart w n) w (0x4020 + n * 0x40) 0x1
  | fchUrgent (w n) (h : n < 96) : InstantWrite (.fchUrgent w n) w (0x4020 + n * 0x40) 0x2
  | fchHand (w n) (h : n < 96) : InstantWrite (.fchHand w n) w (0x4020 + n * 0x40) 0x4
  | fchAuto (w n) (h : n < 96) : InstantWrite (.fchAuto w n) w (0x4020 + n * 0x40) 0x8
  | fchHandValue (w n v) (h : n < 96) : InstantWrite (.fchHandValue w n v) w (0x401C + n * 0x40) v
  | ptpCapture (w) : InstantWrite (.ptpCapture w) w 0x3528 0x1
  | clkCapture (w) : InstantWrite (.clkCapture w) w 0x3C20 0x1

/-- The commands that ask for a reset (R479, R484): the module (1 warm, 2 cold) or the block bits. -/
inductive ResetWrite : Instr → Who → Nat → Nat → Prop where
  | rstWarm (w) : ResetWrite (.rstWarm w) w 1 0
  | rstCold (w) : ResetWrite (.rstCold w) w 2 0
  | blockResetCp (w) : ResetWrite (.blockResetCp w) w 0 0x01
  | blockResetSolver (w) : ResetWrite (.blockResetSolver w) w 0 0x02
  | blockResetAsm (w) : ResetWrite (.blockResetAsm w) w 0 0x04
  | blockResetEth (w) : ResetWrite (.blockResetEth w) w 0 0x08
  | blockResetCan (w) : ResetWrite (.blockResetCan w) w 0 0x10
  | blockResetMgt (w) : ResetWrite (.blockResetMgt w) w 0 0x20

/-- A sender is heard in a role, with no burst of the debug port open, while the bank `b` is published, and may make these writes
(R34, R36, R44, R47, R450, R451). -/
structure Heard (s : State) (w : Who) (role : Role) (b : Bank) (ws : List (Nat × Word)) : Prop where
  inv : s.Inv
  heard : s.hears w.src = true
  who : s.whoRole w = some role
  alone : w.src = .dbg → s.burst? = none
  unlocked : w.src = .dbg → s.live.sec.locked = false
  published : s.pub = some b
  allowed : ∀ p ∈ ws, s.live.permits w.src role (.wr p.1 p.2) = true
  active : s.isActive = true ∨ ∀ p ∈ ws, isLocal p.1 = true

/-- Heard, and every write keeps the rules of its register (R39) and finds room in the staging area (R38). -/
structure Ready (s : State) (w : Who) (role : Role) (b : Bank) (ws : List (Nat × Word)) : Prop extends Heard s w role b ws where
  rules : ∀ p ∈ ws, s.writeOk b.core w.src ws p.1 p.2 = true
  room : externalStaged s.staged + ws.length ≤ stagingMax

/-- The state a transaction starts from: its number is given out; the debug port's last burst is noted (R456). -/
def begun (s : State) (w : Who) : State :=
  { (if w.src = .dbg then s.modSec fun x => { x with lastBurst := s.now } else s) with nextTxn := s.nextTxn + 1 }

/-- A transaction's writes as they are staged (R37). -/
def stagedAs (s : State) (w : Who) (role : Role) (b : Bank) (ws : List (Nat × Word)) : List Staged :=
  ws.map fun p => { txn := s.nextTxn, src := w.src, role := role, addr := p.1, val := p.2, readEpoch := b.epoch, closedAt := s.now
                    session := if w.src = .dbg then 0 else w.session }

end Sys2Proof.Claims

open Sys2Proof Sys2Proof.Machine Sys2Proof.Claims

/-! The block as a whole. -/

/-- The step takes the command at the front of the queue and runs it on the state with the queue's rest. -/
def Obligations.StepRunsTheFrontCommand : Prop :=
  ∀ c rest s, s.pending = c :: rest → step s = exec c { s with pending := rest }

/-- On an empty queue the block spends one 100 MHz cycle of 10 ns, and the queue stays empty (the model's choice, log entry 2). -/
def Obligations.AnEmptyQueueIdles : Prop :=
  ∀ s, s.pending = [] → step s = .next s.idle ∧ s.idle.now = s.now + 10 ∧ s.idle.pending = []

/-- No word of the table spells a command: the table gives its rows no bits. -/
def Obligations.NoWordSpellsACommand : Prop :=
  ∀ nbits w s, decodeTableWord nbits w = none ∧ State.withFetchWord s nbits w = s

/-- Every command, in every state, ends in a next state: no fault, no refusal. -/
def Obligations.EveryCommandCompletes : Prop := ∀ c s, ∃ t, exec c s = .next t

/-- No command touches the queue of waiting commands, and none takes time of its own. -/
def Obligations.CommandsKeepQueueAndTime : Prop := ∀ c s t, exec c s = .next t → t.pending = s.pending ∧ t.now = s.now

/-- R435: the lifecycle changes only when a signed command ends. -/
def Obligations.OnlySignedCommandsMoveTheLifecycle : Prop :=
  ∀ c s t, c ≠ .securityCommandEnd → exec c s = .next t → t.live.sec.lifecycle = s.live.sec.lifecycle

/-- R34, R35, R37, R38: whatever the state and the step, transactions keep numbers of their own and read an intact bank, a bank before
the published one stands only beside it and never while another is prepared, and the staging area holds no more than it can. -/
def Obligations.StepKeepsTheInvariant : Prop := ∀ s t, s.Inv → step s = .next t → t.Inv

/-- The machine after reset meets that invariant. -/
def Obligations.ResetMeetsTheInvariant : Prop := State.reset.Inv

/-- From any state that meets the invariant a run never stops, and meets it throughout. -/
def Obligations.RunsAreSafe : Prop := ∀ s, s.Inv → Safe s

/-! Register writes. -/

/-- R37, R38, R44: a register-write command of its own stages its words for the next boundary and is answered OK with that epoch;
nothing else changes. -/
def Obligations.RegisterWritesAreStaged : Prop :=
  ∀ c w ws s role b, StagedWrite c w ws → Ready s w role b ws → w.dur = 0 →
    exec c s = .next ({ begun s w with staged := s.staged ++ stagedAs s w role b ws }.send
      (.txn w.src .none .ok 0 b.epoch (some (s.live.epc.epoch + 1)) []))

/-- R36, R37, R44, R454: a register-write command held open for a time leaves its transaction open with its words until then, and nothing is
staged; in an open burst of the debug port its writes join the accesses that the burst keeps until its close (log entry 75), up to one more
than a transaction may hold, and nothing else happens. -/
def Obligations.RegisterWritesMayStayOpen : Prop :=
  (∀ c w ws s role b, StagedWrite c w ws → Heard s w role b ws → w.dur ≠ 0 →
    exec c s = .next { begun s w with txns := s.txns ++
      [{ id := s.nextTxn, src := w.src, role := role, readEpoch := b.epoch, acceptedAt := s.now, lastAccess := s.now
         closeAt := some (s.now + w.dur), reply := .none, accesses := ws.length, values := [], writes := ws, dropped := 0
         session := if w.src = .dbg then 0 else w.session }] }) ∧
  (∀ c w ws s t, StagedWrite c w ws → w.src = .dbg → s.hears .dbg = true → s.burst? = some t →
    exec c s = .next { (s.modSec fun x => { x with lastBurst := s.now }) with txns := s.txns.map fun x =>
      if x.id = t.id then { x with held := (x.held ++ ws.map fun p => Access.wr p.1 p.2).take 1025, lastAccess := s.now } else x })

/-- R34, R38, R44, R45, R47, R451: before the first pour, without the role's right, on a module that is not active, without room: the
command has no effect but its answer and its count. -/
def Obligations.RegisterWritesAreTurnedAway : Prop :=
  (∀ c w ws s role, StagedWrite c w ws → s.hears w.src = true → s.whoRole w = some role → (w.src = .dbg → s.burst? = none) →
    s.pub = none → exec c s = .next ((begun s w).send (.txn w.src .none .notServed 0 0 none []))) ∧
  (∀ c w ws s role b, StagedWrite c w ws → s.hears w.src = true → s.whoRole w = some role → (w.src = .dbg → s.burst? = none) →
    s.pub = some b → ((∃ p ∈ ws, s.live.permits w.src role (.wr p.1 p.2) = false) ∨ (w.src = .dbg ∧ s.live.sec.locked = true)) →
    exec c s = .next (((begun s w).modSec fun x => { x with denied := satAdd 8 x.denied 1 }).send
      (.txn w.src .none .denied 0 b.epoch none []))) ∧
  (∀ c w ws s role b, StagedWrite c w ws → s.hears w.src = true → s.whoRole w = some role → (w.src = .dbg → s.burst? = none) →
    s.pub = some b → (∀ p ∈ ws, s.live.permits w.src role (.wr p.1 p.2) = true) → (w.src = .dbg → s.live.sec.locked = false) →
    s.isActive = false → (∃ p ∈ ws, isLocal p.1 = false) →
    exec c s = .next ((begun s w).send (.txn w.src .none .notActive 0 b.epoch none []))) ∧
  (∀ c w ws s role b, StagedWrite c w ws → Heard s w role b ws → w.dur = 0 → stagingMax < externalStaged s.staged + ws.length →
    exec c s = .next (((begun s w).modEpc fun e => { e with stgFull := sat32 e.stgFull }).send
      (.txn w.src .none .full 0 b.epoch none []))) ∧
  (∀ c w ws s, StagedWrite c w ws → (s.hears w.src = false ∨ s.whoRole w = none) → exec c s = .next s)

/-- R6, R39, R42: a write that breaks its register's rule is dropped, counted and noted in SYS_WERR_AT, and the answer says PARTIAL; a
write to an address with no writable register is ignored and counted. -/
def Obligations.WrongWritesAreDropped : Prop :=
  (∀ c w a v s role b, StagedWrite c w [(a, v)] → Heard s w role b [(a, v)] → w.dur = 0 →
    externalStaged s.staged + 1 ≤ stagingMax → s.writeOk b.core w.src [(a, v)] a v = false →
    exec c s = .next (((begun s w).werr a w.src .value).send (.txn w.src .none .partialDrop 1 b.epoch none []))) ∧
  (∀ w a v s role b, regAt a = none → Heard s w role b [(a, v)] → w.dur = 0 →
    exec (.registerWrite w a v) s = .next (((begun s w).werr (a % 65536) w.src (if isReadOnly a then .readOnly else .reserved)).send
      (.txn w.src .none .ok 0 b.epoch none [])))

/-- R7, R37: writes that act at their access act at once, are passed on to a standby where a pair runs (R355), stage nothing and are
answered OK; a W1C write clears what it marks. -/
def Obligations.InstantWritesAct : Prop :=
  (∀ c w a v s role b, InstantWrite c w a v → Heard s w role b [(a, v)] → w.dur = 0 →
    exec c s = .next (
      let s1 := (begun s w).immediate w.src s.nextTxn a v
      let s2 := if s1.paired && s1.live.par.gate && s1.linkRuns then s1.send (.coupling 6 [srcCode w.src, a, v.toNat]) else s1
      s2.send (.txn w.src .none .ok 0 b.epoch none []))) ∧
  (∀ w map s role b, Heard s w role b [(0x3C90, map)] → w.dur = 0 →
    exec (.alarmFiredClear w map) s = .next (((begun s w).modClk fun c => { c with fired := clearBits c.fired map }).send
      (.txn w.src .none .ok 0 b.epoch none [])))

/-- R479, R484: RST_CMD and RST_BLOCK ask for their reset, due 1 ms later; a second module reset in that time keeps the deeper of the
two. -/
def Obligations.ResetWritesArePending : Prop :=
  (∀ c w m bits s role b a, ResetWrite c w m bits → Heard s w role b [(a, word (m + bits))] → a = (if m = 0 then 0x0288 else 0x0284) →
    w.dur = 0 → exec c s = .next (((begun s w).requestResets m bits 0).send (.txn w.src .none .ok 0 b.epoch none []))) ∧
  (∀ (s : State) d, s.requestResets 0 0 d = s) ∧
  (∀ (s : State) m d, m ≠ 0 → s.requestResets m 0 d = s.modPwr fun p => { p with pendModule := match p.pendModule with
      | some r => some { r with module := max r.module m }
      | none => some { module := m, detail := d, due := s.now + 1000000 } }) ∧
  (∀ (s : State) bits d, bits ≠ 0 → s.requestResets 0 bits d = s.modPwr fun p => { p with
      pendBlocks := p.pendBlocks ++ [{ blocks := bits, due := s.now + 1000000 }] })

/-! When the device's own events act: the conditions the rules give, one by one. -/

namespace Sys2Proof.Claims

open Sys2Proof Sys2Proof.Machine

/-- R17: at a boundary, after 3 epochs without liveness, not yet marked. -/
abbrev DpAbsentDue (s : State) : Prop := s.atBoundary = true ∧ s.live.epc.dpAbsent = false ∧ 3 ≤ s.live.epc.liveMiss
/-- R22: the crystal was in use, the module is supplied. -/
abbrev CrystalInUse (s : State) : Prop := s.live.sys.reserveOsc = false ∧ s.live.pwr.powered = true
/-- R22: the clocks as the loss of the crystal leaves them, journalled. -/
def clocksLost (s : State) : State := (s.modSys fun x => { x with
  xtalOk := false, reserveOsc := true, cruRun := false, eth0Clk := false, eth1Clk := false, cplClk := false }).journal 8 (ev1 0)
/-- R23: both ports down, their receive buffers empty. -/
def portsDown (s : State) : State := s.modEth fun e => { e with
  port0 := { e.port0 with up := false, gig := false, bufPtp := 0, bufOther := 0 }
  port1 := { e.port1 with up := false, gig := false, bufPtp := 0, bufOther := 0 } }
/-- R479: 50 µs after the last release, BOOT not yet begun. -/
abbrev BootDue (s : State) (t : Nat) : Prop := s.live.pwr.releasedAt = some t ∧ s.live.pwr.bootStarted = false ∧ t + 50000 ≤ s.now
/-- BOOT is running. -/
abbrev Booting (s : State) : Prop := s.live.pwr.mode = .boot ∧ s.live.pwr.bootStarted = true ∧ s.live.pwr.inReset = false
/-- LOAD is running. -/
abbrev Loading (s : State) : Prop := s.live.pwr.mode = .load ∧ s.live.pwr.inReset = false
/-- LOAD as it looks at the flash: the state shown, the fast interface noted, no attempt made yet. -/
def loadBegun (s : State) : State := s.modCst fun c => { c with
  state := 1, quad := decide (c.sfdp = 2), tried0 := false, tried1 := false, err0 := {}, err1 := {} }
/-- The opening epoch of a plan cycle, not yet opened, no solve running. -/
abbrev OpeningDue (s : State) : Prop := s.opens = true ∧ s.live.asm.cycle ≠ some s.live.epc.epoch ∧ s.live.slv.run = none
/-- R120: the horizon step of this boundary is a new one. -/
abbrev HorizonStepDue (s : State) : Prop :=
  s.atBoundary = true ∧ s.live.epc.casting = true ∧ s.live.cst.optimiser = true ∧ s.live.cst.t0 (s.bound / 32768) ≠ s.live.asm.stepStart
/-- The free values that the end of a step may use are drawn (log entry 19). -/
def drawnFor (s : State) : State := { s with freeCtr := s.freeCtr + 8 * s.live.cst.substations }
/-- R125: the time between saves has passed. -/
abbrev SaveDue (s : State) : Prop :=
  s.live.epc.casting = true ∧ s.live.cst.optimiser = true ∧ s.live.asm.savedAt + s.live.cst.saveMin * 60000000000 ≤ s.now
/-- R158: DEADLINE epochs after the cycle opened. -/
abbrev DeadlinePassed (s : State) (r : SolveRun) : Prop :=
  s.live.slv.run = some r ∧ r.openedAt + s.live.cst.deadline * s.live.epc.periodMs * 1000000 ≤ s.now
/-- R178: HOLD_END has come at this boundary. -/
abbrev HoldEndDue (s : State) (r : PlanRec) : Prop :=
  s.live.pln.record = some r ∧ s.atBoundary = true ∧ s.live.pln.holdDone = false ∧ r.holdEnd * 32768 ≤ s.bound
/-- R188: a loss that has lasted LOSS_MS. -/
abbrev LossConfirmed (s : State) (b : Bytes) : Prop :=
  s.live.pln.gridLost = false ∧ s.live.epc.casting = true ∧ s.live.cst.islGlobal = some b
    ∧ s.live.pln.lossSince.any (fun d => decide (d.2 + u16 b 2 * 1000000 ≤ s.now)) = true
/-- R189: the island is to be entered at this boundary. -/
abbrev EnterDue (s : State) : Prop := s.atBoundary = true ∧ s.live.pln.enterDue = true ∧ s.live.pwr.mode.islands = true
/-- R188: the detectors have been healthy for RESTORE_S. -/
abbrev GridHealthy (s : State) (b : Bytes) (t : Nat) : Prop :=
  s.live.pln.gridLost = true ∧ s.live.cst.islGlobal = some b ∧ s.live.pln.healthySince = some t ∧ t + u16 b 10 * 1000000000 ≤ s.now
/-- R191: the island is to be left at this boundary. -/
abbrev LeaveDue (s : State) : Prop := s.atBoundary = true ∧ s.live.pln.leaveDue = true ∧ s.live.pln.island = true
/-- R191: the time to the next group has passed. -/
abbrev GroupDue (s : State) (t : Nat) : Prop :=
  s.live.pln.restoreAt = some t ∧ s.live.pln.island = false ∧ s.live.pln.shed.isEmpty = false ∧ t ≤ s.now
/-- R215: the samples before the injection are taken. -/
abbrev PreSamplesTaken (s : State) : Prop := s.live.lpe.injState = 1 ∧ s.live.lpe.injPre ≤ s.live.lpe.injEvals
/-- R215: the injection has run its length. -/
abbrev InjectionOver (s : State) : Prop := s.live.lpe.injState = 2 ∧ s.live.lpe.injTotal ≤ s.live.lpe.injDone
/-- R223, R228: a logic cycle is due and not past its watchdog. -/
abbrev CycleRuns (s : State) (us : Nat) : Prop := s.logicRuns = true ∧ s.cycleDue = true ∧ us < 4 * s.live.cst.cycleMaxUs
/-- R194, R195: the engine runs and the output instant of its last tick, 500 µs after it, has come. -/
abbrev OutputsDue (s : State) : Prop :=
  s.loopsRun = true ∧ ∃ t, s.live.lpe.tickAt = some t ∧ t + 500000 ≤ s.now + s.timerSlack
/-- R239: an on-line change is offered while a casting runs. -/
abbrev ChangeOffered (s : State) : Prop := s.live.lgc.offered = true ∧ s.live.epc.casting = true
/-- R240: the epoch of a change has come. -/
abbrev ChangeDue (s : State) (e : Nat) (l : List Sect) (seq : Nat) (d : Bytes) : Prop :=
  s.live.lgc.change = some (e, l, seq, d) ∧ s.atBoundary = true ∧ s.live.epc.epoch = e

end Sys2Proof.Claims

/-! Epochs, boot and load. -/

/-- R16, R28, R29, R34, R35, R37: at a boundary the counter advances by one, the pour of the new epoch begins with what the machine holds, the
bank before the published one is reclaimed with the transactions that read it; the boundary falls a period after the last, to within the
timer's tolerance (the model's choice, log entry 81), or, in a module that has still to lock to its pair, with the EPOCH frame; a command that
comes sooner has no effect; a reset that a commit asserts ends the run instead. The end of the pour publishes the prepared bank, keeps the one before, notes the time taken; past 120 µs it is late, journalled as an alarm. -/
def Obligations.TheBoundaryAdvances : Prop :=
  (∀ s, s.boundaryDue = true → (∀ x ∈ s.staged, s.now ≤ x.closedAt) →
    ∃ t, exec .epochBoundary s = .next t ∧ t.live.epc.epoch = s.live.epc.epoch + 1 ∧ t.live.epc.pouring = true
      ∧ t.prep = some { epoch := t.live.epc.epoch, core := t.live } ∧ t.pub = s.finishPour.pub ∧ t.prev = none
      ∧ t.txns = s.txns.filter (fun x => x.readEpoch = (s.finishPour.pub.map Bank.epoch).getD 0)
      ∧ externalStaged t.staged = externalStaged s.staged ∧ t.pending = s.pending ∧ t.now = s.now) ∧
  (∀ s, s.boundaryDue = true → ∃ t, exec .epochBoundary s = .next t ∧ t.prev = none
      ∧ (t.live.epc.epoch = s.live.epc.epoch + 1 ∨ t.pub = none)) ∧
  (∀ s, s.boundaryDue = false → exec .epochBoundary s = .next s) ∧
  (∀ s : State, s.boundaryDue = true ↔ (s.runs = true ∧ ((s.linkRuns = true ∧ s.follows = true ∧ s.live.par.adopted = false)
    ∨ s.live.epc.boundaryAt + s.live.epc.periodMs * 1000000 ≤ s.now + s.timerSlack))) ∧
  (∀ s b, s.prep = some b → s.now - s.live.epc.boundaryAt ≤ 120000 →
    exec .pourComplete s = .next { (s.modEpc fun e => { e with
      served := true, pouring := false, pourMax := min 65535 (max e.pourMax ((s.now - s.live.epc.boundaryAt) / 10)) }) with
      prev := s.pub, pub := some b, prep := none }) ∧
  (∀ s b, s.prep = some b → 120000 < s.now - s.live.epc.boundaryAt →
    exec .pourComplete s = .next { ((s.modEpc fun e => { e with
      served := true, pouring := false, pourMax := min 65535 (max e.pourMax ((s.now - s.live.epc.boundaryAt) / 10))
      pourLate := true }).journal 0 (leBytes 8 b.epoch) true) with prev := s.pub, pub := some b, prep := none }) ∧
  (∀ s, s.prep = none → exec .pourComplete s = .next s)

/-- R37, R41, R109, R237, R246, R449, R505, R543: a write staged alone before the boundary acts in its commit, after its source's EPC_COMMIT has taken
the epoch; of two transactions that write one register outside the collision groups the last to close wins and one write is counted as
overwritten; where two write one collision group other than the input window, neither acts. SYS_WERR_AT shows the last counted write in the order of
the closings, whether it is counted at its access or at its commit. -/
def Obligations.StagedWritesCommit : Prop :=
    (∀ (s : State) (x : Staged), s.staged = [x] → x.closedAt < s.now → s.live.epc.pouring = true → collideGroup x.src x.addr ≠ 1 →
    s.commitStaged = (let a := { s with staged := [] }.commitCounts [x] [] 0
      ((a.applyWrite x.src x.role x.session x.addr x.val).orderWerr a x).commitTail [x] [])) ∧
  (∀ (s : State) (x y : Staged), s.staged = [x, y] → x.closedAt < y.closedAt → y.closedAt < s.now → s.live.epc.pouring = true →
    x.addr = y.addr → x.txn ≠ y.txn → collideGroup x.src x.addr = 0 → collideGroup y.src y.addr = 0 →
    s.commitStaged = (let a := { s with staged := [] }.commitCounts [x, y] [] 1
      ((a.applyWrite y.src y.role y.session y.addr y.val).orderWerr a y).commitTail [y] [])) ∧
  (∀ (s : State) (x y : Staged), s.staged = [x, y] → x.closedAt < s.now → y.closedAt < s.now → x.txn ≠ y.txn →
    2 ≤ collideGroup x.src x.addr → collideGroup y.src y.addr = collideGroup x.src x.addr →
    ∃ ws, (ws = [x, y] ∨ ws = [y, x]) ∧
      s.commitStaged = (({ s with staged := [] }.commitCounts ws [collideGroup x.src x.addr] 0).commitTail [] [])) ∧
  (∀ (s t : State) (x : Staged), t.live.sys.werr ≤ s.live.sys.werr → t.orderWerr s x = t) ∧
  (∀ (s t : State) (x : Staged), s.live.sys.werr < t.live.sys.werr → x.closedAt * 4 + srcCode x.src < s.live.sys.werrAt.order →
    t.orderWerr s x = t.modSys fun y => { y with werrAt := s.live.sys.werrAt }) ∧
  (∀ (s t : State) (x : Staged), s.live.sys.werr < t.live.sys.werr → s.live.sys.werrAt.order ≤ x.closedAt * 4 + srcCode x.src →
    t.orderWerr s x = t.modSys fun y => { y with werrAt := { y.werrAt with order := x.closedAt * 4 + srcCode x.src } })

/-- R17, R22, R23, R181, R556: liveness staged in a run shows the control processor running and its ports' buffers taken; three epochs without it
mark the data plane absent, a cause of DEGRADED where a casting runs. Where the crystal is lost the on-die oscillator takes over, the ports, the
crucibles and the coupling link stop and stay down, the optimiser's window ends, CLOCK is set, the loss is journalled; REFCLK_OUT is low without
supply, in a module reset, before BOOT and in BACKUP, else it carries the crystal, or the on-die oscillator while that is lost. -/
def Obligations.LivenessAndCrystalAreWatched : Prop :=
  (∀ s, s.runs = true → exec .livenessStage s = .next (((s.modPwr fun p => { p with cpRunning := true }).modEth fun e => { e with
      port0 := { e.port0 with bufPtp := 0, bufOther := 0 }, port1 := { e.port1 with bufPtp := 0, bufOther := 0 } }).modEpc fun e =>
      { e with liveStaged := true })) ∧
  (∀ s, s.runs = false → exec .livenessStage s = .next s) ∧
  (∀ s, DpAbsentDue s → s.live.epc.casting = true → exec .dpAbsent s = .next
    (((s.modEpc fun e => { e with dpAbsent := true }).modPln fun p => { p with cDpAbsent := true }).settleBoundary.canSettle.repour)) ∧
  (∀ s, DpAbsentDue s → s.live.epc.casting = false → exec .dpAbsent s = .next
    ((s.modEpc fun e => { e with dpAbsent := true }).canSettle.repour)) ∧
  (∀ s, ¬ DpAbsentDue s → exec .dpAbsent s = .next s) ∧
  (∀ s, CrystalInUse s → exec .crystalLoss s = .next (
      let a := portsDown (clocksLost s)
      let b := if a.paired && a.live.par.linkOk then a.losePath false else a
      ((b.modPln fun p => { p with cClock := true }).abandonWindow).canSettle)) ∧
  (∀ s : State, (clocksLost s).live.mgt.jnext = s.live.mgt.jnext + 1
    ∧ (clocksLost s).live.mgt.journal.getLast?.map (fun r => (r.event, r.data.take 1)) = some (8, [0])) ∧
  (∀ s p up g, s.live.sys.reserveOsc = true → p < 2 → ∃ t, exec (.linkChange p up g) s = .next t ∧ (t.live.eth.port p).up = false) ∧
  (∀ s, s.live.sys.reserveOsc = true → exec (.pathRestored false) s = .next s) ∧
  (∀ s : State, s.refclkOut = if s.live.pwr.powered = false ∨ s.live.pwr.inReset = true ∨ s.live.pwr.bootStarted = false ∨ s.live.pwr.mode = .backup
    then .low else if s.live.sys.reserveOsc then .onDie else .crystal) ∧
  (∀ s, CrystalInUse s → s.live.pwr.inReset = false → s.live.pwr.bootStarted = true → s.live.pwr.mode ≠ .backup →
    ∃ t, exec .crystalLoss s = .next t ∧ s.refclkOut = .crystal ∧ t.refclkOut = .onDie) ∧
  (∀ s, CrystalInUse s → ∃ t, exec .crystalLoss s = .next t ∧ t.staged = s.staged ∧ t.live.lpe = s.live.lpe ∧ t.live.lgc = s.live.lgc
    ∧ t.live.fch = s.live.fch ∧ t.live.fan = s.live.fan ∧ t.live.nrg = s.live.nrg ∧ t.live.clk = s.live.clk ∧ t.live.sec = s.live.sec
    ∧ t.live.upd = s.live.upd ∧ t.live.cst = s.live.cst ∧ t.live.sys.reserveOsc = true ∧ t.live.sys.xtalOk = false
    ∧ t.live.sys.cruRun = false ∧ t.live.sys.eth0Clk = false ∧ t.live.sys.eth1Clk = false ∧ t.live.sys.cplClk = false
    ∧ t.live.eth.port0.up = false ∧ t.live.eth.port1.up = false ∧ t.live.pln.cClock = true
    ∧ t.live.epc.epoch = s.live.epc.epoch ∧ t.pub = s.pub ∧ t.txns = s.txns) ∧
  (∀ s, ¬ CrystalInUse s → exec .crystalLoss s = .next s)

/-- R437, R440, R455, R463, R474, R479, R495: BOOT starts 50 µs after the last release: the strap is read (an invalid ratio counts as code 2), the
reset's count advances, the clocks that BOOT starts later are off. It ends in SAFEHOLD for a scrapped module, a wrong image, an active tamper
input in an armed lifecycle or a root secret that cannot be had; else it goes on to LOAD, or to a bare run where the strap says so. -/
def Obligations.BootRuns : Prop :=
  (∀ ratio s t, BootDue s t → ∃ u, exec (.bootStart ratio) s = .next u ∧ u.live.pwr.mode = .boot ∧ u.live.pwr.bootStarted = true
    ∧ u.live.pwr.strapCode = (strapOf ratio).getD 2 ∧ u.live.pwr.strapValid = (strapOf ratio).isSome ∧ u.live.pwr.strapRead = true
    ∧ u.live.pwr.warmCount = (if s.live.pwr.resetCold then s.live.pwr.warmCount else satAdd 16 s.live.pwr.warmCount 1)
    ∧ u.live.pwr.coldCount = (if s.live.pwr.resetCold then satAdd 16 s.live.pwr.coldCount 1 else s.live.pwr.coldCount)
    ∧ u.live.sys.xtalOk = (!s.live.sys.reserveOsc) ∧ u.live.sys.cruRun = false ∧ u.live.sys.canClk = false
    ∧ u.live.par.wdFired = false ∧ u.pub = s.pub ∧ u.prep = s.prep ∧ u.txns = s.txns ∧ u.staged = s.staged
    ∧ u.live.epc = s.live.epc ∧ u.live.asm = s.live.asm ∧ u.live.slv = s.live.slv ∧ u.live.pln = s.live.pln ∧ u.live.lpe = s.live.lpe
    ∧ u.live.lgc = s.live.lgc ∧ u.live.fch = s.live.fch ∧ u.live.fan = s.live.fan ∧ u.live.nrg = s.live.nrg ∧ u.live.eth = s.live.eth
    ∧ u.live.ptp = s.live.ptp ∧ u.live.can = s.live.can ∧ u.live.clk = s.live.clk ∧ u.live.sec = s.live.sec) ∧
  (∀ ratio s, (∀ t, ¬ BootDue s t) → exec (.bootStart ratio) s = .next s) ∧
  (∀ a b c s, Booting s → s.live.sec.lifecycle = .scrapped → exec (.bootEnd a b c) s = .next (s.bootFails 4)) ∧
  (∀ b c s, Booting s → s.live.sec.lifecycle ≠ .scrapped → exec (.bootEnd false b c) s = .next (s.bootFails 1)) ∧
  (∀ b c s, Booting s → s.live.sec.armed = true → (s.live.clk.active0 = true ∨ s.live.clk.active1 = true) →
    exec (.bootEnd true b c) s = .next s.tamperBoot) ∧
  (∀ b c s, Booting s → s.live.sec.lifecycle ≠ .scrapped → ¬ (s.live.sec.armed = true ∧ (s.live.clk.active0 = true ∨ s.live.clk.active1 = true)) →
    (b = false ∨ s.live.sec.helperOk = false) → exec (.bootEnd true b c) s = .next (s.bootFails 2)) ∧
  (∀ c s, Booting s → s.live.sec.lifecycle ≠ .scrapped → ¬ (s.live.sec.armed = true ∧ (s.live.clk.active0 = true ∨ s.live.clk.active1 = true)) →
    s.live.sec.helperOk = true → ∃ x u, exec (.bootEnd true true c) s = .next (
        let r := (s.modSec fun _ => x).modUpd fun _ => u
        if s.live.pwr.strapCode.testBit 1 then r.startBare 3 else r.enterLoad)
      ∧ x.lifecycle = s.live.sec.lifecycle ∧ x.keysOk = true ∧ x.openNext = false
      ∧ x.debug = (if s.live.sec.openNext && s.live.sec.lifecycle ≠ .deployed then 2 else if s.live.sec.lifecycle = .manufacture then 1 else 0)
      ∧ u.lock = s.live.upd.lock ∧ u.runImg = s.live.upd.runImg) ∧
  (∀ a b c s, ¬ Booting s → exec (.bootEnd a b c) s = .next s)

/-- R50, R76 to R81, R464: how LOAD ends: no flash, no valid slot, a sealed material after a tamper, else an attempt on the chosen slot, and
on the other where the first fails and the other is not empty. -/
def Obligations.LoadEnds : Prop :=
  (∀ s, Loading s → s.live.cst.sfdp = 0 → exec .loadComplete s = .next ((loadBegun s).noAttempt cNoFlash)) ∧
  (∀ s, Loading s → s.live.cst.sfdp ≠ 0 → (loadBegun s).live.cst.chosen = none → exec .loadComplete s = .next ((loadBegun s).noAttempt cEmpty)) ∧
  (∀ s slot, Loading s → s.live.cst.sfdp ≠ 0 → (loadBegun s).live.cst.chosen = some slot →
    s.live.sec.ownerHeld = true → s.live.sec.ackPending = true →
    exec .loadComplete s = .next ((((loadBegun s).modCst fun c => { c.setErr slot { code := cSealedHold } with
      tried0 := decide (slot = 0), tried1 := decide (slot ≠ 0) }).noteErr 4 slot { code := cSealedHold }).loadFails)) ∧
  (∀ s slot x, Loading s → s.live.cst.sfdp ≠ 0 → (loadBegun s).live.cst.chosen = some slot →
    (s.live.sec.ownerHeld = false ∨ s.live.sec.ackPending = false) → ((loadBegun s).tryCasting slot).2 = some x →
    exec .loadComplete s = .next (((loadBegun s).tryCasting slot).1.install slot x.1 x.2)) ∧
  (∀ s slot r, Loading s → s.live.cst.sfdp ≠ 0 → (loadBegun s).live.cst.chosen = some slot →
    (s.live.sec.ownerHeld = false ∨ s.live.sec.ackPending = false) → (loadBegun s).tryCasting slot = (r, none) →
    slotEmpty (r.live.cst.flash (1 - slot)) = true → exec .loadComplete s = .next r.loadFails) ∧
  (∀ s slot r, Loading s → s.live.cst.sfdp ≠ 0 → (loadBegun s).live.cst.chosen = some slot →
    (s.live.sec.ownerHeld = false ∨ s.live.sec.ackPending = false) → (loadBegun s).tryCasting slot = (r, none) →
    slotEmpty (r.live.cst.flash (1 - slot)) = false → exec .loadComplete s = .next (match (r.tryCasting (1 - slot)).2 with
      | some x => (r.tryCasting (1 - slot)).1.install (1 - slot) x.1 x.2
      | none => (r.tryCasting (1 - slot)).1.loadFails)) ∧
  (∀ s, ¬ Loading s → exec .loadComplete s = .next s)

/-! Assembler, solver and plan. -/

/-- R25, R101, R117, R120, R125, R136: an opening epoch, which installs the factors that are ready, the ladles of its fill order, the identification
at a horizon step, with the active unit's values where this one follows it, and its own where they have not come by the next boundary (the model's choice, log
entry 82); the parameters saved. -/
def Obligations.TheAssemblerRuns : Prop :=
  (∀ s, OpeningDue s → exec .openingEpoch s = .next (
    let s1 := if s.live.cst.pairInUse = 0 ∨ !s.follows ∨ s.live.par.gate then s.yspOpening else s
    let s2 := if s1.poursFallback then
        (s1.pourRecord (s1.fallbackRecord s1.live.epc.epoch (s1.live.cst.t0 (s1.bound / 32768))) s1.live.pln.causes).yspPour else s1
    let s3 := s2.installFactors
    if s3.optRuns then s3.openCycle.repour
    else (s3.modAsm fun a => { a with cycle := some s3.live.epc.epoch, todo := [] }).repour)) ∧
  (∀ s, ¬ OpeningDue s → exec .openingEpoch s = .next s) ∧
  (∀ s e x l, s.live.asm.cycle = some e → s.live.asm.todo = x :: l → (s.live.asm.ladles ≠ [] ∨ s.follows = false) →
    exec .ladleReady s = .next (s.nextLadle s.live.asm.ladles.isEmpty)) ∧
  (∀ s e x l v, s.live.asm.cycle = some e → s.live.asm.todo = x :: l → s.live.asm.ladles = [] → s.follows = true →
    s.live.par.snapIn = some (e, v) → exec .ladleReady s = .next ((s.modAsm fun a => { a with
      snapshot := v, states := (List.range s.live.cst.substations).map fun i => (i, s.startStates v i) }).nextLadle true)) ∧
  (∀ s e x l, s.live.asm.cycle = some e → s.live.asm.todo = x :: l → s.live.asm.ladles = [] → s.follows = true →
    (∀ v, s.live.par.snapIn ≠ some (e, v)) → e < s.live.epc.epoch →
    exec .ladleReady s = .next ((s.journal 0 (leBytes 8 e)).nextLadle true)) ∧
  (∀ s e x l, s.live.asm.cycle = some e → s.live.asm.todo = x :: l → s.live.asm.ladles = [] → s.follows = true →
    (∀ v, s.live.par.snapIn ≠ some (e, v)) → s.live.epc.epoch ≤ e → exec .ladleReady s = .next s) ∧
  (∀ s, (s.live.asm.cycle = none ∨ s.live.asm.todo = []) → exec .ladleReady s = .next s) ∧
  (∀ s, HorizonStepDue s → s.follows = false → exec .horizonStepBoundary s = .next
    (((drawnFor s).sendSources 1 (s.stepValues s.stepAverages)).endStep (s.stepValues s.stepAverages)
      (s.live.cst.t0 (s.bound / 32768))).repour) ∧
  (∀ s, HorizonStepDue s → s.follows = true → s.live.asm.stepDue = none →
    exec .horizonStepBoundary s = .next (s.modAsm fun a => { a with stepDue := some s.live.epc.epoch }).repour) ∧
  (∀ s e v, HorizonStepDue s → s.follows = true → s.live.asm.stepDue = some e → s.live.par.stepIn = some (e, v) →
    exec .horizonStepBoundary s = .next ((drawnFor s).endStep v (s.live.cst.t0 (s.bound / 32768))).repour) ∧
  (∀ s e, HorizonStepDue s → s.follows = true → s.live.asm.stepDue = some e → (∀ v, s.live.par.stepIn ≠ some (e, v)) →
    exec .horizonStepBoundary s = .next ((drawnFor s).endStep (s.stepValues s.stepAverages) (s.live.cst.t0 (s.bound / 32768))).repour) ∧
  (∀ (s : State) v start, s.endStep v start = (let a := if s.live.asm.stepStart = 0 then s else s.extendHistory v
    ((List.range a.live.cst.substations).foldl (fun s i => (s.identify v i).advanceSub v i) a).modAsm fun k => { k with
      stepStart := start, stepAcc := [], stepFaults := [], stepDue := none })) ∧
  (∀ s, ¬ HorizonStepDue s → exec .horizonStepBoundary s = .next s) ∧
  (∀ s, SaveDue s → ∃ sets, exec .paramSave s = .next (s.modAsm fun a => { a with
      savedAt := s.now, savedDigest := s.live.cst.digest, savedSets := sets })
    ∧ ∀ p q, (p, q) ∈ s.live.asm.params → (q.est ≠ [] ∨ q.inUse ≠ []) → (p, q.est.foldl (fun t o => tset t o.1 o.2) q.inUse) ∈ sets) ∧
  (∀ s, ¬ SaveDue s → exec .paramSave s = .next s)

/-- R150, R151, R158, R162 to R164: the crucibles are tested before the first pass, entries start and end on their lanes, a fault retires a
crucible and the pass starts again, the deadline ends the run. -/
def Obligations.TheSolverRuns : Prop :=
  (∀ bad s r, s.live.slv.run = some r → r.katDone = false → r.requestedAt ≠ none →
    exec (.knownAnswerTest bad) s = .next (
      let t := ([32, 33, 34, 35] ++ List.range 32).foldl (fun (s : State) p => s.testCrucible bad p) s
      if t.live.slv.enough t.live.cst.lanes then
        (t.modSlv fun x => { x with run := x.run.map fun r => { r with katDone := true } }).nextPass 0
      else t.noLanes)) ∧
  (∀ bad s, (∀ r, s.live.slv.run = some r → r.katDone = true ∨ r.requestedAt = none) → exec (.knownAnswerTest bad) s = .next s) ∧
  (∀ l s, (s.entryReady l).isSome = true → exec (.entryStart l) s = .next (s.modSlv fun x => { x with run := x.run.map fun r =>
      { r with flight := r.flight ++ [l], firstEntryAt := some (r.firstEntryAt.getD s.now) } })) ∧
  (∀ l s, s.entryReady l = none → exec (.entryStart l) s = .next s) ∧
  (∀ l ce s r e, s.live.slv.run = some r → r.flight.contains l = true → (s.live.cst.laneList l r.pass)[tget r.lanePos l 0]? = some e →
    exec (.entryEnd l ce) s = .next (
      let p := s.live.slv.phys l
      let s1 := s.modSlv fun x => { x with ce := tset x.ce p (satAdd 16 (tget x.ce p 0) ce) }
      let s2 := if r.pass = 3 then
          let y := roundEntry s1.live.cst s1.live.asm s1.live.slv r e
          s1.modSlv fun x => { (x.noteSat y.2) with run := some { y.1 with sat := y.1.sat || y.2 } }
        else (s1.factEntry r e).factSat
      (s2.modSlv fun x => { x with run := x.run.map fun q => q.advanceLane l e }).afterEntry)) ∧
  (∀ l ce s, (∀ r, s.live.slv.run = some r → r.flight.contains l = false) → exec (.entryEnd l ce) s = .next s) ∧
  (∀ s r, DeadlinePassed s r → exec .solveDeadline s = .next s.deadlineOutcome) ∧
  (∀ s, (∀ r, ¬ DeadlinePassed s r) → exec .solveDeadline s = .next s) ∧
  (∀ l ecc bad s r, s.live.slv.run = some r → r.pass ≠ 0 → l < s.live.cst.lanes → exec (.crucibleFault l ecc bad) s = .next (
      let p := s.live.slv.phys l
      let s1 := if ecc then s else s.modSlv fun x => { x with residue := tset x.residue p (satAdd 8 (tget x.residue p 0) 1) }
      let s2 := (s1.retire p (if ecc then 3 else 2)).retest l bad
      if s2.live.slv.enough s2.live.cst.lanes then
        s2.modSlv fun x => { x with hubSpare := if r.pass = 1 then {} else x.hubSpare, run := some (r.startPass s2.live.cst r.pass) }
      else s2.noLanes)) ∧
  (∀ l ecc bad s, (∀ r, s.live.slv.run = some r → r.pass = 0 ∨ s.live.cst.lanes ≤ l) → exec (.crucibleFault l ecc bad) s = .next s)

/-- R178 to R180, R188, R189, R191, R192: the record's hold ends, a grid loss is confirmed, ISLAND is entered and left at boundaries, shed groups
come back; entering counts the entry and stops a restoration, leaving ends a commanded stay. -/
def Obligations.ThePlanRuns : Prop :=
  (∀ s r, HoldEndDue s r → exec .holdEnd s = .next ((s.modPln fun p => { p with holdDone := true }).setPoints.yspHoldEnd).repour) ∧
  (∀ s, (∀ r, ¬ HoldEndDue s r) → exec .holdEnd s = .next s) ∧
  (∀ s b, LossConfirmed s b → exec .gridLossConfirm s = .next (s.modPln fun p => { p with
      gridLost := true, enterDue := s.live.cst.islUsable && !p.island, leaveDue := false, restoreAt := none
      gridAlarm := p.gridAlarm || !s.live.cst.islUsable })) ∧
  (∀ s, s.live.pln.gridLost = false → s.live.epc.casting = true → s.live.cst.islGlobal = none →
    exec .gridLossConfirm s = .next (s.modPln fun p => { p with gridLost := true, gridAlarm := true })) ∧
  (∀ s, (s.live.pln.gridLost = true ∨ s.live.epc.casting = false ∨ (s.live.cst.islGlobal ≠ none ∧ ∀ b, ¬ LossConfirmed s b)) →
    exec .gridLossConfirm s = .next s) ∧
  (∀ s, EnterDue s → s.live.pln.island = false → exec .islandEnter s = .next s.enterIsland.settleMode.repour) ∧
  (∀ s, EnterDue s → s.live.pln.island = true → exec .islandEnter s = .next (s.modPln fun p => { p with enterDue := false })) ∧
  (∀ s, ¬ EnterDue s → exec .islandEnter s = .next s) ∧
  (∀ s b t, GridHealthy s b t → exec .gridRestore s = .next (s.modPln fun p => { p with
      gridLost := false, enterDue := false, leaveDue := p.island && !p.cmdHeld })) ∧
  (∀ s, s.live.pln.gridLost = true → s.live.cst.islGlobal = none → exec .gridRestore s = .next (s.modPln fun p => { p with gridLost := false })) ∧
  (∀ s, (s.live.pln.gridLost = false ∨ (s.live.cst.islGlobal ≠ none ∧ ∀ b t, ¬ GridHealthy s b t)) → exec .gridRestore s = .next s) ∧
  (∀ s, LeaveDue s → exec .islandLeave s = .next (s.leaveIsland.yspUnshed s.live.pln.shed).settleMode.repour) ∧
  (∀ s, ¬ LeaveDue s → exec .islandLeave s = .next s) ∧
  (∀ s t, GroupDue s t → exec .groupRestore s = .next (s.restoreGroup.yspUnshed s.live.pln.shed)) ∧
  (∀ s, (∀ t, ¬ GroupDue s t) → exec .groupRestore s = .next s) ∧
  (∀ s : State, s.enterIsland.live.pln.island = true ∧ s.enterIsland.live.pln.enterDue = false ∧ s.enterIsland.live.pln.restoreAt = none
    ∧ s.enterIsland.live.pln.islandRecord = false ∧ s.enterIsland.live.pln.entries = satAdd 16 s.live.pln.entries 1) ∧
  (∀ s : State, s.leaveIsland.live.pln.island = false ∧ s.leaveIsland.live.pln.leaveDue = false ∧ s.leaveIsland.live.pln.cmdHeld = false)

/-! Loops and logic. -/

/-- R195, R196, R213, R215, R223, R227 to R229, R239, R240, R243, R285, R355: forwarded writes act before the tick; the outputs are applied at the output
instant, and an active unit of a pair sends them, one under injection apart; an injection passes its stages. A logic cycle runs input phase, program and output phase,
and is timed; one past its watchdog halts the engine; an on-line change is judged, named two epochs ahead and installed at its epoch. -/
def Obligations.LoopsAndLogicRun : Prop :=
    (∀ us s, exec (.loopTick us) s = .next
    ((s.live.par.immediate.foldl State.applyImmediate (s.modPar fun p => { p with immediate := [] })).loopTick us)) ∧
  (∀ s, OutputsDue s → (s.outputs.paired && s.outputs.live.par.gate && s.outputs.linkRuns) = false → exec .outputInstant s = .next s.outputs.pairInstant) ∧
  (∀ s, OutputsDue s → (s.outputs.paired && s.outputs.live.par.gate && s.outputs.linkRuns) = true → ∃ words,
    exec .outputInstant s = .next (s.outputs.send (.coupling 5 words)).pairInstant
    ∧ (∀ p ∈ s.live.lpe.due, ¬ (s.outputs.live.lpe.injecting = true ∧ s.outputs.live.lpe.injSlot = p.1) → p.1 ∈ words ∧ p.2.toNat ∈ words)) ∧
  (∀ s, PreSamplesTaken s → exec .preSamplesDone s = .next (s.modLpe fun p => { p with injState := if p.injTotal = 0 then 3 else 2 })) ∧
  (∀ s, ¬ PreSamplesTaken s → exec .preSamplesDone s = .next s) ∧
  (∀ s, InjectionOver s → exec .injectionDone s = .next (s.modLpe fun p => { p with injState := 3 })) ∧
  (∀ s, ¬ InjectionOver s → exec .injectionDone s = .next s) ∧
  (∀ us ops s, CycleRuns s us → exec (.logicCycle us ops) s = .next (
    let s1 := (s.modLgc fun x => x.tickClock s.now).inputPhase true
    let s2 := (s1.modLgc fun x => ops.foldl (Lgc.runOp s1.live.cst (s1.live.lgc.clock / 1000)) x).outputPhase
    (s2.modLgc fun x => { x with
      lastEnd := some (s2.now + us * 1000), lastUs := min us 65535, maxUs := max x.maxUs (min us 65535), cycles := x.cycles + 1
      overrun := if s2.live.cst.cycleMaxUs < us then sat32 x.overrun else x.overrun
      overrunSeen := x.overrunSeen || decide (s2.live.cst.cycleMaxUs < us) }).watchGrid)) ∧
  (∀ us ops s, ¬ CycleRuns s us → exec (.logicCycle us ops) s = .next s) ∧
  (∀ net s, s.logicRuns = true → s.cycleDue = true → ∃ t, exec (.logicWatchdog net) s = .next ((t.modLgc fun x =>
      { x with halted := true }).journal 12 (leBytes 2 net)) ∧
    t = (((s.modLgc fun x => x.tickClock s.now).inputPhase false).live.cst.ioRecs.filter fun r => u8 r.body 0 = 1).foldl State.haltOutput
      ((s.modLgc fun x => x.tickClock s.now).inputPhase false)) ∧
  (∀ net s, (s.logicRuns = false ∨ s.cycleDue = false) → exec (.logicWatchdog net) s = .next s) ∧
  (∀ s code, ChangeOffered s → s.judgeChange = .inl code → exec .onlineChangeCheck s = .next (s.modLgc fun x =>
      { x with offered := false, changeResult := code })) ∧
  (∀ s x, ChangeOffered s → s.judgeChange = .inr x → exec .onlineChangeCheck s = .next (
    let e := s.live.epc.epoch + 2
    let s1 := s.modLgc fun y => { y with offered := false, change := some (e, x.2.c.sects, x.1.seq, x.1.digest) }
    if s.paired && s.linkRuns then s1.send (.coupling 0x0C [e, x.1.seq, leNat x.1.digest]) else s1)) ∧
  (∀ s, ¬ ChangeOffered s → exec .onlineChangeCheck s = .next s) ∧
  (∀ s e l seq d, ChangeDue s e l seq d → exec .changeEpoch s = .next
    (let t := (s.installProgram { s.live.cst with sects := l, seq := seq, digest := d, slot := 1 - s.live.cst.slot }).takeHeld
     if t.paired = true ∧ t.live.par.pstate = 5 then t.enterJoin.repour else t.repour)) ∧
  (∀ s, (∀ e l seq d, ¬ ChangeDue s e l seq d) → exec .changeEpoch s = .next s) ∧
  (∀ s, ¬ OutputsDue s → exec .outputInstant s = .next s)

/-! Slices, channels and fans: when their events act. -/

namespace Sys2Proof.Claims

open Sys2Proof Sys2Proof.Machine

/-- R261: the channels are configured, the group has entries and the start of its pass has come. -/
abbrev PassDue (s : State) (g : Nat) : Prop :=
  s.live.fch.configured = true ∧ s.live.cst.groupHasEntries g = true ∧ (s.grp g).dueAt ≤ s.now
/-- A group as a pass start leaves its count and its next start. -/
def passCounted (s : State) (g : Nat) : Grp :=
  { s.grp g with pass := (s.grp g).pass + 1, dueAt := (s.grp g).dueAt + s.live.cst.groupPeriod g * 1000 }
/-- R264: a rotation is due at the end of a pass of group `g`, and slice `k` is free to take it. -/
abbrev HandoverDue (s : State) (g k : Nat) : Prop :=
  s.nextGroup s.live.fch.rotNext = some g ∧ s.idleCal = some k ∧ s.live.fch.configured = true ∧ s.live.cst.rotMs ≠ 0
    ∧ s.live.fch.noRot = false ∧ s.live.fch.rotAt ≤ s.now ∧ (s.grp g).inPass = false ∧ (s.grp g).running = none
/-- A slice as a calibration visit counts it. -/
def visitNoted (x : Slice) (zeroSum : Int) : Slice :=
  { x with visits := satAdd 16 x.visits 1, drift := min 255 (max x.drift (zeroSum.natAbs / 256 / 8)) }
/-- R269: a slice whose conversion does not complete, counted. -/
def stuckNoted (s : State) (k : Nat) : State := s.setSlice k { s.slice k with stuck := satAdd 8 (s.slice k).stuck 1 }
/-- R266: an average of 256 values stands. -/
abbrev AverageFull (x : Chan) : Prop := (x.calState = 1 ∨ x.calState = 3) ∧ 256 ≤ x.calN
/-- R271: the condition is one of this channel's type, and it ends or its stage drives. -/
abbrev OutputFaultSeen (s : State) (n : Nat) (openLoad on : Bool) : Prop :=
  (if openLoad then chType (s.chRec n) = 7 ∨ chType (s.chRec n) = 8 ∨ (chType (s.chRec n) = 9 ∧ chRange (s.chRec n) = 1)
    else chType (s.chRec n) = 6) ∧ (on = false ∨ s.drives n = true)
/-- R273: the stage of a DOUT or PWM channel drives. -/
abbrev StageDrives (s : State) (n : Nat) : Prop := (chType (s.chRec n) = 8 ∨ chType (s.chRec n) = 9) ∧ s.drives n = true
/-- R273: the trips of the last 10 s, this one among them. -/
def recentTrips (s : State) (n : Nat) : List Nat := (s.now :: (s.chan n).tripAt).filter fun t => decide (s.now < t + 10000000000)
/-- R273: a channel as a trip leaves it: counted, off for 100 ms, latched off or not. -/
def tripped (s : State) (n : Nat) (latch : Bool) : Chan :=
  { s.chan n with
    tripAt := recentTrips s n, trips := satAdd 16 (s.chan n).trips 1, tripLatch := latch, offUntil := some (s.now + 100000000) }
/-- R273: the time off after a trip has passed, and the stage is not latched off. -/
abbrev RetryDue (s : State) (n : Nat) : Prop := (∃ t, (s.chan n).offUntil = some t ∧ t ≤ s.now) ∧ (s.chan n).tripLatch = false
/-- R249: the shunt has been open for 1 s. -/
abbrev ShuntDue (s : State) (n : Nat) : Prop := ∃ t, (s.chan n).shuntAt = some t ∧ t + 1000000000 ≤ s.now
/-- The field supply as a threshold event finds it. -/
def fieldSupply (s : State) (mv : Nat) (ok : Bool) : State := s.modPwr fun p => { p with vfldMv := mv, vfldOk := ok }

end Sys2Proof.Claims

/-- R261, R262, R264, R265, R268 to R270: a pass whose start has come is counted; on a group with a slice its entries are queued behind one that an
urgent request has pre-empted, a pass still running is counted as skipped. At the end of a pass the group next in turn goes to the calibration slice
idle longest, its old one begins a visit, and the next pass makes its path checks. A visit ends in an offset and a gain or retires the slice. A
stuck slice is counted and retired; its group goes to the calibration slice idle longest, else to the reserve, else to a slice in its visit, and the
entry that was running restarts; with none left the group's channels enter NO_SLICE. -/
def Obligations.PassesAndSlicesRun : Prop :=
  (∀ g l s k, PassDue (State.advanceGroup g 64 s.now s) g → ((State.advanceGroup g 64 s.now s).grp g).slice = some k →
    ((State.advanceGroup g 64 s.now s).grp g).inPass = false →
    exec (.passStart g l) s = .next (
      let a := State.advanceGroup g 64 s.now s
      let b := a.setGrp g { passCounted a g with
        inPass := true, checks := false, rest := (a.grp g).rest ++ a.live.cst.passEntries_ g (a.grp g).pass (a.grp g).checks l }
      State.advanceGroup g 64 b.now b)) ∧
  (∀ g l s k, PassDue (State.advanceGroup g 64 s.now s) g → ((State.advanceGroup g 64 s.now s).grp g).slice = some k →
    ((State.advanceGroup g 64 s.now s).grp g).inPass = true →
    exec (.passStart g l) s = .next (
      let a := State.advanceGroup g 64 s.now s
      (a.setGrp g (passCounted a g)).modFch fun f => { f with passSkip := sat32 f.passSkip })) ∧
  (∀ g l s, PassDue (State.advanceGroup g 64 s.now s) g → ((State.advanceGroup g 64 s.now s).grp g).slice = none →
    exec (.passStart g l) s = .next (
      let a := State.advanceGroup g 64 s.now s
      a.setGrp g (passCounted a g))) ∧
  (∀ g l s, ¬ PassDue (State.advanceGroup g 64 s.now s) g → exec (.passStart g l) s = .next (State.advanceGroup g 64 s.now s)) ∧
  (∀ s g k, HandoverDue s.advanceGroups g k → exec .sliceHandover s = .next (
      let a := s.advanceGroups
      let old := (a.grp g).slice.getD 0
      let b := (a.setGrp g { a.grp g with slice := some k, checks := true }).setSlice k { a.slice k with idleSince := none }
      (b.setSlice old { b.slice old with visiting := true }).modFch fun f => { f with
        handovers := satAdd 16 f.handovers 1, rotNext := (g + 1) % 16, rotAt := f.rotAt + s.live.cst.rotMs * 1000000 })) ∧
  (∀ s, (∀ g k, ¬ HandoverDue s.advanceGroups g k) → exec .sliceHandover s = .next s.advanceGroups) ∧
  (∀ k zs rs ms q s, k < 18 → (s.slice k).visiting = true → visitFails zs rs ms q = false →
    exec (.calibrationVisitEnd k zs rs ms q) s = .next (s.setSlice k { visitNoted (s.slice k) zs with
      visiting := false, idleSince := some s.now, ofs := visitOffset zs, gain := visitGain zs rs })) ∧
  (∀ k zs rs ms q s, k < 18 → (s.slice k).visiting = true → visitFails zs rs ms q = true →
    exec (.calibrationVisitEnd k zs rs ms q) s = .next ((s.setSlice k (visitNoted (s.slice k) zs)).retireSlice k 0)) ∧
  (∀ k zs rs ms q s, (18 ≤ k ∨ (s.slice k).visiting = false) → exec (.calibrationVisitEnd k zs rs ms q) s = .next s) ∧
  (∀ k s g j, s.serving k = some g →
    (((stuckNoted s k).idleCal.or (stuckNoted s k).reserve).or (stuckNoted s k).visitor) = some j →
    exec (.sliceStuck k) s = .next (
      let a := stuckNoted s k
      let x := a.grp g
      let b := (a.setGrp g { x with running := none, rest := x.running.toList ++ x.rest, slice := some j }).setSlice j
        { a.slice j with visiting := false, idleSince := none }
      State.advanceGroup g 64 s.now (b.retireSlice k 1))) ∧
  (∀ k s g, s.serving k = some g →
    (((stuckNoted s k).idleCal.or (stuckNoted s k).reserve).or (stuckNoted s k).visitor) = none →
    exec (.sliceStuck k) s = .next (
      let a := stuckNoted s k
      let b := (a.setGrp g { a.grp g with running := none, slice := none, noSlice := true, rest := [], inPass := false }).retireSlice k 1
      (groupChans g).foldl (fun s n =>
        if chHasEntry (s.chRec n) then s.setChan n (Chan.settle (s.chan n) ((s.chan n).setCond 8 true) (s.chRec n)) else s) b)) ∧
  (∀ k s, s.serving k = none → k < 18 → (s.slice k).visiting = true → exec (.sliceStuck k) s = .next ((stuckNoted s k).retireSlice k 1)) ∧
  (∀ k s, s.serving k = none → (18 ≤ k ∨ (s.slice k).visiting = false) → exec (.sliceStuck k) s = .next s)

/-- R248, R249, R251, R253, R259, R266, R271 to R273, R279: a calibration average ends; output faults, stage trips with their latch and retry, shunt
trips and their retry are counted and latched; the field supply falls and rises with hysteresis; pulses are counted and stamped, after DEBOUNCE
where it is set (the model's choice, log entry 85), digital inputs sampled. With the claim gate closed, or without a record, every sourcing part of a channel is off and
no stage drives; in a run with the gate open and the field supply up they are on as the record says. -/
def Obligations.ChannelsAndInputsAreHandled : Prop :=
  (∀ n s, chType (s.chRec n) = 5 → chDebounce (s.chRec n) = 0 → exec (.pulseEdge n) s = .next (s.setChan n { s.chan n with
      count := ((s.chan n).count + 1) % 2 ^ 32
      edges := s.now :: (s.chan n).edges.filter fun t => decide (s.now ≤ t + 2000000000) })) ∧
  (∀ n s, chType (s.chRec n) = 5 → chDebounce (s.chRec n) ≠ 0 →
    (∀ t, (s.chan n).edge = some t → s.now < t + chDebounce (s.chRec n) * 100000) →
    exec (.pulseEdge n) s = .next (s.setChan n { s.chan n with edge := some s.now })) ∧
  (∀ n s t, chType (s.chRec n) = 5 → chDebounce (s.chRec n) ≠ 0 → (s.chan n).edge = some t →
    t + chDebounce (s.chRec n) * 100000 ≤ s.now → exec (.pulseEdge n) s = .next (s.setChan n { s.chan n with
      edge := some s.now, count := ((s.chan n).count + 1) % 2 ^ 32
      edges := t :: (s.chan n).edges.filter fun u => decide (t ≤ u + 2000000000) })) ∧
  (∀ n s, chType (s.chRec n) ≠ 5 → exec (.pulseEdge n) s = .next s) ∧
  (∀ n l s, chType (s.chRec n) = 4 → ∃ x : Chan, exec (.dinSample n l) s = .next (s.setChan n x) ∧ x.level = l
    ∧ x.results = (s.chan n).results + 1 ∧ x.lastAt = some s.now
    ∧ x.stableAt = (if (s.chan n).level = l then (s.chan n).stableAt else s.now)
    ∧ x.din = (if x.stableAt + chDebounce (s.chRec n) * 100000 ≤ s.now then l else (s.chan n).din)) ∧
  (∀ n l s, chType (s.chRec n) ≠ 4 → exec (.dinSample n l) s = .next s) ∧
  (∀ n s, AverageFull (s.chan n) → exec (.calAverageDone n) s = .next (s.setChan n ((s.chan n).averageDone (s.chRec n)))) ∧
  (∀ n s, ¬ AverageFull (s.chan n) → exec (.calAverageDone n) s = .next s) ∧
  (∀ n ol on s, OutputFaultSeen s n ol on → exec (.outputFaultTimer n ol on) s = .next
    (s.setChan n (Chan.noteFault (s.chan n) ((s.chan n).setCond (if ol then 6 else 5) on)))) ∧
  (∀ n ol on s, ¬ OutputFaultSeen s n ol on → exec (.outputFaultTimer n ol on) s = .next s) ∧
  (∀ n s, StageDrives s n → (recentTrips s n).length < 3 → exec (.stageTrip n) s = .next
    (s.setChan n (Chan.noteFault (s.chan n) ((tripped s n false).setCond 5 true)))) ∧
  (∀ n s, StageDrives s n → 3 ≤ (recentTrips s n).length → exec (.stageTrip n) s = .next
    ((s.setChan n (Chan.noteFault (s.chan n) ((tripped s n true).setCond 5 true))).journal
      14 (ev2 n 3))) ∧
  (∀ n s, ¬ StageDrives s n → exec (.stageTrip n) s = .next s) ∧
  (∀ n s, RetryDue s n → exec (.tripRetry n) s = .next
    (s.setChan n (Chan.noteFault (s.chan n) ({ s.chan n with offUntil := none }.setCond 5 false)))) ∧
  (∀ n s, ¬ RetryDue s n → exec (.tripRetry n) s = .next s) ∧
  (∀ n s, chType (s.chRec n) = 2 → (s.chan n).shuntAt = none → exec (.shuntOpen n) s = .next (s.setChan n
    (Chan.settle (s.chan n) ({ s.chan n with shuntAt := some s.now, trips := satAdd 16 (s.chan n).trips 1 }.setCond 5 true) (s.chRec n)))) ∧
  (∀ n s, (chType (s.chRec n) ≠ 2 ∨ (s.chan n).shuntAt ≠ none) → exec (.shuntOpen n) s = .next s) ∧
  (∀ n s, ShuntDue s n → exec (.shuntRetry n) s = .next
    (s.setChan n (Chan.settle (s.chan n) ({ s.chan n with shuntAt := none }.setCond 5 false) (s.chRec n)))) ∧
  (∀ n s, ¬ ShuntDue s n → exec (.shuntRetry n) s = .next s) ∧
  (∀ mv s, mv < 16000 → s.live.fch.vfldLow = false → exec (.vfldLow mv) s = .next
    ((((fieldSupply s mv false).modFch fun f => { f with vfldLow := true }).setNoVfld true).journal 14 (ev2 0xFF 0))) ∧
  (∀ mv s, mv < 16000 → s.live.fch.vfldLow = true → exec (.vfldLow mv) s = .next (fieldSupply s mv false)) ∧
  (∀ mv s, 16000 ≤ mv → exec (.vfldLow mv) s = .next s) ∧
  (∀ mv s, 17000 < mv → s.live.fch.vfldLow = true → exec (.vfldRestored mv) s = .next
    ((((fieldSupply s mv true).modFch fun f => { f with vfldLow := false }).setNoVfld false).journal 14 (ev2 0xFF 1))) ∧
  (∀ mv s, 17000 < mv → s.live.fch.vfldLow = false → exec (.vfldRestored mv) s = .next (fieldSupply s mv true)) ∧
  (∀ mv s, mv ≤ 17000 → exec (.vfldRestored mv) s = .next s) ∧
  (∀ (s : State) n, (s.live.par.gate = false ∨ s.chRec n = []) → s.frontEnd n = {} ∧ s.drives n = false) ∧
  (∀ (s : State) n, s.live.par.gate = true → s.live.fch.configured = true → s.live.pwr.mode ≠ .safehold → s.live.fch.vfldLow = false →
    s.frontEnd n = {
      excitation := chType (s.chRec n) = 3
      shunt := chType (s.chRec n) = 2 && (s.chan n).shuntAt.isNone
      loopSupply := chType (s.chRec n) = 2 && chFlag (s.chRec n) 0
      wetting := chType (s.chRec n) = 4 && chFlag (s.chRec n) 1
      pullUp := chType (s.chRec n) = 5 && chRange (s.chRec n) = 1 })

namespace Sys2Proof.Claims

open Sys2Proof Sys2Proof.Machine

/-- R291: the kick of driver `d` has lasted its time. -/
abbrev KickOver (s : State) (d : Nat) : Prop := (s.drv d).st = 1 ∧ (s.drv d).since + u16 (s.live.cst.fanRec d) 16 * 1000000 ≤ s.now
/-- R290, R291: a kick has its fan turning: there is no tachometer, or the edges of the last 500 ms give MIN_RPM. -/
def kickGood (s : State) (d : Nat) : Bool :=
  match fnTach (s.live.cst.fanRec d) with
  | none => true
  | some t => fLe (fnMinRpm (s.live.cst.fanRec d)) (windowSpeed (s.live.cst.fanRec d)
      ((s.chan t).edges.filter fun e => decide (s.now ≤ e + 500000000 ∧ (s.drv d).since ≤ e)))
/-- R291: a driver waits between kicks, and 5 s have passed. -/
abbrev KickAgain (s : State) (d : Nat) : Prop := (s.drv d).st = 2 ∧ (s.drv d).since + 5000000000 ≤ s.now
/-- R291: a running fan that is driven has shown no edge for 2 s. -/
abbrev TachLost (s : State) (d : Nat) : Prop :=
  (s.drv d).st = 3 ∧ (fnTach (s.live.cst.fanRec d)).isSome = true ∧ fLt 0 (s.drv d).duty = true ∧ (s.drv d).seenAt + 2000000000 ≤ s.now
/-- R291: a running fan has turned too slowly for 5 s. -/
abbrev TooSlow (s : State) (d : Nat) : Prop := (s.drv d).st = 3 ∧ ∃ t, (s.drv d).lowSince = some t ∧ t + 5000000000 ≤ s.now
/-- R291: a fan without its tachometer has shown a good speed for 1 s. -/
abbrev TachBack (s : State) (d : Nat) : Prop := (s.drv d).st = 5 ∧ ∃ t, (s.drv d).okSince = some t ∧ t + 1000000000 ≤ s.now
/-- R291: a stalled driver that retries has waited STALL_RETRY_S and is asked to turn. -/
abbrev StallOver (s : State) (d : Nat) : Prop :=
  (s.drv d).st = 4 ∧ 0 < u16 (s.live.cst.fanRec d) 18
    ∧ (s.drv d).since + u16 (s.live.cst.fanRec d) 18 * 1000000000 ≤ s.now ∧ single.isZero (s.drv d).req.toNat = false
/-- R288: the supply switch of driver `d` stretches its periods while it drives between 0 and 100 %. -/
abbrev Stretched (s : State) (n d : Nat) : Prop :=
  s.live.cst.fanOf n = some d ∧ chRange (s.chRec n) = 1 ∧ u8 (s.live.cst.fanRec d) 6 ≠ 0
    ∧ fLt 0 (s.chan n).elec = true ∧ fLt (s.chan n).elec (fOfNat 100) = true
/-- R288: the on-phase of a period in ns. -/
def onPhase (s : State) (n d : Nat) : Nat :=
  (((fValue (s.chan n).elec).mul { m := u32 (s.live.cst.fanRec d) 8 * 1000 }).toFixed 0 / 100).toNat
/-- A period starts with the duty its stage is given. -/
def dutyTaken (s : State) (n : Nat) : State := s.setChan n { s.chan n with duty := (s.chan n).elec }
/-- R306, R307: a gain change that the input allows: a current input of an internal measurement. -/
abbrev GainMoves (s : State) (g k : Nat) (up : Bool) : Prop :=
  s.metering g = true ∧ u8 (s.live.cst.groupRec g) 20 = 0 ∧ k < 4 ∧
    (if up then (tget (tget s.live.nrg.groups g {}).inputs k {}).mayRise s.now = true
     else (tget (tget s.live.nrg.groups g {}).inputs k {}).gain ≠ 0)
/-- R309: meter `m` is declared and its loop tick has come. -/
abbrev HeatDue (s : State) (m : Nat) : Prop :=
  s.live.nrg.run = true ∧ s.live.cst.heatRec m ≠ [] ∧ s.gridTick % 100 = 0 ∧ (tget s.live.nrg.heats m {}).lastTick ≠ some s.gridTick
/-- R313: the interval of a unit has ended. -/
abbrev IntervalOver (s : State) (kind unit : Nat) (iv : Interval) : Prop :=
  s.live.nrg.interval kind unit = some iv ∧ s.live.nrg.run = true ∧ iv.endS ≤ s.calSec
/-- R317: a capture is due at this boundary. -/
abbrev CaptureDue (s : State) : Prop :=
  s.live.nrg.run = true ∧ s.atBoundary = true ∧ (s.live.nrg.saveDue = true ∨ s.live.nrg.capturedAt + 500000000 ≤ s.now)

end Sys2Proof.Claims

/-- R288, R290 to R292: a kick ends in RUN, in a wait for the next kick or in a stall; a lost tachometer is noted and its fan held at its
hold duty, a slow fan is kicked again, a recovered or retried one goes on; a PWM period takes its duty and, on a stretched supply switch,
owes what it lengthened. -/
def Obligations.FansAreWatched : Prop :=
  (∀ d s, KickOver s d → kickGood s d = true → exec (.kickEnd d) s = .next ((s.setDrv d
      (let t := fanTarget (s.live.cst.fanRec d) (s.drv d).req (fOfNat 100)
       { ((s.drv d).enter 3 s.now) with
          duty := t.1, attempt := 0, retry := false, minLim := t.2.1, maxLim := t.2.2.1, band := t.2.2.2, rpm := (s.drv d).rpm })).writeFan d)) ∧
  (∀ d s, KickOver s d → kickGood s d = false → (s.drv d).attempt < 4 → (s.drv d).retry = false →
    exec (.kickEnd d) s = .next ((s.setDrv d { ((s.drv d).enter 2 s.now) with duty := 0 }).writeFan d)) ∧
  (∀ d s, KickOver s d → kickGood s d = false → (4 ≤ (s.drv d).attempt ∨ (s.drv d).retry = true) →
    exec (.kickEnd d) s = .next (s.fanStall d)) ∧
  (∀ d s, ¬ KickOver s d → exec (.kickEnd d) s = .next s) ∧
  (∀ d s, KickAgain s d → exec (.retryWaitEnd d) s = .next ((s.setDrv d { ((s.drv d).enter 1 s.now) with
      attempt := (s.drv d).attempt + 1, duty := fOfNat 100 }).writeFan d)) ∧
  (∀ d s, ¬ KickAgain s d → exec (.retryWaitEnd d) s = .next s) ∧
  (∀ d s, TachLost s d → exec (.tachLoss d) s = .next (((((s.setDrv d { ((s.drv d).enter 5 s.now) with
      duty := f32 (s.live.cst.fanRec d) 32, tachSeen := true, losses := satAdd 8 (s.drv d).losses 1 }).modFan fun f =>
      { f with tachSeen := true }).journal 13 (ev2 d 1) true)).writeFan d)) ∧
  (∀ d s, ¬ TachLost s d → exec (.tachLoss d) s = .next s) ∧
  (∀ d s, TooSlow s d → exec (.lowSpeedRekick d) s = .next (((s.setDrv d { ((s.drv d).enter 1 s.now) with
      attempt := 1, retry := false, duty := fOfNat 100 }).journal 13 (ev2 d 3)).writeFan d)) ∧
  (∀ d s, ¬ TooSlow s d → exec (.lowSpeedRekick d) s = .next s) ∧
  (∀ d s, TachBack s d → exec (.tachRecovery d) s = .next ((s.setDrv d { ((s.drv d).enter 3 s.now) with
      duty := f32 (s.live.cst.fanRec d) 32 }).journal 13 (ev2 d 2))) ∧
  (∀ d s, ¬ TachBack s d → exec (.tachRecovery d) s = .next s) ∧
  (∀ d s, StallOver s d → exec (.stallRetry d) s = .next ((s.setDrv d { ((s.drv d).enter 1 s.now) with
      attempt := 1, retry := true, duty := fOfNat 100 }).writeFan d)) ∧
  (∀ d s, ¬ StallOver s d → exec (.stallRetry d) s = .next s) ∧
  (∀ n d s, chType (s.chRec n) = 9 → Stretched s n d → u8 (s.live.cst.fanRec d) 6 ≤ (s.drv d).periods + 1 →
    exec (.pwmPeriodStart n) s = .next (
      let long := max (onPhase s n d) (u16 (s.live.cst.fanRec d) 22 * 1000000)
      (dutyTaken s n).setDrv d { s.drv d with
        periods := 0, owed := long - onPhase s n d, window := some (s.now + long / 2, s.now + long) })) ∧
  (∀ n d s, chType (s.chRec n) = 9 → Stretched s n d → (s.drv d).periods + 1 < u8 (s.live.cst.fanRec d) 6 →
    exec (.pwmPeriodStart n) s = .next ((dutyTaken s n).setDrv d { s.drv d with
        periods := (s.drv d).periods + 1, owed := (s.drv d).owed - min (s.drv d).owed (onPhase s n d) })) ∧
  (∀ n s, chType (s.chRec n) = 9 → (∀ d, ¬ Stretched s n d) → exec (.pwmPeriodStart n) s = .next (dutyTaken s n)) ∧
  (∀ n s, chType (s.chRec n) ≠ 9 → exec (.pwmPeriodStart n) s = .next s)

/-- R301 to R303, R306, R307, R309, R313, R317: a reference period with samples is metered, a forced one at 320; the reference passes to the
next phase; a gain change is counted with its seam; a heat meter is evaluated on its ticks, an interval closes at its end, the registers are
captured at boundaries. -/
def Obligations.EnergyIsMetered : Prop :=
  (∀ g p s, s.metering g = true → 0 < p.n → exec (.referencePeriodEnd g p) s = .next (s.meterPeriod g p false).watchGrid) ∧
  (∀ g p s, (s.metering g = false ∨ p.n = 0) → exec (.referencePeriodEnd g p) s = .next s) ∧
  (∀ g s, s.metering g = true → exec (.referenceSwitch g) s = .next (s.modNrg fun x =>
      { x with groups := tmod x.groups g {} fun m => { m with refPhase := min 2 (m.refPhase + 1), vaPeriods := 0 } })) ∧
  (∀ g s, s.metering g = false → exec (.referenceSwitch g) s = .next s) ∧
  (∀ g p s, s.metering g = true → p.n = 320 → exec (.forcedPeriodClose g p) s = .next (s.meterPeriod g p true).watchGrid) ∧
  (∀ g p s, (s.metering g = false ∨ p.n ≠ 320) → exec (.forcedPeriodClose g p) s = .next s) ∧
  (∀ g k up s, GainMoves s g k up → exec (.gainChange g k up) s = .next (
      let m := tget s.live.nrg.groups g {}
      let c := tget m.inputs k {}
      s.modNrg fun x => { x with seamSeen := true, groups := tset x.groups g { m with
        inputs := tset m.inputs k { c with gain := if up then c.gain + 1 else 0, changedAt := s.now }
        seams := satAdd 16 m.seams 1, iv := m.iv.map fun i => { i with seams := i.seams + 1 } } })) ∧
  (∀ g k up s, ¬ GainMoves s g k up → exec (.gainChange g k up) s = .next s) ∧
  (∀ m s, HeatDue s m → exec (.heatSample m) s = .next (s.gridSample m)) ∧
  (∀ m s, ¬ HeatDue s m → exec (.heatSample m) s = .next s) ∧
  (∀ kind unit iv s, IntervalOver s kind unit iv → exec (.intervalClose kind unit) s = .next (s.nextInterval kind unit 0 0)) ∧
  (∀ kind unit s, (∀ iv, ¬ IntervalOver s kind unit iv) → exec (.intervalClose kind unit) s = .next s) ∧
  (∀ us n s, CaptureDue s → exec (.periodicCapture us n) s = .next (s.save false us n)) ∧
  (∀ us n s, ¬ CaptureDue s → exec (.periodicCapture us n) s = .next s)

/-! The pair. -/

namespace Sys2Proof.Claims

open Sys2Proof Sys2Proof.Machine

/-- R327: the partner's code as its stable claim word gives it. -/
def partnerCode (s : State) (code : Nat) : State :=
  let s := s.modPar fun p => Par.settleGate { p with
    pcode := code, pcodeAt := s.now, noneSince := if code = 0 ∧ p.hbOk then some s.now else none } s.now
  s.checkInjection.compareCodes
/-- R330: a single module ignores the claim pins. -/
abbrev ReadsClaims (s : State) : Prop := s.live.epc.casting = false ∨ s.live.cst.pairInUse ≠ 0
/-- R347: a module that seizes falls back to the code of its role when the partner shows NONE or READY. -/
def seizeGivesWay (s : State) (code : Nat) : State :=
  if s.live.par.code = 7 ∧ (code = 0 ∨ isReadyCode code = true) then s.setClaim s.live.activeCode else s
/-- R346, R351: a standby in READY sees its partner's claim fall. -/
abbrev ClaimFalls (s : State) (code : Nat) : Prop :=
  (seizeGivesWay (partnerCode s code) code).paired = true ∧ (partnerCode s code).live.par.pstate = 4 ∧ code = 0
    ∧ (partnerCode s code).live.par.partnerFailed = false
/-- R328, R349: the claim has won the comparison for 3 µs, nothing holds the gate, and under SEIZE the partner's stages have been held off
for 8 µs. -/
abbrev GateMayOpen (s : State) : Prop :=
  (∃ t, s.live.par.compareSince = some t ∧ t + 3000 ≤ s.now) ∧ s.live.par.gate = false ∧ s.live.par.killIn = false ∧
    (s.live.par.code = 7 → s.live.par.killOut = true ∧ s.live.par.killOutAt + 8000 ≤ s.now)
/-- R334: a cause the watchdog knows; the tick and pour causes only once it is armed; no reset is held. -/
abbrev WatchdogSees (s : State) (cause : Nat) : Prop :=
  cause ≤ 4 ∧ (s.live.par.wdArmed = true ∨ (cause ≠ 1 ∧ cause ≠ 2)) ∧ s.live.pwr.inReset = false
/-- R482: 1 ms after a fire of a cause of the watchdog's own. -/
abbrev WatchdogResets (s : State) : Prop :=
  s.live.par.wdFired = true ∧ s.live.par.wdCause ≤ 2 ∧ s.live.par.wdAt + 1000000 ≤ s.now ∧ s.live.pwr.inReset = false
/-- R348: KILL_OUT may fall: the partner has shown NONE, with its heartbeats heard, for 10 ms, and no takeover runs. -/
abbrev KillMayFall (s : State) : Prop :=
  s.live.par.killOut = true ∧ s.live.par.pstate ≠ 8 ∧ s.live.par.pcode = 0 ∧ s.live.par.hbOk = true
    ∧ ∃ t, s.live.par.noneSince = some t ∧ t + 10000000 ≤ s.now
/-- R340: WAIT_MS have passed without a claiming partner, and the partner is not the one to go first. -/
abbrev AloneDue (s : State) : Prop :=
  s.paired = true ∧ s.live.par.pstate = 1 ∧ s.live.par.waitAt + s.live.cst.waitMs * 1000000 ≤ s.now ∧ s.live.par.pcode = 0 ∧
    ¬ (s.live.par.heard = true ∧ s.live.par.linkOk = true ∧ s.live.par.partner.pstate = 1 ∧ s.live.cst.preferredB = !s.live.roleB)
/-- A path of the pair (the heartbeat path or the coupling link) is up. -/
def pathUp (s : State) (hb : Bool) : Bool := if hb then s.live.par.hbOk else s.live.par.linkOk
/-- R336: a path as its restoration leaves it. -/
def pathBack (s : State) (hb : Bool) : State :=
  (s.journal 27 (ev2 (if hb then 0 else 1) 1)).modPar fun p => { p with
    hbOk := p.hbOk || hb, linkOk := p.linkOk || !hb, partnerFailed := false
    noneSince := if hb = true ∧ p.pcode = 0 then some s.now else p.noneSince, imageIn := p.imageIn && hb }
/-- What a JOIN or ACCEPT frame tells of the partner. -/
def partnerTold (s : State) (old : Bool) (minor major seq : Nat) : State := s.modPar fun p =>
  { p with pMinor := minor, pMajor := major, pSeq := seq, p4800 := old }
/-- R341: this module is the one that joins. -/
abbrev Joining (s : State) : Prop := s.linkRuns = true ∧ s.paired = true ∧ s.live.par.pstate = 2
/-- R341: two protocol versions work together: the same major, minors no more than one apart. -/
abbrev VersionsAgree (s : State) (minor major : Nat) : Prop := 
  major = s.live.cplMajor ∧ minor ≤ s.live.cplMinor + 1 ∧ s.live.cplMinor ≤ minor + 1
/-- The link runs and this module follows the other one. -/
abbrev Following (s : State) : Prop := s.linkRuns = true ∧ s.follows = true
/-- R46, R416: a boundary of the active unit as the follower takes it. -/
def boundaryHeard (s : State) (counts : Nat) (ofsNs : Int) : State :=
  (s.modEpc fun e => { e with pairLock := decide (ofsNs.natAbs ≤ 2000), alignNs := ofsNs }).modClk fun c => { c with
    bound := some counts, pairValue := some counts
    pairStep := if 32768 < c.counts - counts ∨ 32768 < counts - c.counts then some ((counts : Int) - (c.counts : Int)) else none
    pairAt := if c.pairStep.isNone then c.counts else c.pairAt }
/-- R337, R345: READY, and the commit set or the tag state of the present epoch is an epoch period late. -/
abbrev NowStale (s : State) : Prop :=
  s.follows = true ∧ s.live.par.adopted = true ∧ s.live.par.pstate = 4
    ∧ s.live.epc.boundaryAt + s.live.epc.periodMs * 1000000 ≤ s.now
    ∧ (s.live.par.commitEpoch < s.live.epc.epoch ∨ s.live.par.tagsEpoch < s.live.epc.epoch)
/-- R342: this module takes an image: it joins, or its copy is stale. -/
abbrev TakesImage (s : State) : Prop := s.live.par.pstate = 3 ∨ (s.live.par.pstate = 4 ∧ s.live.par.stale = true)
/-- R342, R345: everything the resynchronisation asks for is there. -/
abbrev Resynced (s : State) : Prop :=
  s.paired = true ∧ TakesImage s ∧ s.live.par.imageIn = true ∧ s.live.par.adopted = true
    ∧ s.live.epc.epoch ≤ s.live.par.commitEpoch + 1

end Sys2Proof.Claims

/-- R326 to R328, R330, R333 to R335, R340, R346 to R349, R482: claim words, the output gate, the hardware watchdog, the kill lines and the
wait for a partner; the claim pins carry the code with odd parity, HBO runs from BOOT on while the watchdog has not fired. -/
def Obligations.ClaimsAreJudged : Prop :=
  (∀ code par s, ReadsClaims s → claimWordOk code par = false → exec (.partnerCodeChange code par) s = .next s.claimPinFault) ∧
  (∀ code par s, ReadsClaims s → claimWordOk code par = true → ¬ ClaimFalls s code →
    exec (.partnerCodeChange code par) s = .next (seizeGivesWay (partnerCode s code) code).settlePair) ∧
  (∀ code par s, ReadsClaims s → claimWordOk code par = true → ClaimFalls s code →
    exec (.partnerCodeChange code par) s = .next (
      let a := seizeGivesWay (partnerCode s code) code
      match (partnerCode s code).live.par.handover with
      | some (e, c) => if e = a.live.epc.epoch then (a.enterTaking 0 c true).settlePair
        else (a.enterTaking a.live.activeCode 2 false).settlePair
      | none => (a.enterTaking a.live.activeCode 
          (if (partnerCode s code).live.par.divAt = none ∧ (partnerCode s code).live.par.divTake = false then 2 else 7) false).settlePair)) ∧
  (∀ code par s, ¬ ReadsClaims s → exec (.partnerCodeChange code par) s = .next s) ∧
  (∀ gap s, GateMayOpen s → exec (.gateOpen gap) s = .next (
      let a := s.modPar fun p => { p with gate := true, lastGap := if p.pstate = 8 then min 65535 (gap / 10) else p.lastGap }
      if s.live.par.cause ≠ 0 ∧ s.live.par.pstate ≠ 0 then a.holderChange s.live.par.cause else a)) ∧
  (∀ gap s, ¬ GateMayOpen s → exec (.gateOpen gap) s = .next s) ∧
  (∀ c s, WatchdogSees s c → s.live.par.wdFired = false → exec (.watchdogFire c) s = .next
    (s.modPar fun p => { p with wdFired := true, wdCause := c, wdAt := s.now }).dropClaim) ∧
  (∀ c s, ¬ (WatchdogSees s c ∧ s.live.par.wdFired = false) → exec (.watchdogFire c) s = .next s) ∧
  (∀ s, WatchdogResets s → exec .watchdogReset s = .next (s.pulseReset .watchdog s.live.par.wdCause)) ∧
  (∀ s, ¬ WatchdogResets s → exec .watchdogReset s = .next s) ∧
  (∀ s, s.live.par.killIn = false → exec .killInEnergised s = .next (
      let a := (((s.journal 29 (ev1 0)).modPar fun p => Par.settleGate { p with killIn := true } s.now)).checkInjection
      if a.paired then
        (((a.abandonHandover 0).setClaim 0).modPar fun p =>
          { p with pstate := 10, handover := none, hoLeft := 0, stale := false }).switchMode .standby
      else a)) ∧
  (∀ s, s.live.par.killIn = true → exec .killInEnergised s = .next s) ∧
  (∀ s, s.live.par.killIn = true → exec .killInReleased s = .next (
      let a := (s.journal 29 (ev1 1)).modPar fun p => Par.settleGate { p with killIn := false } s.now
      if a.paired ∧ a.live.par.pstate = 10 then a.enterWait.settlePair else a)) ∧
  (∀ s, s.live.par.killIn = false → exec .killInReleased s = .next s) ∧
  (∀ s, KillMayFall s → exec .killOutRelease s = .next s.releaseKill) ∧
  (∀ s, ¬ KillMayFall s → exec .killOutRelease s = .next s) ∧
  (∀ s, AloneDue s → exec .waitTimeout s = .next (
      let a := (s.modPar fun p => { p.raise with pstate := 6, cause := 1 }).setClaim s.live.activeCode
      a.switchMode (a.runMode true))) ∧
  (∀ s, ¬ AloneDue s → exec .waitTimeout s = .next s) ∧
  (∀ s : State, s.live.pwr.powered = true → s.live.pwr.inReset = false → 0 < s.live.par.code → s.live.par.code < 8 →
    (s.claimPins.take 3).map Bool.toNat = [s.live.par.code / 4 % 2, s.live.par.code / 2 % 2, s.live.par.code % 2]
    ∧ (s.claimPins.map Bool.toNat).sum % 2 = 1) ∧
  (∀ s : State, (s.live.pwr.powered = false ∨ s.live.pwr.inReset = true ∨ s.live.par.code = 0) → s.claimPins = [false, false, false, false]) ∧
  (∀ s : State, s.hbo = .square ↔ s.live.pwr.powered = true ∧ s.live.pwr.inReset = false ∧ s.live.pwr.bootStarted = true
    ∧ s.live.pwr.mode ≠ .backup ∧ s.live.par.wdFired = false)

/-- R332, R335 to R337, R341, R345, R361: heartbeats are sent and heard, paths are lost and restored, a JOIN frame is judged by role,
protocol version and casting, a frame with a wrong CRC is counted and dropped. -/
def Obligations.ThePairKeepsInTouch : Prop :=
  (∀ s, s.linkRuns = true → exec .heartbeatSend s = .next (s.send (.coupling 1
    [s.live.par.nclaim, s.live.par.pstate, s.live.pwr.mode.code, s.live.health, s.live.par.stale.toNat]))) ∧
  (∀ s, s.linkRuns = false → exec .heartbeatSend s = .next s) ∧
  (∀ h s, s.linkRuns = true → exec (.heartbeatFrame true h) s = .next ((((s.followHand h).staleOver h).modPar fun p => { p with
      partner := h, heard := true
      gen := if p.gate = false ∧ (isActiveCode (h.nclaim % 8) = true ∨ h.nclaim % 8 = 7) then h.nclaim / 8 else p.gen
      }).compareCodes.settlePair.checkHandover.watchHoldoff)) ∧
  (∀ h s, s.linkRuns = true → exec (.heartbeatFrame false h) s = .next s.crcError) ∧
  (∀ ok h s, s.linkRuns = false → exec (.heartbeatFrame ok h) s = .next s) ∧
  (∀ s, s.live.cst.pairInUse ≠ 0 → s.live.par.hbOk = true → exec .hbPathLost s = .next (s.losePath true).checkHandover.settlePair) ∧
  (∀ s, (s.live.cst.pairInUse = 0 ∨ s.live.par.hbOk = false) → exec .hbPathLost s = .next s) ∧
  (∀ s, s.live.cst.pairInUse ≠ 0 → s.live.par.linkOk = true → exec .linkPathLost s = .next (s.losePath false).checkHandover.settlePair) ∧
  (∀ s, (s.live.cst.pairInUse = 0 ∨ s.live.par.linkOk = false) → exec .linkPathLost s = .next s) ∧
  (∀ hb s, s.live.cst.pairInUse ≠ 0 → pathUp s hb = false → (hb = true ∨ s.live.sys.reserveOsc = false) → exec (.pathRestored hb) s = .next (
      if (pathBack s hb).paired ∧ s.live.par.pstate = 5 ∧ hb = false then (pathBack s hb).enterJoin else (pathBack s hb).settlePair)) ∧
  (∀ hb s, (s.live.cst.pairInUse = 0 ∨ pathUp s hb = true) → exec (.pathRestored hb) s = .next s) ∧
  (∀ x mi ma q d s, Joining s → exec (.joinFrame true s.live.roleB x mi ma q d) s = .next ((partnerTold s x mi ma q).enterBarred 1)) ∧
  (∀ r x mi ma q d s, Joining s → r ≠ s.live.roleB → ¬ VersionsAgree s mi ma →
    exec (.joinFrame true r x mi ma q d) s = .next ((partnerTold s x mi ma q).enterBarred 2)) ∧
  (∀ r x mi ma q d s, Joining s → r ≠ s.live.roleB → VersionsAgree s mi ma → d ≠ s.live.cst.digest →
    exec (.joinFrame true r x mi ma q d) s = .next ((partnerTold s x mi ma q).enterBarred 3)) ∧
  (∀ r x mi ma q d s, Joining s → r ≠ s.live.roleB → VersionsAgree s mi ma → d = s.live.cst.digest →
    exec (.joinFrame true r x mi ma q d) s = .next ((partnerTold s x mi ma q).modPar fun p =>
      { p with pstate := 3, barredWhy := 0, imageIn := false })) ∧
  (∀ r x mi ma q d s, s.linkRuns = true → s.paired = true → s.live.par.pstate ≠ 2 →
    exec (.joinFrame true r x mi ma q d) s = .next ((partnerTold s x mi ma q).send
      (.coupling 0x0A [s.live.cplMinor, s.live.cplMajor, s.live.pwr.strapCode % 2, leNat s.live.cst.digest]))) ∧
  (∀ r x mi ma q d s, s.linkRuns = true → s.paired = false → exec (.joinFrame true r x mi ma q d) s = .next (partnerTold s x mi ma q)) ∧
  (∀ r x mi ma q d s, s.linkRuns = true → exec (.joinFrame false r x mi ma q d) s = .next s.crcError) ∧
  (∀ ok r x mi ma q d s, s.linkRuns = false → exec (.joinFrame ok r x mi ma q d) s = .next s)

/-- R46, R48, R101, R244, R337, R342, R345, R355, R416: what a follower takes from the active unit: its boundary, counter and
calendar, the commit set, the tags, the writes that act at once, the image; a set that comes late makes its copy stale, a complete one makes
it READY. That EPC_COMMIT returns to 0 and that pass numbers go on with the counter at the adoption is the model's choice (log entry 82). -/
def Obligations.TheStandbyFollows : Prop :=
  (∀ e r c o s, Following s → s.atBoundary = true → s.live.par.adopted = true →
    exec (.epochFrame true e r c o) s = .next (boundaryHeard s c o).repour) ∧
  (∀ e r c o s, Following s → s.atBoundary = true → s.live.par.adopted = false →
    exec (.epochFrame true e r c o) s = .next (
      let b := (boundaryHeard s c o).adoptRun e r
      { b with prep := b.prep.map fun k => { k with epoch := e, core := b.live } })) ∧
  (∀ (s : State) e r, (s.adoptRun e r).live.epc = { s.live.epc with
      epoch := e, runId := r, boundaryAt := s.now, commitYra := 0, commitYml := 0, commitDbg := 0 }
    ∧ (s.adoptRun e r).live.par = { s.live.par with adopted := true, commitEpoch := e, tagsEpoch := e }
    ∧ (s.adoptRun e r).live.lpe = { s.live.lpe with nextTick := e * s.live.epc.periodMs }) ∧
  (∀ e r c o s, Following s → s.atBoundary = false → exec (.epochFrame true e r c o) s = .next s) ∧
  (∀ e r c o s, Following s → exec (.epochFrame false e r c o) s = .next s.crcError) ∧
  (∀ ok e r c o s, ¬ Following s → exec (.epochFrame ok e r c o) s = .next s) ∧
  (∀ e ws sn st cs s, Following s → ∃ x y, exec (.commitFrame true e ws sn st cs) s = .next (
      let a := ((s.send (.coupling 3 [e])).modPar fun p => { p with
        commitEpoch := max p.commitEpoch e, snapIn := x, stepIn := y }).modEpc fun k => { k with
          commitYra := max k.commitYra (cs.getD 0 0), commitYml := max k.commitYml (cs.getD 1 0)
          commitDbg := max k.commitDbg (cs.getD 2 0) }
      { a with staged := s.staged ++ ws.map fun w => ({ txn := w.txn, src := w.src, role := w.role, addr := w.addr, val := w.val, readEpoch := e,
                                                        closedAt := s.now, mirror := true } : Staged) })
    ∧ (∀ l, sn = some l → x = some (e, l)) ∧ (sn = none → x = s.live.par.snapIn)
    ∧ (∀ l, st = some l → y = some (e, l)) ∧ (st = none → y = s.live.par.stepIn)) ∧
  (∀ e ws sn st cs s, Following s → exec (.commitFrame false e ws sn st cs) s = .next s.crcError) ∧
  (∀ ok e ws sn st cs s, ¬ Following s → exec (.commitFrame ok e ws sn st cs) s = .next s) ∧
  (∀ s, NowStale s → exec .staleTimeout s = .next ((s.abandonHandover 1).modPar fun p => { p with stale := true, imageIn := false })) ∧
  (∀ s, ¬ NowStale s → exec .staleTimeout s = .next s) ∧
  (∀ e l s, Following s → exec (.tagsFrame true e l) s = .next (((s.send (.coupling 4 [e])).modPar fun p =>
      { p with tagsEpoch := max p.tagsEpoch e }).modLgc fun x => { x with adopt := some l })) ∧
  (∀ e l s, Following s → exec (.tagsFrame false e l) s = .next s.crcError) ∧
  (∀ ok e l s, ¬ Following s → exec (.tagsFrame ok e l) s = .next s) ∧
  (∀ src a v s, Following s → exec (.immediateFrame true src a v) s = .next (s.modPar fun p =>
      { p with immediate := p.immediate ++ [(src, a, v)] })) ∧
  (∀ src a v s, Following s → exec (.immediateFrame false src a v) s = .next s.crcError) ∧
  (∀ ok src a v s, ¬ Following s → exec (.immediateFrame ok src a v) s = .next s) ∧
  (∀ e q d l s, Following s → exec (.changeFrame true e q d (some l)) s = .next (s.modLgc fun x => { x with change := some (e, l, q, d) })) ∧
  (∀ e q d s, Following s → exec (.changeFrame true e q d none) s = .next (s.enterBarred 3)) ∧
  (∀ e q d l s, Following s → exec (.changeFrame false e q d l) s = .next s.crcError) ∧
  (∀ ok e q d l s, ¬ Following s → exec (.changeFrame ok e q d l) s = .next s) ∧
  (∀ g s, Following s → TakesImage s → exec (.bulkFrame true (some g)) s = .next ((s.send (.coupling 0x0B [])).installImage g)) ∧
  (∀ g s, Following s → ¬ TakesImage s → exec (.bulkFrame true (some g)) s = .next (s.send (.coupling 0x0B []))) ∧
  (∀ s, Following s → exec (.bulkFrame true none) s = .next (s.send (.coupling 0x0B []))) ∧
  (∀ g s, Following s → exec (.bulkFrame false g) s = .next s.crcError) ∧
  (∀ ok g s, ¬ Following s → exec (.bulkFrame ok g) s = .next s) ∧
  (∀ s, Resynced s → ∃ t : State, exec (.resyncComplete true) s = .next (t.setClaim t.readyOr) ∧ t = s.modPar fun p => { p with
      pstate := 4, stale := false, excluded := [], mismatch := [], cmpFrom := s.live.epc.epoch + 2, barredByTest := false }) ∧
  (∀ ok s, ¬ (Resynced s ∧ ok = true) → exec (.resyncComplete ok) s = .next s)

namespace Sys2Proof.Claims

open Sys2Proof Sys2Proof.Machine

/-- R340, R351: the output instant of the first tick of the named epoch `e`, for cause `c`. -/
abbrev HandoverNow (s : State) (e c : Nat) : Prop :=
  s.live.par.handover = some (e, c) ∧ s.paired = true ∧ s.live.epc.epoch = e ∧ s.live.epc.boundaryAt + 700000 ≤ s.now
/-- The side that gives the claim. -/
abbrev Gives (s : State) : Prop := s.live.par.pstate = 7 ∨ (s.live.par.pstate = 6 ∧ s.live.par.cutover = true)
/-- The side that takes the claim. -/
abbrev Takes (s : State) : Prop := s.live.par.pstate = 4 ∨ (s.live.par.pstate = 5 ∧ s.live.par.cutover = true)
/-- R350: the second boundary after the entry into HANDOVER. -/
abbrev HandoverOver (s : State) : Prop :=
  s.atBoundary = true ∧ s.live.pwr.mode = .handover ∧ s.live.par.hoLeft = 0 ∧ s.paired = true
/-- A handover as its end counts it. -/
def handoverCounted (s : State) : State := s.modPar fun p => { p with
  handovers := if p.planned then satAdd 16 p.handovers 1 else p.handovers, planned := false, cmpFrom := s.live.epc.epoch + 2 }
/-- R352: the preferred partner has been ready for HOLDOFF_S. -/
abbrev TakeBackDue (s : State) : Prop :=
  s.paired = true ∧ s.live.par.canHandOver = true ∧ ∃ t, s.live.par.holdoffSince = some t ∧ t + s.live.cst.holdoffS * 1000000000 ≤ s.now
/-- R351: 10 µs after the taking side has seen NONE. -/
abbrev TakingSeesNone (s : State) : Prop :=
  s.paired = true ∧ s.live.par.pstate = 8 ∧ s.live.par.planned = true ∧ isActiveCode s.live.par.code = false ∧ s.live.par.pcode = 0
    ∧ s.live.par.pcodeAt + 10000 ≤ s.now
/-- R356: the standby compares: it is READY on a good link. -/
abbrev Compares (s : State) : Prop := Following s ∧ s.live.par.pstate = 4 ∧ s.live.par.linkOk = true ∧ s.live.par.p4800 = false
/-- R356 to R358: one compared value: taken out or equal, it ends a run of mismatches; a run as long as the limit is a divergence. -/
def compared (s : State) (x : CmpItem) : State :=
  let n := tget s.live.par.mismatch (x.kind * 1000 + x.index) 0 + 1
  if s.cmpExcluded x = true ∨ s.cmpDiffers x = false then
    s.modPar fun p => { p with mismatch := tdel p.mismatch (x.kind * 1000 + x.index) }
  else if (if x.kind = 1 then s.live.cst.cmpEpochs else s.live.cst.cmpTicks) ≤ n ∧ s.live.par.divAt = none then s.diverge x
  else s.modPar fun p => { p with mismatch := tset p.mismatch (x.kind * 1000 + x.index) n }
/-- R358: a divergence noted at `t` is resolved at this boundary with the own result. -/
abbrev ResolveDue (s : State) (own : Bool) : Prop :=
  ∃ t, s.live.par.divAt = some t ∧ s.live.par.divOwn = some own ∧ s.atBoundary = true ∧ s.paired = true
    ∧ (s.live.par.divPartner ≠ none ∨ t + 50000000 ≤ s.now)
/-- The state of a resolved divergence, given the results of the active unit and of the standby. -/
def resolved (s : State) (act stb : Bool) : State :=
  let p := s.live.par
  let w := pack [(0, 2, p.divKind), (2, 8, p.divIndex), (16, 16, p.divCount)]
  (s.journal 10 (leBytes 4 w.toNat ++ leBytes 4 p.divVals.1.toNat ++ leBytes 4 p.divVals.2.toNat ++ ev2 act.toNat stb.toNat)).modPar
    fun p => { p with
      divAt := none, divOwn := none, divPartner := none
      aDivergence := p.aDivergence || (act && stb), aBothFail := p.aBothFail || (!act && !stb)
      excluded := if act && stb then addOnce p.excluded (p.divKind * 1000 + p.divIndex) else p.excluded
      barredByTest := if p.gate then p.barredByTest else !stb
      divTake := !p.gate && !act && stb }

end Sys2Proof.Claims

/-- R340, R350 to R352: a handover is named, starts at the output instant of its epoch on both sides, and ends at the second boundary; the
taking side claims 10 µs after NONE; a preferred unit takes back after its holdoff. -/
def Obligations.TheClaimIsHandedOver : Prop :=
  (∀ e c s, s.linkRuns = true → s.paired = true → (s.live.par.pstate = 4 ∨ s.live.par.pstate = 5) →
    exec (.handoverFrame true e c) s = .next (s.modPar fun p => { p with handover := some (e, c), cutover := decide (p.pstate = 5) })) ∧
  (∀ e c s, s.linkRuns = true → (s.paired = false ∨ (s.live.par.pstate ≠ 4 ∧ s.live.par.pstate ≠ 5)) →
    exec (.handoverFrame true e c) s = .next s) ∧
  (∀ e c s, s.linkRuns = true → exec (.handoverFrame false e c) s = .next s.crcError) ∧
  (∀ ok e c s, s.linkRuns = false → exec (.handoverFrame ok e c) s = .next s) ∧
  (∀ e c s, HandoverNow s e c → Gives s → exec .handoverStart s = .next ((((s.setClaim 0).modPar fun p => { p with
      pstate := 9, planned := true, hoLeft := 2, handover := none, cause := c }).switchMode .handover).holderChange c)) ∧
  (∀ e c s, HandoverNow s e c → Takes s → exec .handoverStart s = .next (s.enterTaking 0 c true)) ∧
  (∀ s, ¬ (Gives s ∨ Takes s) → exec .handoverStart s = .next s) ∧
  (∀ s, (∀ e c, ¬ HandoverNow s e c) → exec .handoverStart s = .next s) ∧
  (∀ s, HandoverOver s → s.live.par.pstate ≠ 8 → exec .handoverEnd s = .next ((handoverCounted s).switchMode .standby).repour) ∧
  (∀ s, HandoverOver s → s.live.par.pstate = 8 → exec .handoverEnd s = .next (
      let a := (handoverCounted s).modPar fun p => { p with pstate := if p.partnerReady then 7 else 6, cutover := false }
      if a.live.par.takenMode = 11 ∧ a.live.par.takenSafe = true then (a.safehold 6).repour
      else (let b := a.switchMode a.modeTaken
            if b.live.pwr.mode = .island then b.modPln fun x => { x with island := true } else b).repour)) ∧
  (∀ s, ¬ HandoverOver s → exec .handoverEnd s = .next s) ∧
  (∀ s, TakeBackDue s → exec .takeBack s = .next (s.nameHandover 5)) ∧
  (∀ s, ¬ TakeBackDue s → exec .takeBack s = .next s) ∧
  (∀ s, TakingSeesNone s → exec .takingActiveCode s = .next ((s.modPar Par.raise).setClaim s.live.activeCode)) ∧
  (∀ s, ¬ TakingSeesNone s → exec .takingActiveCode s = .next s)

/-- R356 to R358, R360: the standby compares the active unit's outputs with its own, a sustained mismatch is a divergence, both test
themselves, and the results decide: a failed standby is barred, a failed active unit drops its claim, two good ones exclude the output,
two bad ones raise the alarm. -/
def Obligations.OutputsAreCompared : Prop :=
  (∀ l s, Compares s → exec (.outputsFrame true l) s = .next (l.foldl compared s)) ∧
  (∀ l s, Compares s → exec (.outputsFrame false l) s = .next s.crcError) ∧
  (∀ ok l s, ¬ Compares s → exec (.outputsFrame ok l) s = .next s) ∧
  (∀ k i v s, s.linkRuns = true → s.paired = true → exec (.divergeFrame true k i v) s = .next (s.modPar fun p => { p with
      divKind := k, divIndex := i, divCount := satAdd 16 p.divCount 1, divVals := (s.cmpOwn { kind := k, index := i, value := v }, v)
      divAt := some s.now, divOwn := none, divPartner := none, testSince := some s.now })) ∧
  (∀ k i v s, s.linkRuns = true → s.paired = true → exec (.divergeFrame false k i v) s = .next s.crcError) ∧
  (∀ ok k i v s, (s.linkRuns = false ∨ s.paired = false) → exec (.divergeFrame ok k i v) s = .next s) ∧
  (∀ own s, ResolveDue s own → s.live.par.gate = true → exec .divergenceResolve s = .next (
      let r := resolved s own (s.live.par.divPartner.getD false)
      (if own = false ∧ s.live.par.divPartner = some true then (r.setClaim 0).holderChange 7 else r).settlePair.repour)) ∧
  (∀ own s, ResolveDue s own → s.live.par.gate = false → exec .divergenceResolve s = .next
      (resolved s (s.live.par.divPartner.getD false) own).settlePair.repour) ∧
  (∀ s, (∀ own, ¬ ResolveDue s own) → exec .divergenceResolve s = .next s) ∧
  (∀ ok s, s.live.epc.casting = true → exec (.selftestPeriodic 0 ok) s = .next (s.modPar fun p => { p with loopKat := !ok }).settlePair) ∧
  (∀ ok s, s.live.epc.casting = true → exec (.selftestPeriodic 1 ok) s = .next (s.modPar fun p => { p with logicKat := !ok }).settlePair) ∧
  (∀ ok s, s.live.epc.casting = true → exec (.selftestPeriodic 2 ok) s = .next
    (s.modPar fun p => { p with sramUe := p.sramUe || !ok }).settlePair) ∧
  (∀ ok s, s.live.epc.casting = true → s.live.par.gate = false → s.paired = true →
    exec (.selftestPeriodic 3 ok) s = .next (s.modPar fun p => { p with gateTest := !ok }).settlePair) ∧
  (∀ n ok s, (s.live.epc.casting = false ∨ 4 ≤ n ∨ (n = 3 ∧ (s.live.par.gate = true ∨ s.paired = false))) →
    exec (.selftestPeriodic n ok) s = .next s) ∧
  (∀ ok s, s.linkRuns = true → s.paired = true → s.live.par.divAt ≠ none →
    exec (.selftestFrame true ok) s = .next (s.modPar fun p => { p with divPartner := some ok })) ∧
  (∀ ok s, s.linkRuns = true → s.paired = true → s.live.par.divAt = none → exec (.selftestFrame true ok) s = .next s) ∧
  (∀ ok s, s.linkRuns = true → s.paired = true → exec (.selftestFrame false ok) s = .next s.crcError) ∧
  (∀ good ok s, (s.linkRuns = false ∨ s.paired = false) → exec (.selftestFrame good ok) s = .next s) ∧
  (∀ a b c d s, s.live.par.testSince ≠ none → exec (.selftestComplete a b c d) s = .next (
      let ok := a && b && c && d
      let s1 := s.modPar fun p => { p with
        testSince := none, loopKat := !a, logicKat := !b, sramUe := p.sramUe || !c, gateTest := !d
        divOwn := if p.divAt.isSome then some ok else p.divOwn, barredByTest := if ok then false else p.barredByTest }
      let s2 := if ok then s1.modUpd fun u => { u with trial := u.trial.map fun t => { t with selftestPassed := true } } else s1
      (if s2.linkRuns then s2.send (.coupling 9 [ok.toNat]) else s2).settlePair)) ∧
  (∀ a b c d s, s.live.par.testSince = none → exec (.selftestComplete a b c d) s = .next s)

/-! Ports, clocks of the network, sessions. -/

namespace Sys2Proof.Claims

open Sys2Proof Sys2Proof.Machine

/-- R363: the link a port gets: it has a casting that uses it, and the speeds agree. -/
def linkGot (s : State) (p : Nat) (up gig : Bool) : Bool :=
  up && s.live.epc.casting && !s.live.sys.reserveOsc && s.live.cst.portMode p ≠ 0 && (gig || u8 (s.live.cst.netPort p) 1 = 0)
/-- R364: a port in a redundant pair whose frame carries a trailer. -/
def redundant (s : State) (p : Nat) (f : EthFrame) : Bool := s.live.cst.portMode p = 2 && f.cls ≠ 2
/-- R363: a frame with a good check sequence and no longer than the most. -/
abbrev FrameGood (s : State) (p : Nat) (f : EthFrame) : Prop :=
  f.ok = true ∧ f.len ≤ (if redundant s p f = true ∧ f.prp.isSome = true then 1528 else 1522)
/-- A port as a good frame counts it. -/
def frameCounted (s : State) (p : Nat) : State :=
  s.modEth fun e => e.setPort p { s.live.eth.port p with rx := sat32 (s.live.eth.port p).rx }
/-- R364: a trailer of the wrong LAN, counted. -/
def lanChecked (s : State) (lan : Bool) : State := if lan then s else s.modEth fun e => { e with prpErr := sat32 e.prpErr }
/-- R364: every 2 s in redundant mode. -/
abbrev SupervisionDue (s : State) : Prop :=
  s.live.cst.portMode 0 = 2 ∧ (∀ t, s.live.eth.supAt = some t → s.elapsed t 2000000000 = true) ∧ s.live.pwr.cpRunning = true
    ∧ s.live.epc.casting = true
/-- A slot of PTP that follows a master, on a port in use. -/
abbrev SlotFollows (s : State) (d port : Nat) : Prop :=
  d < 2 ∧ s.live.cst.ptpMode d = 1 ∧ s.portOn port = true ∧ s.live.pwr.cpRunning = true
/-- R375: t2 and θ of a Sync taken `ago` ns ago. -/
def syncT2 (s : State) (d port ago : Nat) : Int :=
  (s.live.ptp.slot d).stamp (s.now - ago) - ingressNs (s.live.eth.port port).gig - s.live.cst.asymNs port
def syncTheta (s : State) (d port ago : Nat) (t1 corr : Int) : Dy :=
  ({ m := syncT2 s d port ago - t1 - corr } : Dy).add
    { ((s.live.ptp.slot d).delta.getD {}) with m := -((s.live.ptp.slot d).delta.getD {}).m }
/-- The slot with the Sync noted. -/
def syncNoted (s : State) (d port ago : Nat) (t1 corr : Int) : PtpSlot :=
  { s.live.ptp.slot d with
    t1 := t1, t2 := syncT2 s d port ago, syncAt := s.now - ago, theta := (syncTheta s d port ago t1 corr).ns32 }
/-- R375: an offset no larger than the step threshold. -/
def withinStep (s : State) (d : Nat) (th : Dy) : Bool := ({ th with m := th.m.natAbs } : Dy).le { m := s.live.cst.stepUs d * 1000 }
/-- The slot takes a Sync of its master. -/
abbrev SyncTaken (s : State) (d port : Nat) : Prop := SlotFollows s d port ∧ ∃ ds, (s.live.ptp.slot d).master = some (port, ds)
/-- R375: the offsets below 1 us in a row. -/
def smallRun (th : Dy) (x : PtpSlot) : Nat := if ({ m := 1000 } : Dy).le { th with m := th.m.natAbs } then 0 else x.small + 1
/-- R375: the servo of a slot after an offset `th`, at a Sync interval of 2^`logI` s. -/
def servoStep (s : State) (d : Nat) (th : Dy) (logI : Int) (x : PtpSlot) : PtpSlot :=
  let gain := fun (o : Nat) => (({ th with e := th.e - logI } : Dy).mul { m := u32 (s.live.cst.netPtp d) o, e := -16 })
  let n := smallRun th x
  let lock : Bool := x.locked || decide (8 ≤ n)
  { (x.rebase s.now) with
    integral := x.integral.add (gain 12), addend := addendOf (((gain 8).add x.integral).limit 500000), small := n
    lockedAt := if lock && !x.locked then s.now else x.lockedAt, locked := lock, wasLocked := x.wasLocked || lock }
/-- R375: LOSS_S without a Sync. -/
abbrev SyncLost (s : State) (d : Nat) : Prop :=
  d < 2 ∧ s.live.cst.ptpMode d = 1 ∧ ((s.live.ptp.slot d).locked = true ∨ (s.live.ptp.slot d).acquired = true)
    ∧ (s.live.ptp.slot d).syncAt + s.live.cst.lossS d * 1000000000 ≤ s.now
/-- R377: the preferred clock has been locked for RETURN_S. -/
abbrev ReturnDue (s : State) : Prop :=
  s.live.ptp.use ≠ s.live.cst.ptpPref ∧ s.live.cst.ptpOn s.live.cst.ptpPref = true ∧ (s.live.ptp.slot s.live.cst.ptpPref).locked = true
    ∧ (s.live.ptp.slot s.live.cst.ptpPref).lockedAt + s.live.cst.returnS s.live.cst.ptpPref * 1000000000 ≤ s.now
/-- R380: an armed load whose second has begun. -/
abbrev LoadDue (s : State) (d sec0 load : Nat) : Prop :=
  (s.live.ptp.slot d).armed = some (sec0, load) ∧ d < 2 ∧ sec0 < (s.live.ptp.slot d).ns s.now / 1000000000

end Sys2Proof.Claims

/-- R363 to R367: a link comes and goes; a bad frame is counted, a good one is filtered by VLAN, a duplicate of the redundant pair dropped, the
rest handed on; supervision frames, ARP and ICMP replies, and the end of a reassembly. -/
def Obligations.PortsRun : Prop :=
  (∀ p up g s, p < 2 → exec (.linkChange p up g) s = .next (s.modEth fun e => e.setPort p { e.port p with
      up := linkGot s p up g, gig := linkGot s p up g && g
      bufPtp := if linkGot s p up g then (e.port p).bufPtp else 0, bufOther := if linkGot s p up g then (e.port p).bufOther else 0 })) ∧
  (∀ p up g s, 2 ≤ p → exec (.linkChange p up g) s = .next s) ∧
  (∀ p f s, s.portOn p = true → ¬ FrameGood s p f → exec (.ethFrameRx p f) s = .next (s.modEth fun e =>
      e.setPort p { s.live.eth.port p with err := sat32 (s.live.eth.port p).err })) ∧
  (∀ p f s, s.portOn p = true → FrameGood s p f → s.live.cst.vlanOk p f.vid = false →
    exec (.ethFrameRx p f) s = .next (frameCounted s p)) ∧
  (∀ p f s, s.portOn p = true → FrameGood s p f → s.live.cst.vlanOk p f.vid = true → (redundant s p f = false ∨ f.prp = none) →
    exec (.ethFrameRx p f) s = .next ((frameCounted s p).ethAccept p f)) ∧
  (∀ p f s src seq lan, s.portOn p = true → FrameGood s p f → s.live.cst.vlanOk p f.vid = true → redundant s p f = true →
    f.prp = some (src, seq, lan) → exec (.ethFrameRx p f) s = .next (
      let a := lanChecked (frameCounted s p) lan
      let tab := a.live.eth.freshDups a.now
      if tab.any fun d => d.1 = src ∧ d.2.1 = seq then a.modEth fun e => { e with dups := tab, prpDup := sat32 e.prpDup }
      else (a.modEth fun e => { e with dups := (tab ++ [(src, seq, a.now)]).drop (tab.length + 1 - 2048) }).ethAccept p f)) ∧
  (∀ p f s, s.portOn p = false → exec (.ethFrameRx p f) s = .next s) ∧
  (∀ s, SupervisionDue s → exec .prpSupervision s = .next
    ((s.modEth fun e => { e with supAt := some s.now }).ethSend (s.portsFor 0) 0 [0x01154E000100])) ∧
  (∀ s, ¬ SupervisionDue s → exec .prpSupervision s = .next s) ∧
  (∀ p ip a s, s.portUp p = true → s.live.ipv4 p = some ip → exec (.arpRequest p ip a) s = .next (s.ethSend (s.portsFor p) 1 [ip, a])) ∧
  (∀ p ip a s, (s.portUp p = false ∨ s.live.ipv4 p ≠ some ip) → exec (.arpRequest p ip a) s = .next s) ∧
  (∀ p ip i l s, s.portUp p = true → s.live.ipv4 p = some ip → exec (.icmpEcho p ip i l) s = .next (s.ethSend (s.portsFor p) 2 (i :: l))) ∧
  (∀ p ip i l s, (s.portUp p = false ∨ s.live.ipv4 p ≠ some ip) → exec (.icmpEcho p ip i l) s = .next s) ∧
  (∀ g s, exec (.reassemblyTimeout g) s = .next (s.modEth fun e =>
      { e with reasm := e.reasm.filter fun r => !(r.1 = g && s.elapsed r.2 100000000) }))

/-- R374 to R378, R380: the best master is chosen from Announces, a Sync steps an unacquired or far clock and steers a near one, delay requests and responses
give δ, the loss of Syncs and the return to the preferred clock, an armed load. -/
def Obligations.NetworkTimeIsKept : Prop :=
  (∀ d port ds u s, SlotFollows s d port → (s.live.ptp.slot d).master = none →
    exec (.ptpAnnounce d port (u8 (s.live.cst.netPtp d) 0) ds u) s = .next (s.modPtp fun p =>
      p.setSlot d { s.live.ptp.slot d with master := some (port, ds), utcOfs := u, heardAt := s.now }).settlePtp) ∧
  (∀ d port ds u s old, SlotFollows s d port → (s.live.ptp.slot d).master = some (port, old) → old.getD 5 0 = ds.getD 5 0 →
    exec (.ptpAnnounce d port (u8 (s.live.cst.netPtp d) 0) ds u) s = .next (s.modPtp fun p =>
      p.setSlot d { s.live.ptp.slot d with master := some (port, ds), utcOfs := u, heardAt := s.now }).settlePtp) ∧
  (∀ d port ds u s q old, SlotFollows s d port → (s.live.ptp.slot d).master = some (q, old) → ¬ (q = port ∧ old.getD 5 0 = ds.getD 5 0) →
    (betterMaster port ds q old = true ∨ (s.live.ptp.slot d).silent (s.live.cst.lossS d) s.now = true) →
    exec (.ptpAnnounce d port (u8 (s.live.cst.netPtp d) 0) ds u) s = .next (s.modPtp fun p => p.setSlot d (
      let y : PtpSlot := { s.live.ptp.slot d with master := some (port, ds), utcOfs := u, heardAt := s.now }
      if old.getD 5 0 = ds.getD 5 0 then y else y.acquire)).settlePtp) ∧
  (∀ d port ds u s q old, SlotFollows s d port → (s.live.ptp.slot d).master = some (q, old) → ¬ (q = port ∧ old.getD 5 0 = ds.getD 5 0) →
    betterMaster port ds q old = false → (s.live.ptp.slot d).silent (s.live.cst.lossS d) s.now = false →
    exec (.ptpAnnounce d port (u8 (s.live.cst.netPtp d) 0) ds u) s = .next (s.modPtp fun p => p.setSlot d (s.live.ptp.slot d)).settlePtp) ∧
  (∀ d port dom ds u s, (¬ SlotFollows s d port ∨ dom ≠ u8 (s.live.cst.netPtp d) 0) → exec (.ptpAnnounce d port dom ds u) s = .next s) ∧
  (∀ d port t1 c l ago s, SyncTaken s d port → (s.live.ptp.slot d).servoOff = true →
    exec (.ptpSync d port t1 c l ago) s = .next (s.modPtp fun p => p.setSlot d (syncNoted s d port ago t1 c))) ∧
  (∀ d port t1 c l ago s, SyncTaken s d port → (s.live.ptp.slot d).servoOff = false →
    ((s.live.ptp.slot d).acquired = false ∨ withinStep s d (syncTheta s d port ago t1 c) = false) →
    exec (.ptpSync d port t1 c l ago) s = .next (((s.modPtp fun p => p.setSlot d { syncNoted s d port ago t1 c with
      acquired := true, small := smallRun (syncTheta s d port ago t1 c) (s.live.ptp.slot d) }).modPtp fun p =>
        p.stepClock d (-(((syncTheta s d port ago t1 c).mul { m := 1, e := 28 }).scaleRound 1 1)) s.live.cst.slewPpb s.now).settlePtp)) ∧
  (∀ d port t1 c l ago s, SyncTaken s d port → (s.live.ptp.slot d).servoOff = false → (s.live.ptp.slot d).acquired = true →
    withinStep s d (syncTheta s d port ago t1 c) = true →
    exec (.ptpSync d port t1 c l ago) s = .next (s.modPtp fun p =>
      p.setSlot d (servoStep s d (syncTheta s d port ago t1 c) l (syncNoted s d port ago t1 c))).settlePtp) ∧
  (∀ d port t1 c l ago s, ¬ SyncTaken s d port → exec (.ptpSync d port t1 c l ago) s = .next s) ∧
  (∀ d s port ds, SlotFollows s d port → (s.live.ptp.slot d).master = some (port, ds) → exec (.delayReq d) s = .next (
      let x := s.live.ptp.slot d
      let q := s.live.eth.port port
      let full := decide (16 ≤ q.tsq.length)
      ((s.send (.eth 3 [d, port, x.dseq])).modEth fun e => e.setPort port { q with
        tx := sat32 q.tx, ovf := q.ovf || full
        tsq := if full then q.tsq else q.tsq ++ [(x.dseq, d, 1, x.stamp s.now + egressNs q.gig)] }).modPtp fun p =>
        { (p.setSlot d { x with dseq := (x.dseq + 1) % 65536 }) with
          tsqDrop := if full then satAdd 16 p.tsqDrop 1 else p.tsqDrop })) ∧
  (∀ d s, (∀ port ds, ¬ (SlotFollows s d port ∧ (s.live.ptp.slot d).master = some (port, ds))) → exec (.delayReq d) s = .next s) ∧
  (∀ d q t4 s port ds e, d < 2 → s.live.cst.ptpMode d = 1 → s.live.pwr.cpRunning = true → (s.live.ptp.slot d).master = some (port, ds) →
    (s.live.eth.port port).tsq.find? (fun e => e.1 = q ∧ e.2.1 = d) = some e → exec (.delayResp d q t4) s = .next (
      let x := s.live.ptp.slot d
      let new : Dy := { m := (x.t2 - x.t1) - (t4 - e.2.2.2), e := -1 }
      (s.modEth fun n => n.setPort port { s.live.eth.port port with tsq := tsqAfter (s.live.eth.port port).tsq d q }).modPtp fun p =>
        p.setSlot d { x with delta := some (match x.delta with
          | none => new
          | some old =>
            let diff := new.add { old with m := -old.m }
            old.add { diff with e := diff.e - 3 }) })) ∧
  (∀ d q t4 s, (2 ≤ d ∨ s.live.cst.ptpMode d ≠ 1 ∨ s.live.pwr.cpRunning = false ∨ (s.live.ptp.slot d).master = none) →
    exec (.delayResp d q t4) s = .next s) ∧
  (∀ d q t4 s port ds, (s.live.ptp.slot d).master = some (port, ds) →
    (s.live.eth.port port).tsq.find? (fun e => e.1 = q ∧ e.2.1 = d) = none → exec (.delayResp d q t4) s = .next s) ∧
  (∀ d s, SyncLost s d → exec (.ptpSyncLoss d) s = .next (s.modPtp fun p => p.setSlot d (s.live.ptp.slot d).acquire).settlePtp) ∧
  (∀ d s, ¬ SyncLost s d → exec (.ptpSyncLoss d) s = .next s) ∧
  (∀ s, ReturnDue s → exec .ptpReturn s = .next (s.modPtp fun p => p.follow s.live.cst.ptpPref s.live.cst.slewPpb s.now).settlePtp) ∧
  (∀ s, ¬ ReturnDue s → exec .ptpReturn s = .next s) ∧
  (∀ d s sec0 load, LoadDue s d sec0 load → exec (.ptpArmedLoad d) s = .next (((s.modPtp fun p => p.setSlot d { s.live.ptp.slot d with
      armed := none, locked := true, wasLocked := true
      lockedAt := if (s.live.ptp.slot d).locked then (s.live.ptp.slot d).lockedAt else s.now }).modPtp fun p =>
        p.stepClock d (((load * 1000000000 * nsUnit : Nat) : Int) - (s.live.ptp.slot d).value s.now) s.live.cst.slewPpb s.now).settlePtp)) ∧
  (∀ d s, (∀ sec0 load, ¬ LoadDue s d sec0 load) → exec (.ptpArmedLoad d) s = .next s)

namespace Sys2Proof.Claims

open Sys2Proof Sys2Proof.Machine

/-- R382: the reservations of YRA that still stand. -/
def yraStanding (s : State) : List Opening := s.live.eth.opening.filter fun o => decide (s.now < o.openedAt + 60000000000)
/-- R382: a session slot is free and the role may open one. -/
abbrev YraRoom (s : State) (r : Role) (slot : Nat) : Prop :=
  freeSlot 16 s.live.cst.yraSessions (s.live.eth.sessions.map Session.slot ++ (yraStanding s).map Opening.slot) = some slot
    ∧ s.live.sec.opens r = true
/-- The opening a random draw gives. -/
def openingOf (s : State) (r : Role) (slot : Nat) (hostNonce : Bytes) : Opening :=
  { session := s.nextTxn, role := r, slot := slot, hostNonce := hostNonce.take 16, nonce := leBytes 16 (s.random 128).1, openedAt := s.now }
/-- R382: the opening that a PROVE names stands, and its role has a key that makes the MAC and may open a session. -/
abbrev YraProven (s : State) (session : Nat) (mac : Bytes) (o : Opening) (key : Bytes) : Prop :=
  s.live.eth.opening.find? (fun (o : Opening) => o.session = session && decide (s.now < o.openedAt + 60000000000)) = some o
    ∧ s.live.sec.key? (roleSlot o.role) = some key ∧ mac = proveMac "YRA-OPEN" key o ∧ s.live.sec.opens o.role = true
/-- R383: a protected request of an open session whose counter is new. -/
abbrev YraNew (s : State) (session ctr : Nat) (x : Session) : Prop :=
  s.hears .yra = true ∧ s.live.eth.sessions.find? (fun (x : Session) => x.id = session) = some x ∧ ∀ c, x.ctr = some c → c < ctr
/-- A session as a new request notes it. -/
def yraNoted (s : State) (session ctr : Nat) : State := s.modEth fun e => { e with
  sessions := e.sessions.map fun y => if y.id = session then { y with ctr := some ctr, lastReply := none, lastAt := s.now } else y }
/-- R382: a session without a valid request for 60 s. -/
abbrev YraIdle (s : State) (session : Nat) : Prop :=
  ∃ x, s.live.eth.sessions.find? (fun (x : Session) => x.id = session) = some x ∧ x.lastAt + 60000000000 ≤ s.now
/-- R389: the network is up and the control plane runs. -/
abbrev NetworkUp (s : State) : Prop := (s.portOn 0 = true ∨ s.portOn 1 = true) ∧ s.live.pwr.cpRunning = true
/-- R388: a SYNC is owed to a substation, and this module commands the protocol. -/
abbrev SyncOwed (s : State) (sub : Nat) : Prop :=
  sub < s.live.cst.substations ∧ (s.live.eth.sub sub).syncDue = true ∧ s.yspHolds = true

end Sys2Proof.Claims

/-- R382 to R384: a YRA session is opened in a free slot, proven with the role's key, serves register transactions once per counter, and closes on
request or after 60 s; the repeat of the last request gets the last answer, a wrong tag or MAC is counted. -/
def Obligations.YraSessionsAreServed : Prop :=
  (∀ r n ctr s slot, s.hears .yra = true → YraRoom s (roleOfCode r) slot → exec (.yraOpen r n ctr) s = .next (
      let o := openingOf s (roleOfCode r) slot n
      let a := { (s.random 128).2 with nextTxn := s.nextTxn + 1 }
      (a.modEth fun e => { e with opening := yraStanding s ++ [o] }).send (.yra 1 o.session ctr (leBytes 4 o.session ++ o.nonce)))) ∧
  (∀ r n ctr s, s.hears .yra = true → (∀ slot, ¬ YraRoom s (roleOfCode r) slot) →
    exec (.yraOpen r n ctr) s = .next (s.send (.yra 1 0 ctr (leBytes 4 0 ++ leBytes 16 0)))) ∧
  (∀ r n ctr s, s.hears .yra = false → exec (.yraOpen r n ctr) s = .next s) ∧
  (∀ i mac ctr s o key, s.hears .yra = true → YraProven s i mac o key → exec (.yraProve i mac ctr) s = .next (
      let a := s.modEth fun e => { e with
        opening := e.opening.filter fun x => x.session ≠ i
        sessions := e.sessions ++ [{ id := i, role := o.role, slot := o.slot, lastAt := s.now }] }
      (a.modSec fun x => x.fill o.slot 5 3 false (sessionKey "YRA-SK" key o)).send (.yra 2 i ctr []))) ∧
  (∀ i mac ctr s, s.hears .yra = true → (∀ o key, ¬ YraProven s i mac o key) → exec (.yraProve i mac ctr) s = .next s.yraAuthFail) ∧
  (∀ i mac ctr s, s.hears .yra = false → exec (.yraProve i mac ctr) s = .next s) ∧
  (∀ i ctr as d s x, YraNew s i ctr x →
    exec (.yraData i ctr true as d) s = .next ((yraNoted s i ctr).transact .yra x.role i d (.yra i ctr) as)) ∧
  (∀ i ctr s x, YraNew s i ctr x →
    exec (.yraClose i ctr true) s = .next (((yraNoted s i ctr).closeYra fun x => x.id = i).dropLock.send (.yra 4 i ctr []))) ∧
  (∀ i ctr as d s x, s.hears .yra = true → s.live.eth.sessions.find? (fun (x : Session) => x.id = i) = some x →
    exec (.yraData i ctr false as d) s = .next s.yraAuthFail ∧ exec (.yraClose i ctr false) s = .next s.yraAuthFail) ∧
  (∀ i ctr as d s x m, s.hears .yra = true → s.live.eth.sessions.find? (fun (x : Session) => x.id = i) = some x → x.ctr = some ctr →
    x.lastReply = some m →
    exec (.yraData i ctr true as d) s = .next (s.send m) ∧ exec (.yraClose i ctr true) s = .next (s.send m)) ∧
  (∀ i ctr as d s x c, s.hears .yra = true → s.live.eth.sessions.find? (fun (x : Session) => x.id = i) = some x → x.ctr = some c →
    (ctr < c ∨ (ctr = c ∧ x.lastReply = none)) →
    exec (.yraData i ctr true as d) s = .next s ∧ exec (.yraClose i ctr true) s = .next s) ∧
  (∀ ok i ctr as d s, (s.hears .yra = false ∨ s.live.eth.sessions.find? (fun (x : Session) => x.id = i) = none) →
    exec (.yraData i ctr ok as d) s = .next s ∧ exec (.yraClose i ctr ok) s = .next s) ∧
  (∀ i s, YraIdle s i → exec (.yraSessionTimeout i) s = .next (s.closeYra fun x => x.id = i).dropLock) ∧
  (∀ i s, ¬ YraIdle s i → exec (.yraSessionTimeout i) s = .next s)

/-- R388, R389: telemetry of a substation is checked and its fields kept with the epoch; a frame that fails is counted with its reason, and
one of an old generation earns a SYNC, which is sent with the record's number and the cycle. -/
def Obligations.SubstationsReport : Prop :=
  (∀ f s, NetworkUp s → s.telCheck f = none → exec (.telemetry f) s = .next (
      let a := (s.modSec fun y => y.cacheKey f.sub (u16 s.live.cst.netGlobal 10)).modEth fun e => { e with yspRx := sat32 e.yspRx }
      a.modSub f.sub fun x => { x with
        fresh := x.fresh || x.addr.isNone, addr := some f.addr, rxCnt := f.fcnt, state := f.state % 4, lastAt := some s.now
        echo := f.echo, fields := f.entries.foldl (fun t e => tset t e.1 (e.2.2, decide (e.2.1 = 1), s.live.epc.epoch)) x.fields })) ∧
  (∀ f s c, NetworkUp s → s.telCheck f = some c → (c ≠ 5 ∨ (s.live.eth.sub f.sub).rejSync = true) → exec (.telemetry f) s = .next
    (s.modEth fun e => { e with yspRej := satAdd 28 e.yspRej 1, yspLast := c })) ∧
  (∀ f s, NetworkUp s → s.telCheck f = some 5 → (s.live.eth.sub f.sub).rejSync = false → exec (.telemetry f) s = .next
    ((s.modEth fun e => { e with yspRej := satAdd 28 e.yspRej 1, yspLast := 5 }).modSub f.sub fun x =>
      { x with syncDue := true, rejSync := true })) ∧
  (∀ f s, ¬ NetworkUp s → exec (.telemetry f) s = .next s) ∧
  (∀ i s, SyncOwed s.yspSettle i → exec (.yspSyncSend i) s = .next (
      let a := s.yspSettle
      (a.modSub i fun x => { x with syncDue := false }).yspSend 5 i
        [(a.live.pln.record.map fun r => r.seq).getD 0, a.cycleMs, u16 a.live.cst.netGlobal 8])) ∧
  (∀ i s, ¬ SyncOwed s.yspSettle i → exec (.yspSyncSend i) s = .next s.yspSettle)

/-! CAN buses. -/

namespace Sys2Proof.Claims

open Sys2Proof Sys2Proof.Machine

/-- R393, R409: the controllers operate and this one hears the bus: on the bus or listening only. -/
abbrev BusHeard (s : State) (c : Nat) : Prop := s.canRuns = true ∧ ((s.live.can.ctl c).onBus = true ∨ (s.live.can.ctl c).state = 6)
/-- R393: an FD frame on a classic controller. -/
abbrev WrongFormat (s : State) (c : Nat) (f : CanFrame) : Prop := canMode (s.live.cst.canCtrl c) = 1 ∧ f.fd = true
/-- R403: the module's own object, while it holds the claim. -/
def ownObject (s : State) (c : Nat) (f : CanFrame) : Bool := s.live.cst.canOwner c f.id = 2 && s.live.par.gate
/-- R399: an object that receives this frame. -/
abbrev Receives (s : State) (c : Nat) (f : CanFrame) : Prop :=
  f.extended = false ∧ f.remote = false ∧ s.live.cst.canOwner c f.id ≠ 0 ∧ ownObject s c f = false
/-- R402: a good frame lowers the receive error counter, a destroyed one raises it; the state follows. -/
def recCounted (s : State) (c : Nat) (good : Bool) : State :=
  s.modCtl c fun x => CanCtl.confine { x with rec_ := if good then x.rec_ - 1 else min 255 (x.rec_ + 1) }
/-- R400: the object's time has passed without a frame. -/
abbrev ObjectLate (s : State) (c id : Nat) : Prop :=
  ∃ b t, s.live.cst.canObj c id = some b ∧ (s.live.can.obj c id).lastAt = some t ∧ s.canRuns = true ∧ 0 < u16 b 2
    ∧ t + u16 b 2 * 1000000 ≤ s.now
/-- R401 to R405: how a request ends when its frame was not sent: cancelled, the claim lost, the object quarantined, sleep, else tried
again. -/
def notSent (s a : State) (c id : Nat) (x : CanMb) : CanMb :=
  if x.cancel then x.finish 2 true
  else if s.live.par.gate = false then x.finish 4 true
  else if (a.live.can.obj c id).quar then x.finish 5 true
  else if (a.live.can.ctl c).sleepDue then x.finish 6 true
  else { x with state := 1 }
/-- R402: the transmit error counter has passed 255 on a controller that is on the bus. -/
abbrev PassedOut (s : State) (c : Nat) : Prop := s.canRuns = true ∧ (s.live.can.ctl c).onBus = true ∧ 256 ≤ (s.live.can.ctl c).tec
/-- R402: BOFF_HOLD_MS after bus-off. -/
abbrev HoldPassed (s : State) (c : Nat) : Prop :=
  (s.live.can.ctl c).state = 4 ∧ (s.live.can.ctl c).recovering = false
    ∧ (s.live.can.ctl c).boffAt + u16 (s.live.cst.canCtrl c) 16 * 1000000 ≤ s.now
/-- R407: a wake frame of a sleeping controller. -/
abbrev Wakes (s : State) (c : Nat) (f : CanFrame) : Prop :=
  ∃ b, s.live.cst.canWake c = some b ∧ (s.live.can.ctl c).state = 5 ∧ canWakeMode (s.live.cst.canCtrl c) = 2 ∧ wakeMatch b f = true

end Sys2Proof.Claims

/-- R393, R399 to R405, R407, R409: a received frame is stored, ignored or counted as an error; an object grows stale; bus-off, its hold and its
recovery; integration and wake-up. A frame sent lowers the error counter and ends its request with OK or CANCELLED LATE; lost or in error,
the request is tried again unless something ends it, and an error counts. -/
def Obligations.CanFramesAreHandled : Prop :=
  (∀ c f s, BusHeard s c → WrongFormat s c f → exec (.canFrameRx c f) s = .next (s.modCtl c fun x => { x with state := 1 })) ∧
  (∀ c f s, BusHeard s c → ¬ WrongFormat s c f → f.destroyed = true → Receives s c f →
    exec (.canFrameRx c f) s = .next ((recCounted s c false).canClash c f.id)) ∧
  (∀ c f s, BusHeard s c → ¬ WrongFormat s c f → f.destroyed = true → ¬ Receives s c f →
    exec (.canFrameRx c f) s = .next (recCounted s c false)) ∧
  (∀ c f s, BusHeard s c → ¬ WrongFormat s c f → f.destroyed = false → ¬ Receives s c f →
    exec (.canFrameRx c f) s = .next ((recCounted s c true).modCtl c fun x => { x with ign := sat32 x.ign })) ∧
  (∀ c f s, BusHeard s c → ¬ WrongFormat s c f → f.destroyed = false → Receives s c f →
    exec (.canFrameRx c f) s = .next (
      let a := (recCounted s c true).modObj c f.id CanObj.noteGood
      if (a.live.can.obj c f.id).quar then a else a.canStore c f)) ∧
  (∀ c f s, ¬ BusHeard s c → exec (.canFrameRx c f) s = .next s) ∧
  (∀ c i s, ObjectLate s c i → exec (.canObjectTimeout c i) s = .next (s.modObj c i fun o => { o with stale := true })) ∧
  (∀ c i s, ¬ ObjectLate s c i → exec (.canObjectTimeout c i) s = .next s) ∧
  (∀ c s, PassedOut s c → exec (.busOff c) s = .next (
      let a := s.modCtl c fun x => { x with state := 4, boff := satAdd 8 x.boff 1, boffSeen := true, boffAt := s.now, recovering := false }
      (match a.canActive c with
        | some m => a.modMb c m fun x => if x.cancel then x.finish 2 true else { x with state := 1 }
        | none => a).journal 17 (ev2 c 0))) ∧
  (∀ c s, ¬ PassedOut s c → exec (.busOff c) s = .next s) ∧
  (∀ c s, HoldPassed s c → exec (.busOffRecovery c) s = .next (s.modCtl c fun x => { x with recovering := true })) ∧
  (∀ c s, ¬ HoldPassed s c → exec (.busOffRecovery c) s = .next s) ∧
  (∀ c s, (s.live.can.ctl c).state = 4 → (s.live.can.ctl c).recovering = true → exec (.busOffRecoveryComplete c) s = .next
    (s.modCtl c fun x => { x with state := 2, tec := 0, rec_ := 0, recovering := false })) ∧
  (∀ c s, ((s.live.can.ctl c).state ≠ 4 ∨ (s.live.can.ctl c).recovering = false) → exec (.busOffRecoveryComplete c) s = .next s) ∧
  (∀ c s, (s.live.can.ctl c).state = 1 → exec (.busIntegration c) s = .next (s.modCtl c fun x =>
      { x with state := if canMode (s.live.cst.canCtrl c) = 3 then 6 else 2, tec := 0, rec_ := 0 })) ∧
  (∀ c s, (s.live.can.ctl c).state ≠ 1 → exec (.busIntegration c) s = .next s) ∧
  (∀ c s, (s.live.can.ctl c).state = 5 → canWakeMode (s.live.cst.canCtrl c) = 1 → exec (.wakeEdge c) s = .next (s.canWakeUp c 1)) ∧
  (∀ c s, ((s.live.can.ctl c).state ≠ 5 ∨ canWakeMode (s.live.cst.canCtrl c) ≠ 1) → exec (.wakeEdge c) s = .next s) ∧
  (∀ c f s, Wakes s c f → exec (.wakeFrame c f) s = .next (
      let a := s.canWakeUp c 2
      if a.live.cst.canOwner c f.id ≠ 0 ∧ (a.live.can.obj c f.id).quar = false then a.canStore c f else a)) ∧
  (∀ c f s, ¬ Wakes s c f → exec (.wakeFrame c f) s = .next s) ∧
  (∀ c code k s m, s.canActive c = some m → exec (.canFrameEnd c 0 code k) s = .next (
      let a := ((s.modCtl c fun x => CanCtl.confine { x with tx := sat32 x.tx, tec := x.tec - 1 }).modObj c (s.canId c m)
        CanObj.noteGood).modMb c m fun x => x.finish (if x.cancel then 3 else 1) false
      (if a.live.par.gate then a else a.endRequests c 4).canDoze c)) ∧
  (∀ c code k s m, s.canActive c = some m → ∃ t : State, exec (.canFrameEnd c 1 code k) s = .next (t.canDoze c)
      ∧ t = s.modMb c m (notSent s s c (s.canId c m))) ∧
  (∀ c code s m, s.canActive c = some m → ∃ t a : State, exec (.canFrameEnd c 2 code false) s = .next (t.canDoze c)
      ∧ a = (s.modCtl c fun x => CanCtl.confine { x with tec := x.tec + 8, lastErr := code }).modObj c (s.canId c m) (fun o => { o with good := 0 })
      ∧ t = a.modMb c m (notSent a a c (s.canId c m))) ∧
  (∀ c code s m, s.canActive c = some m → ∃ t a : State, exec (.canFrameEnd c 2 code true) s = .next (t.canDoze c)
      ∧ a = (s.modCtl c fun x => CanCtl.confine { x with tec := x.tec + 8, lastErr := code }).canClash c (s.canId c m)
      ∧ t = a.modMb c m (notSent a a c (s.canId c m))) ∧
  (∀ c h code k s, s.canActive c = none → exec (.canFrameEnd c h code k) s = .next s)

/-! Calendar. -/

namespace Sys2Proof.Claims

open Sys2Proof Sys2Proof.Machine

/-- R411: the rail has fallen below the backup supply or 2.5 V. -/
abbrev RailFalls (s : State) (rail vbak : Nat) : Prop := s.live.clk.onVbak = false ∧ (rail < vbak ∨ rail < 2500)
/-- R411: the rail is back, with its hysteresis. -/
abbrev RailReturns (s : State) (rail vbak : Nat) : Prop := s.live.clk.onVbak = true ∧ vbak + 60 < rail ∧ 2560 < rail
/-- R424: the window against the mains has ended, the reference settled. -/
abbrev MainsWindowOver (s : State) : Prop :=
  s.settleRef.live.clk.winRef = 1 ∧ s.settleRef.live.clk.winStart + s.settleRef.windowS ≤ s.settleRef.calSec ∧ s.settleRef.windowS ≠ 0
/-- R424: the edges counted in the window, and those a perfect mains gives. -/
def edgesCounted (s : State) : Nat := (s.mainsEdges + 2 ^ 32 - s.live.clk.winBase) % 2 ^ 32
def edgesWanted (s : State) : Nat := u8 s.live.cst.calGlobal 2 * s.windowS
/-- R424: a window counts when its channel had no fault and the count is within 1 %. -/
def windowGood (s : State) : Bool :=
  !(s.chan (u8 s.live.cst.calGlobal 1)).winFault && !(s.chan (u8 s.live.cst.calGlobal 1)).fault
    && decide (((edgesCounted s : Int) - (edgesWanted s : Int)).natAbs * 100 ≤ edgesWanted s)
/-- R425: the network clock is the reference, at a second boundary. -/
abbrev ComparesPtp (s : State) : Prop := s.settleRef.live.clk.winRef = 2 ∧ s.settleRef.calSub = 0
/-- R425: the difference asks for a step. -/
def stepAsked (s : State) : Bool :=
  u16 s.live.cst.calGlobal 6 ≠ 0 && decide (u16 s.live.cst.calGlobal 6 * 32768 < s.ptpDiff.natAbs * 1000)
/-- R418, R425: an automatic step is due and no host load falls in the same second. -/
abbrev AutoStepDue (s : State) : Prop :=
  s.live.clk.autoStep = true ∧ s.calSub = 0 ∧ s.live.clk.counts ≠ s.live.clk.autoAt ∧ s.calRef = 2 ∧ s.live.clk.armed = none
/-- R428: alarm `n` is armed and its instant has come. -/
abbrev AlarmDue (s : State) (n : Nat) : Prop :=
  (tget s.live.clk.alarms n {}).armed = true ∧ s.calSub = 0 ∧ (tget s.live.clk.alarms n {}).next ≤ s.calSec

end Sys2Proof.Claims

/-- R411, R412: the supply of the backup domain: the move to VBAK and back with their stamps and journal records, the measurement,
the loss of both. -/
def Obligations.TheBackupDomainIsSupplied : Prop :=
  (∀ a b s, RailFalls s a b → exec (.vbakSwitch a b) s = .next (s.modClk fun c =>
      { c with onVbak := true, loss := some c.counts, owedLoss := true })) ∧
  (∀ a b s, ¬ RailFalls s a b → exec (.vbakSwitch a b) s = .next s) ∧
  (∀ a b s, RailReturns s a b → exec (.vbakReturn a b) s = .next ((((if s.live.clk.owedLoss then s.journal 8 (ev1 1) else s).journal
      8 (ev1 2)).modClk fun c => { c with onVbak := false, owedLoss := false, ret := some c.counts }))) ∧
  (∀ a b s, ¬ RailReturns s a b → exec (.vbakReturn a b) s = .next s) ∧
  (∀ mv s, exec (.vbakMeasure mv) s = .next (s.modClk fun c => { c with vbakMv := mv, battLow := decide (mv < 2200) })) ∧
  (∀ s, ∃ c : Clk, exec .backupDomainLoss s = .next ((s.modClk fun _ => c).modSec fun x => { x with
      tStart := false, tLoad := false, tSleep := false, tRun := false, tKeyop := false, ackPending := false, tamperCount := 0
      armedCopy := false })
    ∧ c.counts = 0 ∧ c.invalid = true ∧ c.bkp = [] ∧ c.loss = none ∧ c.ret = none ∧ c.tamp = none ∧ c.trimR = 0
    ∧ c.trimT = 0 ∧ c.temp = 0 ∧ c.vbakMv = 0 ∧ c.curve = s.live.clk.curve ∧ c.onVbak = s.live.clk.onVbak
    ∧ c.active0 = s.live.clk.active0 ∧ c.active1 = s.live.clk.active1 ∧ (∀ p ∈ c.alarms, p.2.armed = false))

/-- R380, R413, R416, R418, R422, R424 to R426: loads at second boundaries, the temperature trim, the windows against the mains and the
network clock, the automatic step, the loss of the reference, a change of the local offset. -/
def Obligations.TheCalendarIsDisciplined : Prop :=
  (∀ s t, s.live.clk.armed = some t → s.calSub = 0 → s.live.clk.counts ≠ s.live.clk.armedAt → exec .calendarArmedLoad s = .next
    ((s.modClk fun c => { c with armed := none }).loadCalendar (t * 32768))) ∧
  (∀ s, (s.live.clk.armed = none ∨ s.calSub ≠ 0 ∨ s.live.clk.counts = s.live.clk.armedAt) → exec .calendarArmedLoad s = .next s) ∧
  (∀ s d, s.live.clk.pairStep = some d → s.calSub = 0 → s.live.clk.counts ≠ s.live.clk.pairAt → exec .calendarSyncStep s = .next
    ((s.modClk fun c => { c with pairStep := none }).stepTo ((s.live.clk.counts : Int) + d).toNat)) ∧
  (∀ s, (s.live.clk.pairStep = none ∨ s.calSub ≠ 0 ∨ s.live.clk.counts = s.live.clk.pairAt) → exec .calendarSyncStep s = .next s) ∧
  (∀ x s, exec (.temperatureTrim x) s = .next ((s.modClk fun c => { c with temp := x, trimT := -(curveAt c.curve x) }).modSys fun y =>
      { y with tempModule := divHalfEven (x * 10) 65536 })) ∧
  (∀ s, MainsWindowOver s → windowGood s.settleRef = true → exec .mainsWindow s = .next ((s.settleRef.modClk fun c =>
      c.trimBy ((edgesCounted s.settleRef : Int) - (edgesWanted s.settleRef : Int)) (edgesWanted s.settleRef) s.settleRef.calSec).openWindow)) ∧
  (∀ s, MainsWindowOver s → windowGood s.settleRef = false → exec .mainsWindow s = .next s.settleRef.openWindow) ∧
  (∀ s, ¬ MainsWindowOver s → exec .mainsWindow s = .next s.settleRef) ∧
  (∀ s, ComparesPtp s → exec .ptpReferenceCompare s = .next (
      let a := s.settleRef
      let b := if stepAsked a then a.modClk fun c => { c with autoStep := true, autoAt := if c.autoStep then c.autoAt else c.counts } else a
      if b.windowS ≠ 0 ∧ a.live.clk.winStart + b.windowS ≤ b.calSec then
        (b.modClk fun x => x.trimBy (a.live.clk.winDiff - a.ptpDiff) (b.windowS * 32768) b.calSec).openWindow
      else b)) ∧
  (∀ s, ¬ ComparesPtp s → exec .ptpReferenceCompare s = .next s.settleRef) ∧
  (∀ s, AutoStepDue s → exec .automaticStep s = .next (s.loadCalendar ((s.live.clk.counts : Int) - s.ptpDiff).toNat)) ∧
  (∀ s, ¬ AutoStepDue s → exec .automaticStep s = .next s) ∧
  (∀ s, s.live.clk.lastValid + 86400 ≤ s.calSec → s.live.clk.timedOut = false → exec .referenceTimeout s = .next (s.modClk fun c =>
      { c with trimR := 0, refLost := true, timedOut := true })) ∧
  (∀ s, (s.calSec < s.live.clk.lastValid + 86400 ∨ s.live.clk.timedOut = true) → exec .referenceTimeout s = .next s) ∧
  (∀ s, exec .dstTransition s = .next (s.modClk fun c => { c with dst := s.live.cst.dstAt s.calSec })) ∧
  (∀ n s, AlarmDue s n → exec (.alarmFire n) s = .next (
      let a := tget s.live.clk.alarms n {}
      s.fireAlarm n a.next a.late (if a.periodic then a.firstFrom (a.next + 1) else none))) ∧
  (∀ n s, ¬ AlarmDue s n → exec (.alarmFire n) s = .next s)

/-! The security enclave. -/

namespace Sys2Proof.Claims

open Sys2Proof Sys2Proof.Machine

/-- R448: how a command ends: shown, journalled, the fifth word the lifecycle it leaves. -/
def commandShown (s : State) (res code seq : Nat) : State :=
  let a := s.cmdResult 2 res (code % 256) seq
  a.journal 21 (ev2 code res ++ leBytes 4 seq ++ ev1 a.live.sec.lifecycle.code)
/-- R456: a DEBUG_UNLOCK that failed is counted, the eighth locks the port out, and the challenge is spent. -/
def unlockFailed (s : State) : State :=
  s.modSec fun x => { x with dbgFails := satAdd 4 x.dbgFails 1, lockout := x.lockout || decide (7 ≤ x.dbgFails), challenge := none }
/-- R448: a command that succeeded with a sequence number uses it up. -/
def sequenceUsed (s : State) (seq : Nat) : State := if 0 < seq then s.modSec fun x => { x with cmdSeq := seq } else s
/-- The command that runs, taken out of the enclave. -/
def commandTaken (s : State) : State := s.modSec fun x => { x with running := none }

end Sys2Proof.Claims

/-- R435, R438, R439, R447 to R449, R456, R467: a signed command ends with the code of the first check that fails and without effect, or with its
effect, its sequence number used up; what each accepted command does to the module. -/
def Obligations.SignedCommandsAreExecuted : Prop :=
  (∀ s r, s.live.sec.running = some r → (commandTaken s).cmdCheck r ≠ 1 → cmdCode_ r.bytes ≠ 11 →
    exec .securityCommandEnd s = .next (commandShown (commandTaken s) ((commandTaken s).cmdCheck r) (cmdCode_ r.bytes) (cmdSeq_ r.bytes))) ∧
  (∀ s r, s.live.sec.running = some r → (commandTaken s).cmdCheck r ≠ 1 → cmdCode_ r.bytes = 11 →
    exec .securityCommandEnd s = .next (commandShown (unlockFailed (commandTaken s)) ((commandTaken s).cmdCheck r) 11 (cmdSeq_ r.bytes))) ∧
  (∀ s r t, s.live.sec.running = some r → (commandTaken s).cmdCheck r = 1 → (commandTaken s).cmdEffect r = (1, t) →
    cmdCode_ r.bytes ≠ 9 → exec .securityCommandEnd s = .next
      (commandShown (sequenceUsed t (cmdSeq_ r.bytes)) 1 (cmdCode_ r.bytes) (cmdSeq_ r.bytes))) ∧
  (∀ s r t, s.live.sec.running = some r → (commandTaken s).cmdCheck r = 1 → (commandTaken s).cmdEffect r = (1, t) →
    cmdCode_ r.bytes = 9 → exec .securityCommandEnd s = .next
      (commandShown (sequenceUsed t (cmdSeq_ r.bytes)) 1 9 (cmdSeq_ r.bytes)).tamperAck) ∧
  (∀ s r k t, s.live.sec.running = some r → (commandTaken s).cmdCheck r = 1 → (commandTaken s).cmdEffect r = (k, t) → k ≠ 1 →
    cmdCode_ r.bytes = 10 → exec .securityCommandEnd s = .next (commandShown t k 10 (cmdSeq_ r.bytes))) ∧
  (∀ s, s.live.sec.running = none → exec .securityCommandEnd s = .next s) ∧
  (∀ (s : State) r, cmdCode_ r.bytes = 1 → s.cmdEffect r = (1, s.provisionModule (cmdBody r.bytes))) ∧
  (∀ (s : State) r, cmdCode_ r.bytes = 2 → s.cmdEffect r = (1, s.setOwnerKey (u8 (cmdBody r.bytes) 0) (s.live.sec.unwrap r.bytes))) ∧
  (∀ (s : State) r, cmdCode_ r.bytes = 3 → s.cmdEffect r = (1, s.setOwnerKey 13 (some (slice (cmdBody r.bytes) 4 64)))) ∧
  (∀ (s : State) r, cmdCode_ r.bytes = 4 → s.cmdEffect r = (1, s.setOwnerKey (u8 (cmdBody r.bytes) 0) none)) ∧
  (∀ (s : State) r, cmdCode_ r.bytes = 5 → ∃ t, s.cmdEffect r = (1, t) ∧ t = s.modSec fun x =>
      { x with lifecycle := .deployed, openNext := false }) ∧
  (∀ (s : State) r, cmdCode_ r.bytes = 6 → s.cmdEffect r = (1, s.returnToVendor)) ∧
  (∀ (s : State) r, cmdCode_ r.bytes = 7 → ∃ t, s.cmdEffect r = (1, t) ∧ t.live.sec.lifecycle = .scrapped) ∧
  (∀ (s : State) r m, cmdCode_ r.bytes = 8 → s.live.sec.material = some m → ∃ t, s.cmdEffect r = (1, t) ∧ t.live.sec.material = some { m with
      legacy := decide (u8 (cmdBody r.bytes) 0 = 1), tamperRun := u8 (cmdBody r.bytes) 1
      partialDbg := decide (u8 (cmdBody r.bytes) 2 = 1), generation := m.generation + 1 }) ∧
  (∀ (s : State) r, cmdCode_ r.bytes = 9 → s.cmdEffect r = (1, s)) ∧
  (∀ (s : State) r, cmdCode_ r.bytes = 10 → s.cmdEffect r = s.forceClaim (cmdBody r.bytes) r.src r.role r.session) ∧
  (∀ (s : State) r, cmdCode_ r.bytes = 11 → s.cmdEffect r = (1, s.unlock (u8 (cmdBody r.bytes) 0)))

namespace Sys2Proof.Claims

open Sys2Proof Sys2Proof.Machine

/-- The last burst of the debug port noted (R456). -/
def burstNoted (s : State) : State := s.modSec fun x => { x with lastBurst := s.now }

end Sys2Proof.Claims

/-- R431, R445, R454, R456, R458, R462, R463: a tamper input's activation is stamped and journalled, and answered where the lifecycle is armed;
timed ends of a challenge and of partial debug, the reseed, the attestation. A burst of the debug port opens while none is open and a bank is
published, closes on request or 1 ms after its last access: past 1,024 accesses it is TOO_LONG, and where it is refused nothing has been executed.
That its accesses act at its close is the model's choice (log entry 75). -/
def Obligations.EnclaveAndBurstsAreServed : Prop :=
  (∀ n s, n ≤ 1 → s.live.clk.inputActive n = false → s.live.sec.armed = false →
    exec (.tamperActivation n) s = .next (s.tamperMark n)) ∧
  (∀ n s, n ≤ 1 → s.live.clk.inputActive n = false → s.live.sec.armed = true →
    exec (.tamperActivation n) s = .next (s.tamperMark n).tamperArm.tamperRespond) ∧
  (∀ n s, (1 < n ∨ s.live.clk.inputActive n = true) → exec (.tamperActivation n) s = .next s) ∧
  (∀ (s : State) n, n ≤ 1 → (s.tamperMark n).live.clk.inputActive n = true
    ∧ (s.tamperMark n).live.clk.tamp = (if s.live.sec.ackPending then s.live.clk.tamp else some s.live.clk.counts)
    ∧ (s.tamperMark n).live.clk.tampSrc = (if s.live.sec.ackPending then s.live.clk.tampSrc ||| 2 ^ n else 2 ^ n)) ∧
  (∀ s : State, s.tamperArm.live.clk.bkp = [] ∧ s.tamperArm.live.sec.ackPending = true
    ∧ s.tamperArm.live.sec.tamperCount = satAdd 8 s.live.sec.tamperCount 1) ∧
  (∀ n s, exec (.tamperInputInactive n) s = .next (s.modClk fun c =>
      { c with active0 := c.active0 && n ≠ 0, active1 := c.active1 && n ≠ 1 })) ∧
  (∀ s c t, s.live.sec.challenge = some (c, t) → t + 300000000000 ≤ s.now →
    exec .challengeExpiry s = .next (s.modSec fun x => { x with challenge := none })) ∧
  (∀ s, (∀ c t, s.live.sec.challenge = some (c, t) → s.now < t + 300000000000) → exec .challengeExpiry s = .next s) ∧
  (∀ s, s.live.sec.debug = 1 → s.live.sec.lastBurst + 3600000000000 ≤ s.now →
    exec .partialTimeout s = .next (s.modSec fun x => { x with debug := 0 })) ∧
  (∀ s, (s.live.sec.debug ≠ 1 ∨ s.now < s.live.sec.lastBurst + 3600000000000) → exec .partialTimeout s = .next s) ∧
  (∀ s, 2 ^ 20 ≤ s.live.sec.drbgRequests → exec .drbgReseed s = .next (s.modSec fun x => { x with drbgRequests := 0 })) ∧
  (∀ s, s.live.sec.drbgRequests < 2 ^ 20 → exec .drbgReseed s = .next s) ∧
  (∀ s e ch o k, s.live.sec.attRun = some (e, ch, o) → s.live.sec.key? 4 = some k →
    exec .attestationComplete s = .next (s.modSec fun x => { x with
      attRun := none, attState := 2, attEpoch := e
      attMac := (List.range 8).map fun i => wordAt (Config.hmac k ch) i })) ∧
  (∀ s e ch o, s.live.sec.attRun = some (e, ch, o) → s.live.sec.key? 4 = none →
    exec .attestationComplete s = .next (s.modSec fun x => { x with attRun := none, attState := 3, attMac := [] })) ∧
  (∀ s, s.live.sec.attRun = none → exec .attestationComplete s = .next s) ∧
  (∀ as s b, s.hears .dbg = true → (burstNoted s).burst? = none → s.pub = some b → exec (.burstOpen as) s = .next (
      let a := burstNoted s
      let t := emptyTxn a .dbg s.live.sec.dbgRole 0 .none
      ({ a with nextTxn := s.nextTxn + 1, txns := s.txns ++ [t] } : State).burstAll t.id as)) ∧
  (∀ as s, s.hears .dbg = true → (burstNoted s).burst? = none → s.pub = none → exec (.burstOpen as) s = .next (
      let a := burstNoted s
      ({ a with nextTxn := s.nextTxn + 1 } : State).answer (emptyTxn a .dbg s.live.sec.dbgRole 0 .none) .notServed none)) ∧
  (∀ as s t, s.hears .dbg = true → (burstNoted s).burst? = some t → exec (.burstOpen as) s = .next (burstNoted s)) ∧
  (∀ as s, s.hears .dbg = false → exec (.burstOpen as) s = .next s) ∧
  (∀ s t, s.burst? = some t → exec .burstClose s = .next (s.closeBurst t)) ∧
  (∀ s, s.burst? = none → exec .burstClose s = .next s) ∧
  (∀ s t, s.burst? = some t → t.lastAccess + 1000000 ≤ s.now → exec .burstTimeout s = .next (s.closeBurst t)) ∧
  (∀ s, (∀ t, s.burst? = some t → s.now < t.lastAccess + 1000000) → exec .burstTimeout s = .next s) ∧
  (∀ (s : State) (t : Txn) o, s.refuses .dbg t.role t.held = some o →
    s.closeBurst t = ({ s with txns := s.txns.filter fun x => x.id ≠ t.id } : State).refuse t o) ∧
  (∀ (s : State) (t : Txn), s.refuses .dbg t.role t.held = none → s.closeBurst t = (s.accessAll t t.held).1.closeTxn (s.accessAll t t.held).2) ∧
  (∀ (s : State) (t : Txn), 1024 < t.held.length → s.refuses .dbg t.role t.held = some .tooLong)

/-! Supply, resets, updates, management, system. -/

namespace Sys2Proof.Claims

open Sys2Proof Sys2Proof.Machine

/-- R472: a power-fail warning whose journal record had no 4 ms to close. -/
abbrev RecordOpen (s : State) : Prop := s.live.pwr.pfw = true ∧ s.now < s.live.pwr.pfwAt + 4000000
/-- R125: the supply of a module with an optimiser goes after a warning that had its 4 ms (an orderly power-down, log entry 57). -/
abbrev OrderlyDown (s : State) : Prop := s.live.pwr.pfw = true ∧ s.live.pwr.pfwAt + 4000000 ≤ s.now ∧ s.live.epc.casting = true
  ∧ s.live.cst.optimiser = true
/-- R472: the last record of the journal marked incomplete. -/
def lastIncomplete (s : State) : State := s.modMgt fun m =>
  { m with journal := m.journal.dropLast ++ (m.journal.getLast?.map fun r => { r with incomplete := true }).toList }
/-- R469: the module as it loses its supply. -/
def supplyLost (s : State) : State :=
  (s.assertReset .powerOn 0).modPwr fun p => { p with powered := false, mode := .backup, lastMode := .backup, pfw := false }
/-- R470: VSUP has fallen below V_PF, no warning stands. -/
abbrev WarningDue (s : State) (mv : Nat) : Prop := s.live.pwr.powered = true ∧ s.live.pwr.pfw = false ∧ mv < s.live.pwr.vPf
/-- R470: VSUP is back above V_PF + 0.3 V. -/
abbrev WarningOver (s : State) (mv : Nat) : Prop := s.live.pwr.powered = true ∧ s.live.pwr.pfw = true ∧ s.live.pwr.vPf + 300 < mv
/-- A warning that ends, counted; a lone module that runs a casting holds NONE from here. -/
def warningEnded (s : State) (mv : Nat) (lone : Bool) : State := s.modPwr fun p => { p with
  pfw := false, pfwEndAt := some s.now, vsupMv := mv, pfwRecovered := satAdd 16 p.pfwRecovered 1, holdNone := p.holdNone || lone }
/-- R473: a module alone, with a casting, that no reset holds. -/
def runsAlone (s : State) : Bool := s.live.epc.casting && s.live.cst.pairInUse = 0 && !s.live.pwr.inReset
/-- R473: 10 ms after a warning, in a pair. -/
abbrev WarmResetDue (s : State) : Prop :=
  s.live.epc.casting = true ∧ s.live.cst.pairInUse ≠ 0 ∧ s.live.pwr.inReset = false ∧ s.live.pwr.pfw = false
    ∧ ∃ t, s.live.pwr.pfwEndAt = some t ∧ t + 10000000 ≤ s.now
/-- R484: a module reset asked for, whose time has come. -/
abbrev ModuleResetDue (s : State) (r : PendingReset) : Prop :=
  s.live.pwr.pendModule = some r ∧ r.due ≤ s.now ∧ s.live.pwr.inReset = false
/-- R485: the block resets whose time has come, and their bits. -/
def dueBlocks (s : State) : List PendingReset := s.live.pwr.pendBlocks.filter fun r => decide (r.due ≤ s.now)
def dueBits (s : State) : List Nat := (List.range 6).filter fun b => (dueBlocks s).any fun r => r.blocks.testBit b
/-- The blocks reset and journalled, in the order of their bits. -/
def blocksReset (s : State) : State :=
  (dueBits s).foldl (fun s b => (s.resetBlock b).journal 23 (ev2 b 0)) (s.modPwr fun p => { p with
    pendBlocks := p.pendBlocks.filter fun r => !decide (r.due ≤ s.now) })
/-- R486: an image that a restarted block needs is not what was measured. -/
def imageBad (s : State) (cpOk mgtOk : Bool) : Bool :=
  ((dueBits s).contains 0 && !(cpOk && (blocksReset s).live.imageMeasured 2 4))
    || ((dueBits s).contains 5 && !(mgtOk && (blocksReset s).live.imageMeasured 0 2))
/-- R486: the control plane runs: BOOT has begun and no reset is held. -/
abbrev CpUp (s : State) : Prop := s.live.pwr.inReset = false ∧ s.live.pwr.bootStarted = true
/-- R486: the control plane restarted, the image checked. -/
def cpRestarted (s : State) (cause : Nat) (ok : Bool) (f : Pwr → Pwr) : State :=
  let a := (s.resetCp.modPwr f).journal 23 (ev2 0 cause)
  if ok = true ∧ a.live.imageMeasured 2 4 = true then a else a.pulseReset .warmSw 4

end Sys2Proof.Claims

/-- R125, R318, R469 to R473: power-on reset, with the save of an orderly power-down, and its release, the power-fail warning, its end and the warm reset that follows it in a
pair. -/
def Obligations.TheSupplyIsWatched : Prop :=
  (∀ s, s.live.pwr.powered = true → RecordOpen s → exec .powerOnReset s = .next (supplyLost (lastIncomplete s))) ∧
  (∀ s, s.live.pwr.powered = true → OrderlyDown s → exec .powerOnReset s = .next (supplyLost s.saveParams)) ∧
  (∀ s, s.live.pwr.powered = true → ¬ RecordOpen s → ¬ OrderlyDown s → exec .powerOnReset s = .next (supplyLost s)) ∧
  (∀ s, s.live.pwr.powered = false → exec .powerOnReset s = .next s) ∧
  (∀ mv s, s.live.pwr.powered = false → 4600 < mv → exec (.powerOnRelease mv) s = .next
    ((s.modPwr fun p => { p with powered := true, vsupMv := mv, vAvgMv := mv }).releaseReset .powerOn)) ∧
  (∀ mv s, (s.live.pwr.powered = true ∨ mv ≤ 4600) → exec (.powerOnRelease mv) s = .next s) ∧
  (∀ mv s, WarningDue s mv → exec (.pfWarning mv) s = .next ((((s.modPwr fun p => { p with
      pfw := true, pfwSeen := true, pfwAt := s.now, pfwEndAt := none, vsupMv := mv, pfwCount := satAdd 16 p.pfwCount 1 }).journal
      2 (leBytes 4 s.live.pwr.vAvgMv)).fireWatchdog 3).closeMetering)) ∧
  (∀ mv s, ¬ WarningDue s mv → exec (.pfWarning mv) s = .next s) ∧
  (∀ mv s, WarningOver s mv → runsAlone s = true → s.live.epc.served = true → exec (.pfWarningEnd mv) s = .next
    ((warningEnded s mv true).modNrg fun x => { x with
      run := true, groups := x.groups.map fun g => (g.1, { g.2 with periodAt := s.now })
      heats := x.heats.map fun h => (h.1, { h.2 with lastAt := some s.now }) })) ∧
  (∀ mv s, WarningOver s mv → (runsAlone s = false ∨ s.live.epc.served = false) → exec (.pfWarningEnd mv) s = .next
    (warningEnded s mv (runsAlone s))) ∧
  (∀ mv s, ¬ WarningOver s mv → exec (.pfWarningEnd mv) s = .next s) ∧
  (∀ s, WarmResetDue s → exec .pfWarmReset s = .next (s.pulseReset .watchdog 3)) ∧
  (∀ s, ¬ WarmResetDue s → exec .pfWarmReset s = .next s) ∧
  (∀ s, s.live.pwr.powered = true → exec .resetNRequest s = .next (s.assertReset .resetN 0)) ∧
  (∀ s, s.live.pwr.powered = false → exec .resetNRequest s = .next s) ∧
  (∀ s, exec .resetNRelease s = .next (s.releaseReset .resetN))

/-- R477 to R480, R483 to R486: a pending module reset, the pending block resets, a lockstep mismatch and the firmware watchdog. The first
assertion ends the run, closes the sessions, empties the key slots and drops the claim; each source is held until its own release; the last
release begins BOOT. RSTO_N is low from the assertion until 1 ms after the last release. -/
def Obligations.ResetsAreExecuted : Prop :=
  (∀ s r, ModuleResetDue s r → exec .moduleResetExecute s = .next (s.pulseReset (if r.module = 2 then .coldSw else .warmSw) r.detail)) ∧
  (∀ s, (∀ r, ¬ ModuleResetDue s r) → exec .moduleResetExecute s = .next s) ∧
  (∀ a b s, dueBlocks s ≠ [] → s.live.pwr.inReset = false → imageBad s a b = false →
    exec (.blockResetExecute a b) s = .next (blocksReset s)) ∧
  (∀ a b s, dueBlocks s ≠ [] → s.live.pwr.inReset = false → imageBad s a b = true →
    exec (.blockResetExecute a b) s = .next ((blocksReset s).pulseReset .warmSw 4)) ∧
  (∀ a b s, (dueBlocks s = [] ∨ s.live.pwr.inReset = true) → exec (.blockResetExecute a b) s = .next s) ∧
  (∀ ok s, CpUp s → exec (.lockstepMismatch ok) s = .next (cpRestarted s 1 ok fun p => { p with blkLockstep := satAdd 8 p.blkLockstep 1 })) ∧
  (∀ ok s, ¬ CpUp s → exec (.lockstepMismatch ok) s = .next s) ∧
  (∀ ok s, CpUp s → exec (.cpFirmwareWatchdog ok) s = .next
    (cpRestarted s 2 ok fun p => { p with blkFwWatchdog := satAdd 8 p.blkFwWatchdog 1 })) ∧
  (∀ ok s, ¬ CpUp s → exec (.cpFirmwareWatchdog ok) s = .next s) ∧
  (∀ (s : State) src d, s.live.pwr.inReset = false → ∃ t : State, s.assertReset src d = t
    ∧ t.pub = none ∧ t.prep = none ∧ t.prev = none ∧ t.txns = [] ∧ t.staged = []
    ∧ t.live.pwr.inReset = true ∧ t.live.pwr.active = [src] ∧ t.live.pwr.sources = [src] ∧ t.live.pwr.detail = d
    ∧ t.live.epc.casting = false ∧ t.live.epc.served = false ∧ t.live.par.code = 0 ∧ t.live.par.wdFired = true
    ∧ t.live.eth.sessions = [] ∧ t.live.mgt.sessions = [] ∧ t.live.sec.slots = [] ∧ t.live.sec.debug = 0) ∧
  (∀ (s : State) src d, s.live.pwr.inReset = true → (s.assertReset src d).live.pwr.inReset = true
    ∧ src ∈ (s.assertReset src d).live.pwr.active ∧ src ∈ (s.assertReset src d).live.pwr.sources) ∧
  (∀ (s : State) src, s.live.pwr.active = [src] → (s.releaseReset src).live.pwr.inReset = false
    ∧ (s.releaseReset src).live.pwr.mode = .boot ∧ (s.releaseReset src).live.pwr.releasedAt = some s.now
    ∧ (s.releaseReset src).live.pwr.active = []) ∧
  (∀ (s : State) src other, src ∈ s.live.pwr.active → other ∈ s.live.pwr.active → other ≠ src →
    s.releaseReset src = s.modPwr fun p => { p with active := s.live.pwr.active.filter (· ≠ src) }) ∧
  (∀ (s : State) src, src ∉ s.live.pwr.active → s.releaseReset src = s) ∧
  (∀ s : State, s.rstoLow = true ↔ s.live.pwr.powered = true ∧
    (s.live.pwr.inReset = true ∨ ∃ t, s.live.pwr.releasedAt = some t ∧ s.now < t + 1000000))

namespace Sys2Proof.Claims

open Sys2Proof Sys2Proof.Machine

/-- R509: the holder of the update lock has sent no chunk for 60 s. -/
abbrev LockLate (s : State) : Prop := ∃ l, s.live.upd.lock = some l ∧ l.stage = 2 ∧ l.lastChunkAt + 60000000000 ≤ s.now
/-- An update at a stage. -/
abbrev AtStage (s : State) (l : UpdLock) (n : Nat) : Prop := s.live.upd.lock = some l ∧ l.stage = n
/-- R498: the bad sectors an installation step replaces, journalled. -/
def sectorsSpared (s : State) (bad : Nat) : State :=
  ((List.range (min bad s.live.upd.spareSectors)).foldl (fun s k =>
    s.journal 7 (ev1 3 ++ leBytes 2 (s.live.upd.spareSectors - k) ++ ev1 0)) s).modUpd fun u =>
      { u with spareSectors := u.spareSectors - min bad s.live.upd.spareSectors }
/-- R514: a pair whose partner is ready hands the claim over before the swap. -/
abbrev HandsOverFirst (s : State) : Prop :=
  s.paired = true ∧ s.live.par.gate = true ∧ s.live.par.pstate = 7 ∧ s.live.par.canHandOver = true
/-- R519: a trial has failed. -/
abbrev TrialFails (s : State) (t : Trial) : Prop :=
  s.live.upd.trial = some t ∧ (t.trialS * 1000000000 ≤ t.used s.now ∨ 3 ≤ t.resets)

end Sys2Proof.Claims

/-- R498, R509 to R512, R514, R515, R518, R519: the lock's timeout, the checks and the steps of an installation, the swap point, the end of a
trial. -/
def Obligations.UpdatesProceed : Prop :=
  (∀ s, LockLate s → exec .lockTimeout s = .next (s.endUpdate 16)) ∧
  (∀ s, ¬ LockLate s → exec .lockTimeout s = .next s) ∧
  (∀ n s l, AtStage s l 3 → (s.checkUpdate l).1 ≠ 0 → exec (.installation n) s = .next ((s.modUpd fun u => { u with
      detailCode := (s.checkUpdate l).2.1, detailComp := (s.checkUpdate l).2.2 }).endUpdate (s.checkUpdate l).1)) ∧
  (∀ n s l, AtStage s l 3 → (s.checkUpdate l).1 = 0 → exec (.installation n) s = .next (
      (if l.kind = 2 then s.modCst fun c => c.setFlash c.otherSlot [] else s).modUpd fun u => { u with lock := some { l with
        stage := 4, todo := if l.kind = 1 then (compEntries l.payload).map fun e => e.1 else [] } })) ∧
  (∀ n s l, AtStage s l 4 → n ≤ s.live.upd.spareSectors → exec (.installation n) s = .next ((sectorsSpared s n).installStep l)) ∧
  (∀ n s l, AtStage s l 4 → s.live.upd.spareSectors < n → ¬ (l.kind = 1 ∧ l.todo ≠ []) →
    exec (.installation n) s = .next ((sectorsSpared s n).endUpdate 13)) ∧
  (∀ n s l c cs, AtStage s l 4 → s.live.upd.spareSectors < n → l.kind = 1 → l.todo = c :: cs →
    exec (.installation n) s = .next (((sectorsSpared s n).modUpd fun u => { u with
      fbImg := tset u.fbImg c (tget u.runImg c []), runImg := tset u.runImg c []
      installRec := some { l with received := [], erased := some c }, detailComp := c }).endUpdate 13)) ∧
  (∀ n s, (∀ l, s.live.upd.lock = some l → l.stage ≠ 3 ∧ l.stage ≠ 4) → exec (.installation n) s = .next s) ∧
  (∀ s l, AtStage s l 5 → l.swapHeld = false → ¬ HandsOverFirst s → ¬ (s.paired = true ∧ s.live.par.pstate = 9) → exec .swapPoint s = .next (s.swap l)) ∧
  (∀ s l, AtStage s l 5 → l.swapHeld = false → HandsOverFirst s → s.live.par.handover = none →
    exec .swapPoint s = .next (s.nameHandover 4)) ∧
  (∀ s l, AtStage s l 5 → l.swapHeld = false → (HandsOverFirst s ∧ s.live.par.handover ≠ none ∨ s.paired = true ∧ s.live.par.pstate = 9) →
    exec .swapPoint s = .next s) ∧
  (∀ s, (∀ l, AtStage s l 5 → l.swapHeld = true) → exec .swapPoint s = .next s) ∧
  (∀ s t, s.live.upd.trial = some t → s.trialHealthy t = true → exec .trialConfirmed s = .next
    ((s.modUpd fun u => { u with trial := none, last := 19 }).journal 22 (ev1 19 ++ ev1 0 ++ leBytes 4 t.version))) ∧
  (∀ s, (∀ t, s.live.upd.trial = some t → s.trialHealthy t = false) → exec .trialConfirmed s = .next s) ∧
  (∀ s t, TrialFails s t → exec .trialFailure s = .next (s.revertTrial t)) ∧
  (∀ s, (∀ t, ¬ TrialFails s t) → exec .trialFailure s = .next s)

/-- R527, R544, R545: an uncorrectable row is retired and its reader served, the eighth correction retires a row, the overtemperature
mark has its hysteresis, a new speed of YML takes effect. -/
def Obligations.TheModuleIsGuarded : Prop :=
  (∀ row n s, exec (.dramUncorrectable row 1 n) s = .next (s.retireRow row).deadlineOutcome) ∧
  (∀ row n s, exec (.dramUncorrectable row 2 n) s = .next ((s.retireRow row).modEth fun e =>
      { e with port0 := { e.port0 with bufOther := e.port0.bufOther - n } })) ∧
  (∀ row n s, exec (.dramUncorrectable row 3 n) s = .next ((s.retireRow row).modEth fun e =>
      { e with port1 := { e.port1 with bufOther := e.port1.bufOther - n } })) ∧
  (∀ row k n s, (k = 0 ∨ 3 < k) → exec (.dramUncorrectable row k n) s = .next (s.retireRow row)) ∧
  (∀ row s, tget s.live.sys.dramRowCe row 0 < 7 → exec (.dramCorrected row) s = .next (s.modSys fun x =>
      { x with dramCe := satAdd 16 x.dramCe 1, dramRowCe := tset x.dramRowCe row (tget x.dramRowCe row 0 + 1) })) ∧
  (∀ row s, 7 ≤ tget s.live.sys.dramRowCe row 0 → exec (.dramCorrected row) s = .next ((s.modSys fun x =>
      { x with dramCe := satAdd 16 x.dramCe 1, dramRowCe := tset x.dramRowCe row (tget x.dramRowCe row 0 + 1) }).retireRow row)) ∧
  (∀ x s, exec (.overtempChange x) s = .next (s.modSys fun y => { y with
      tempModule := x, overtemp := if 950 < x then true else if x < 900 then false else y.overtemp })) ∧
  (∀ s t, s.live.mgt.speedDue = some t → t ≤ s.now → exec .speedChange s = .next (s.modMgt fun m =>
      { m with speed := m.cfgSpeed, speedDue := none })) ∧
  (∀ s, (∀ t, s.live.mgt.speedDue = some t → s.now < t) → exec .speedChange s = .next s)

namespace Sys2Proof.Claims

open Sys2Proof Sys2Proof.Machine

/-- A frame of YML as its arrival counts it (R526). -/
def mgtCounted (s : State) : State := s.modMgt fun m => { m with rx := satAdd 16 m.rx 1 }
/-- R530: a request of an open YML session whose counter is new, with its tag. -/
abbrev MgtNew (s : State) (session ctr : Nat) (x : Session) : Prop :=
  s.mgtServes = true ∧ session ≠ 0 ∧ s.live.mgt.sessions.find? (fun (x : Session) => x.id = session) = some x
    ∧ ∀ c, x.ctr = some c → c < ctr
/-- The session as a new request notes it. -/
def mgtNoted (s : State) (session ctr : Nat) : State := (mgtCounted s).modMgt fun m => { m with
  sessions := m.sessions.map fun y => if y.id = session then { y with ctr := some ctr, lastReply := none, lastAt := s.now } else y }
/-- R530: the reservations of YML that still stand. -/
def ymlStanding (s : State) : List Opening := s.live.mgt.opening.filter fun o => decide (s.now < o.openedAt + 120000000000)
/-- R530, R531: a session slot is free, the role may open one, and the module does not run bare. -/
abbrev MgtRoom (s : State) (r : Role) (slot : Nat) : Prop :=
  freeSlot 24 4 (s.live.mgt.sessions.map Session.slot ++ (ymlStanding s).map Opening.slot) = some slot
    ∧ s.live.sec.opens r = true ∧ s.mgtAlone = false
/-- R530: the opening that a PROVE names stands and its role's key makes the MAC. -/
abbrev MgtProven (s : State) (session : Nat) (mac : Bytes) (o : Opening) (key : Bytes) : Prop :=
  s.live.mgt.opening.find? (fun (o : Opening) => o.session = session && decide (s.now < o.openedAt + 120000000000)) = some o
    ∧ s.live.sec.key? (roleSlot o.role) = some key ∧ mac = proveMac "YML-OPEN" key o ∧ s.live.sec.opens o.role = true
/-- R530: a session without a valid request for 120 s. -/
abbrev MgtIdle (s : State) (session : Nat) : Prop :=
  ∃ x, s.live.mgt.sessions.find? (fun (x : Session) => x.id = session) = some x ∧ x.lastAt + 120000000000 ≤ s.now
/-- R532: what a JOURNAL request within its bound is answered. -/
def journalReply (s : State) (role : Role) (fromSeq count : Nat) : Bytes :=
  let rs := (s.live.mgt.journal.filter fun r => decide (fromSeq ≤ r.jseq)).take count
  leBytes 1 rs.length ++ leBytes 3 0 ++ rs.flatMap fun r => r.bytes role
/-- R532, R533: a RESET request of its form: one module reset, or block bits. -/
abbrev ResetForm (module blocks : Nat) : Prop := ((module = 1 ∨ module = 2) ∨ (module = 0 ∧ blocks % 64 ≠ 0))

end Sys2Proof.Claims

/-- R526, R528 to R533: HELLO, the opening, proof, closing and timeout of YML sessions, and what becomes of frames that are not
served. -/
def Obligations.ManagementSessionsRun : Prop :=
  (∀ ctr s, s.mgtServes = true → exec (.mgtHello ctr) s = .next ((mgtCounted s).mgtReply 1 0 ctr 0 none
    (leBytes 8 s.live.sec.serial ++ leBytes 4 (imgVersion (tget s.live.upd.runImg 0 [])) ++ leBytes 1 s.live.pwr.node
      ++ leBytes 1 s.live.mgtSpeed ++ leBytes 2 0))) ∧
  (∀ r n ctr s slot, s.mgtServes = true → MgtRoom (mgtCounted s) (roleOfCode r) slot → exec (.mgtOpen r n ctr) s = .next (
      let a := mgtCounted s
      let o := openingOf a (roleOfCode r) slot n
      (({ (a.random 128).2 with nextTxn := a.nextTxn + 1 } : State).modMgt fun m => { m with opening := ymlStanding a ++ [o] }).mgtReply
        2 0 ctr 0 none (leBytes 4 o.session ++ o.nonce))) ∧
  (∀ r n ctr s, s.mgtServes = true → (∀ slot, ¬ MgtRoom (mgtCounted s) (roleOfCode r) slot) →
    exec (.mgtOpen r n ctr) s = .next ((mgtCounted s).mgtReply 2 0 ctr 6 none [])) ∧
  (∀ i mac ctr s o key, s.mgtServes = true → MgtProven (mgtCounted s) i mac o key → exec (.mgtProve i mac ctr) s = .next (
      let a := (mgtCounted s).modMgt fun m => { m with
        opening := m.opening.filter fun x => x.session ≠ i
        sessions := m.sessions ++ [{ id := i, role := o.role, slot := o.slot, lastAt := s.now }] }
      (a.modSec fun x => x.fill o.slot 5 3 false (sessionKey "YML-SK" key o)).mgtReply 3 i ctr 0 none [])) ∧
  (∀ i mac ctr s, s.mgtServes = true → (∀ o key, ¬ MgtProven (mgtCounted s) i mac o key) →
    exec (.mgtProve i mac ctr) s = .next (mgtCounted s).mgtAuthFail) ∧
  (∀ i ctr s x, MgtNew s i ctr x → exec (.mgtClose i ctr true) s = .next
    (((mgtNoted s i ctr).closeYml fun x => x.id = i).dropLock.mgtReply 4 i ctr 0 none [])) ∧
  (∀ ok ctr s, s.mgtServes = true → exec (.mgtClose 0 ctr ok) s = .next ((mgtCounted s).mgtReply 4 0 ctr 3 none [])) ∧
  (∀ ok i ctr s, s.mgtServes = true → i ≠ 0 → s.live.mgt.sessions.find? (fun (x : Session) => x.id = i) = none →
    exec (.mgtClose i ctr ok) s = .next ((mgtCounted s).mgtReply 4 i ctr 3 none [])) ∧
  (∀ s, s.mgtServes = true → exec (.mgtFrameDiscard 0) s = .next (s.modMgt fun m => { m with crcErr := satAdd 16 m.crcErr 1 })
    ∧ exec (.mgtFrameDiscard 1) s = .next (s.modMgt fun m => { m with framingErr := satAdd 8 m.framingErr 1 })) ∧
  (∀ n s, s.mgtServes = true → 1 < n → exec (.mgtFrameDiscard n) s = .next s) ∧
  (∀ i s, MgtIdle s i → exec (.mgtSessionTimeout i) s = .next (s.closeYml fun x => x.id = i).dropLock) ∧
  (∀ i s, ¬ MgtIdle s i → exec (.mgtSessionTimeout i) s = .next s) ∧
  (∀ n i r ctr ok m s, s.mgtServes = false → exec (.mgtHello ctr) s = .next s ∧ exec (.mgtOpen r m ctr) s = .next s
    ∧ exec (.mgtProve i m ctr) s = .next s ∧ exec (.mgtClose i ctr ok) s = .next s ∧ exec (.mgtFrameDiscard n) s = .next s)

/-- R484, R531 to R533, R535, R538, R539: HEALTH, JOURNAL, register transactions and RESET of YML, in a session with a new counter; in a session the
last request repeated gets the last answer. -/
def Obligations.ManagementRequestsAreServed : Prop :=
  (∀ i ctr s x, MgtNew s i ctr x → exec (.mgtHealth i ctr true) s = .next
    ((mgtNoted s i ctr).mgtReply 0x10 i ctr 0 (s.pub.map Bank.epoch) (mgtNoted s i ctr).health64)) ∧
  (∀ ok ctr s, s.mgtServes = true → exec (.mgtHealth 0 ctr ok) s = .next
    ((mgtCounted s).mgtReply 0x10 0 ctr 0 (s.pub.map Bank.epoch) (mgtCounted s).health64)) ∧
  (∀ i ctr f n s x, MgtNew s i ctr x → n ≤ 32 → exec (.mgtJournal i ctr true f n) s = .next
    ((mgtNoted s i ctr).mgtReply 0x11 i ctr 0 none (journalReply s x.role f n))) ∧
  (∀ i ctr f n s x, MgtNew s i ctr x → 32 < n → exec (.mgtJournal i ctr true f n) s = .next
    ((mgtNoted s i ctr).mgtReply 0x11 i ctr 2 none [])) ∧
  (∀ i ctr as d s x, MgtNew s i ctr x → (mgtNoted s i ctr).mgtAlone = false → exec (.mgtRegs i ctr true as d) s = .next
    ((mgtNoted s i ctr).transact .yml x.role i d (.mgt i ctr) as)) ∧
  (∀ i ctr as d s x, MgtNew s i ctr x → (mgtNoted s i ctr).mgtAlone = true → exec (.mgtRegs i ctr true as d) s = .next
    ((mgtNoted s i ctr).mgtReply 0x20 i ctr 4 none [])) ∧
  (∀ i ctr m k s x, MgtNew s i ctr x → s.live.pwr.inReset = false → ResetForm m k → ¬ (m ≠ 0 ∧ k % 64 ≠ 0) →
    exec (.mgtReset i ctr true m k) s = .next (((mgtNoted s i ctr).mgtReply 0x21 i ctr 0 none []).requestResets m
      (if m = 0 then k % 64 else 0) 1)) ∧
  (∀ i ctr m k s x, MgtNew s i ctr x → s.live.pwr.inReset = false → (m = 1 ∨ m = 2) → k % 64 ≠ 0 →
    exec (.mgtReset i ctr true m k) s = .next ((((mgtNoted s i ctr).mgtReply 0x21 i ctr 0 none []).werr 0x288 .yml .value).requestResets
      m 0 1)) ∧
  (∀ i ctr m k s x, MgtNew s i ctr x → s.live.pwr.inReset = false → ¬ ResetForm m k →
    exec (.mgtReset i ctr true m k) s = .next ((mgtNoted s i ctr).mgtReply 0x21 i ctr 2 none [])) ∧
  (∀ i ctr m k s x, MgtNew s i ctr x → s.live.pwr.inReset = true →
    exec (.mgtReset i ctr true m k) s = .next ((mgtNoted s i ctr).mgtReply 0x21 i ctr 4 none [])) ∧
  (∀ ok ctr f n s, s.mgtServes = true → exec (.mgtJournal 0 ctr ok f n) s = .next (
      if (mgtCounted s).mgtAlone = false then (mgtCounted s).mgtReply 0x11 0 ctr 3 none []
      else if 32 < n then (mgtCounted s).mgtReply 0x11 0 ctr 2 none []
      else (mgtCounted s).mgtReply 0x11 0 ctr 0 none (journalReply s .nobody f n))) ∧
  (∀ ok ctr as d s, s.mgtServes = true → exec (.mgtRegs 0 ctr ok as d) s = .next (
      if (mgtCounted s).mgtAlone = true then (mgtCounted s).mgtReply 0x20 0 ctr 4 none []
      else (mgtCounted s).transact .yml .nobody 0 d (.mgt 0 ctr) as)) ∧
  (∀ ok ctr m k s, s.mgtServes = true → s.live.pwr.inReset = false → exec (.mgtReset 0 ctr ok m k) s = .next (
      if (mgtCounted s).mgtAlone = false then (mgtCounted s).mgtReply 0x21 0 ctr 3 none []
      else if (m = 1 ∨ m = 2) ∧ k = 0 then ((mgtCounted s).mgtReply 0x21 0 ctr 0 none []).requestResets m 0 1
      else (mgtCounted s).mgtReply 0x21 0 ctr 5 none [])) ∧
  (∀ ok ctr m k s, s.mgtServes = true → s.live.pwr.inReset = true →
    exec (.mgtReset 0 ctr ok m k) s = .next ((mgtCounted s).mgtReply 0x21 0 ctr 4 none [])) ∧
  (∀ ok i ctr f n as d m k s, s.mgtServes = true → i ≠ 0 → s.live.mgt.sessions.find? (fun (x : Session) => x.id = i) = none →
    exec (.mgtHealth i ctr ok) s = .next ((mgtCounted s).mgtReply 0x10 i ctr 3 none [])
    ∧ exec (.mgtJournal i ctr ok f n) s = .next ((mgtCounted s).mgtReply 0x11 i ctr 3 none [])
    ∧ exec (.mgtRegs i ctr ok as d) s = .next ((mgtCounted s).mgtReply 0x20 i ctr 3 none [])
    ∧ exec (.mgtReset i ctr ok m k) s = .next ((mgtCounted s).mgtReply 0x21 i ctr 3 none [])) ∧
  (∀ i ctr f n as d m k s x c, s.mgtServes = true → i ≠ 0 → s.live.mgt.sessions.find? (fun (x : Session) => x.id = i) = some x →
    x.ctr = some c → (ctr < c ∨ (ctr = c ∧ x.lastReply = none)) →
    exec (.mgtHealth i ctr true) s = .next (mgtCounted s) ∧ exec (.mgtJournal i ctr true f n) s = .next (mgtCounted s)
    ∧ exec (.mgtRegs i ctr true as d) s = .next (mgtCounted s) ∧ exec (.mgtReset i ctr true m k) s = .next (mgtCounted s)
    ∧ exec (.mgtClose i ctr true) s = .next (mgtCounted s)) ∧
  (∀ i ctr f n as d m k s x, s.mgtServes = true → i ≠ 0 → s.live.mgt.sessions.find? (fun (x : Session) => x.id = i) = some x →
    exec (.mgtHealth i ctr false) s = .next (mgtCounted s).mgtAuthFail ∧ exec (.mgtJournal i ctr false f n) s = .next (mgtCounted s).mgtAuthFail
    ∧ exec (.mgtRegs i ctr false as d) s = .next (mgtCounted s).mgtAuthFail
    ∧ exec (.mgtReset i ctr false m k) s = .next (mgtCounted s).mgtAuthFail
    ∧ exec (.mgtClose i ctr false) s = .next (mgtCounted s).mgtAuthFail) ∧
  (∀ i ctr f n as d m k s x o, s.mgtServes = true → i ≠ 0 → s.live.mgt.sessions.find? (fun (x : Session) => x.id = i) = some x →
    x.ctr = some ctr → x.lastReply = some o → ∃ t : State, t = ((mgtCounted s).send o).modMgt (fun y => { y with tx := satAdd 16 y.tx 1 })
    ∧ exec (.mgtHealth i ctr true) s = .next t ∧ exec (.mgtJournal i ctr true f n) s = .next t
    ∧ exec (.mgtRegs i ctr true as d) s = .next t ∧ exec (.mgtReset i ctr true m k) s = .next t
    ∧ exec (.mgtClose i ctr true) s = .next t) ∧
  (∀ ok i ctr f n as d m k s, s.mgtServes = false → exec (.mgtHealth i ctr ok) s = .next s ∧ exec (.mgtJournal i ctr ok f n) s = .next s
    ∧ exec (.mgtRegs i ctr ok as d) s = .next s ∧ exec (.mgtReset i ctr ok m k) s = .next s)

/-! What staged writes do at their commit (R37), and the writes that act at their access (R7). -/

/-- R8, R40, R44, R98, R171, R185, R203, R233, R281, R296, R324, R359, R371, R378, R397, R526, R541: CLR_STATS of a block clears its counters
and nothing else. -/
def Obligations.ClearingCountersClearsThem : Prop :=
  ∀ (s : State) (src : Source) (role : Role) (n : Nat),
    (s.applyWrite src role n 0x0138 1 = s.modEpc fun x => { x with pourMax := 0, stgFull := 0, overwrite := 0, txnLost := 0 }) ∧
    (s.applyWrite src role n 0x0834 4 = s.modAsm fun x => { x with identHold := false, sat := 0, srcFault := 0, inCollide := 0 }) ∧
    (s.applyWrite src role n 0x0834 6 = s.modAsm fun x => { x with identHold := true, sat := 0, srcFault := 0, inCollide := 0 }) ∧
    (s.applyWrite src role n 0x0A38 1 = s.modSlv fun x => { x with sat := 0, warmRej := 0, cold := 0, factAbort := 0, factFail := 0 }) ∧
    (s.applyWrite src role n 0x0C34 4 = s.modPln fun x => { x with sat := 0, limit := 0 }) ∧
    (s.applyWrite src role n 0x1018 1 = s.modLpe fun x => { x with nonfin := 0, pvFault := 0, evalMax := 0 }) ∧
    (s.applyWrite src role n 0x2034 1 = s.modLgc fun x => { x with
        overrun := 0, rterr := 0, rterrNet := 0, rterrCode := 0, forceLost := 0, collide := 0, maxUs := 0 }) ∧
    (s.applyWrite src role n 0x7028 1 = s.modFch fun x => { x with
        passSkip := 0, reqDrop := 0, chans := x.chans.map fun p => (p.1, { p.2 with fltCount := 0, trips := 0 }) }) ∧
    (s.applyWrite src role n 0x2410 1 = s.modFan fun x => { x with
        drivers := x.drivers.map fun p => (p.1, { p.2 with stalls := 0, losses := 0 }) }) ∧
    (s.applyWrite src role n 0x2818 1 = s.modNrg fun x => { x with
        saveFail := 0, maxUs := 0, groups := x.groups.map fun p => (p.1, { p.2 with seams := 0 }) }) ∧
    (s.applyWrite src role n 0x303C 8 = s.modPar fun x => { x with takeovers := 0, handovers := 0, divCount := 0, pathLoss := 0, crcErr := 0 }) ∧
    (s.applyWrite src role n 0x345C 1 = s.modEth fun x => { x with
        port0 := { x.port0 with rx := 0, drop := 0, tx := 0, err := 0 }, port1 := { x.port1 with rx := 0, drop := 0, tx := 0, err := 0 }
        prpDup := 0, prpErr := 0, authFail := 0, yspRx := 0, yspTx := 0, yspRej := 0 }) ∧
    (∀ a b, s.applyWrite src role n 0x3524 (ptpCtrl a b true) = s.modPtp fun x => { x with
        slot0 := { x.slot0 with servoOff := a }, slot1 := { x.slot1 with servoOff := b }, tsqDrop := 0 }) ∧
    (s.applyWrite src role n 0x3804 1 = s.modCan fun x => { x with
        collide := 0, ctls := x.ctls.map fun p => (p.1, { p.2 with rx := 0, tx := 0, lostN := 0, clash := 0, ign := 0, boff := 0 }) }) ∧
    (s.applyWrite src role n 0x0314 1 = s.modMgt fun x => { x with rx := 0, tx := 0, crcErr := 0, framingErr := 0, authFail := 0, jfail := 0 }) ∧
    (s.applyWrite src role n 0x0028 1 = s.modSys fun x => { x with werr := 0, werrAt := {}, dramCe := 0 })

namespace Sys2Proof.Claims

open Sys2Proof Sys2Proof.Machine

/-- R235: the result of a force command and the forces after it, with those that still wait. -/
def forceJudged (s : State) (cmd : Nat) (role : Role) : Nat × List Force :=
  ({ s.live.lgc with forces := s.live.lgc.forcesAfter s.live.cst s.live.lgc.forceCmds } : Lgc).forceStep s.live.cst cmd
    s.live.lgc.forceTag s.live.lgc.forceVal role
/-- The hold bit of a command of ASM_CTRL. -/
def holdBit (hold : Bool) : Nat := if hold then 2 else 0
/-- R108: the words of one transaction for the input window, as the boundary finds them, with its submission. -/
abbrev OneSubmission (ws : List Staged) (x : Staged) : Prop :=
  (ws.find? fun y => y.addr = 0x824 ∧ bit y.val 0 = true) = some x ∧ ∀ y ∈ ws, 0x900 ≤ y.addr → y.txn = x.txn
/-- The window's words by their places. -/
def windowWords (ws : List Staged) (k : Nat) : Word :=
  tget ((ws.filter fun x => decide (0x900 ≤ x.addr)).foldl (fun t x => tset t ((x.addr - 0x900) / 4) x.val) ([] : Table Word)) k 0

end Sys2Proof.Claims

/-- R108, R109, R119, R122 to R125, R166, R192: the commands of the assembler, the solver and the plan: a series is submitted, substations
are refreshed, identification held or released, a parameter overridden, the next cycle made cold, ISLAND entered and left. What a RELEASE and
a SUBMIT without window words do is the model's choice (log entries 78 and 79). -/
def Obligations.PlanningCommandsCommit : Prop :=
  (∀ (s : State) src role n h, s.applyWrite src role n 0x0834 (word (1 + holdBit h)) = s.modAsm fun a =>
      ({ a with identHold := h } : Asm).refreshAll s.live.cst s.live.epc.epoch) ∧
  (∀ (s : State) src role n h, s.applyWrite src role n 0x0834 (word (holdBit h)) = s.modAsm fun a => { a with identHold := h }) ∧
  (∀ (s : State) src role n h, s.applyWrite src role n 0x0834 (word (8 + holdBit h)) = s.modAsm fun a =>
      if s.live.asm.selSub < s.live.cst.substations then ({ a with identHold := h } : Asm).release a.selSub s.live.epc.epoch
      else { a with identHold := h }) ∧
  (∀ (s : State) src role n v, s.applyWrite src role n 0x0844 v = s.modAsm fun a => a.override a.selSub a.selParam v s.live.epc.epoch) ∧
  (∀ (s : State) ws x, OneSubmission ws x → ∃ (r : Nat × Asm) (h : Nat),
      r = s.live.asm.submit s.live.cst (windowWords ws) s.live.epc.epoch s.now ∧ h = field (windowWords ws 3) 15 0
      ∧ (s.commitWindow ws).live.asm = { r.2 with inCode := r.1, inHseq := h, inWin := [] }) ∧
  (∀ (s : State) (ws : List Staged) x y, x ∈ ws → y ∈ ws → 0x900 ≤ x.addr → 0x900 ≤ y.addr → x.txn ≠ y.txn →
      s.commitWindow ws = s.modAsm fun a => { a with inCollide := sat32 a.inCollide, inCode := 6, inHseq := 0, inWin := [] }) ∧
  (∀ (s : State) src role n, s.applyWrite src role n 0x0A38 2 = s.modSlv fun x => { x with coldNext := true }) ∧
  (∀ (s : State) src role n, checkPln s.live 0xC34 1 = true → s.live.pln.island = false →
      s.applyWrite src role n 0x0C34 1 = s.enterIsland.modPln fun p => { p with cmdHeld := true, leaveDue := false }) ∧
  (∀ (s : State) src role n, checkPln s.live 0xC34 1 = true → s.live.pln.island = true →
      s.applyWrite src role n 0x0C34 1 = s.modPln fun p => { p with cmdHeld := true, leaveDue := false }) ∧
  (∀ (s : State) src role n, checkPln s.live 0xC34 2 = true → s.live.pln.island = true → s.live.pln.cmdHeld = true →
      s.applyWrite src role n 0x0C34 2 = s.leaveIsland.yspUnshed s.live.pln.shed) ∧
  (∀ (s : State) src role n, checkPln s.live 0xC34 2 = true → (s.live.pln.island = false ∨ s.live.pln.cmdHeld = false) →
      s.applyWrite src role n 0x0C34 2 = s) ∧
  (∀ (s : State) src role n w, (w = 1 ∨ w = 2) → checkPln s.live 0xC34 w = false →
      s.applyWrite src role n 0x0C34 w = s.werr 0xC34 src .value)

/-- R214, R277, R355: hand operation is open in COMMISSION, and in a standby whose active unit reports COMMISSION. -/
abbrev HandAllowed (s : State) : Prop :=
  s.live.pwr.mode = .commission ∨ (s.live.pwr.mode = .standby ∧ s.live.par.pstate ≠ 0 ∧ s.live.par.partner.mode = 3)

/-- R211, R214, R215, R228, R235, R243, R246: setpoints, hand, injection, restart of the logic, forces and host tag writes. -/
def Obligations.ControlCommandsAct : Prop :=
  (∀ (s : State) src role n k v, k < 192 → s.applyWrite src role n (0x1400 + k * 0x10) v = s.modLpe fun p =>
      { p with slots := tmod p.slots k {} fun y => { y with sp := v } }) ∧
  (∀ (s : State) src n, HandAllowed s → s.live.cst.slotRec s.live.lpe.handSel ≠ [] →
      s.immediate src n 0x1028 1 = s.modLpe fun p => { p with
        slots := tmod p.slots s.live.lpe.handSel {} fun y => y.toHand (s.live.cst.slotRec s.live.lpe.handSel) p.handVal }) ∧
  (∀ (s : State) src n, (¬ HandAllowed s ∨ s.live.cst.slotRec s.live.lpe.handSel = []) →
      s.immediate src n 0x1028 1 = s.werr 0x1028 src .state) ∧
  (∀ (s : State) src n, s.immediate src n 0x1028 2 = s.modLpe fun p => { p with
      slots := tmod p.slots s.live.lpe.handSel {} fun y => { y with handCmd := none } }) ∧
  (∀ (s : State) src n, s.immediate src n 0x1028 3 = s.modLpe fun p => { p with
      slots := p.slots.map fun q => (q.1, { q.2 with handCmd := none }) }) ∧
  (∀ (y : Slot) b v, (y.toHand b v).latchHand = { y.toHand b v with
      hand := true, yPrev := fClamp (slOutMin b) (slOutMax b) v, out := fClamp (slOutMin b) (slOutMax b) v }) ∧
  (∀ y : Slot, y.handCmd = none → y.latchHand = { y with hand := false }) ∧
  (∀ (s : State) src n v, fFinite v = true → ∃ t, s.immediate src n 0x1024 v = s.modLpe (fun p => { p with handVal := v, slots := t })
      ∧ t = tmod s.live.lpe.slots s.live.lpe.handSel {} fun y =>
        if y.handCmd.isSome then y.toHand (s.live.cst.slotRec s.live.lpe.handSel) v else y) ∧
  (∀ (s : State) src n v, fFinite v = false → s.immediate src n 0x1024 v = s.werr 0x1024 src .value) ∧
  (∀ (s : State) src n, s.armRefused = false → s.immediate src n 0x104C 1 = s.modLpe Lpe.arm) ∧
  (∀ (s : State) src n, s.armRefused = true → s.immediate src n 0x104C 1 = s.werr 0x104C src .state) ∧
  (∀ (s : State) src n, s.immediate src n 0x104C 2 = s.modLpe fun p => p.abort 1) ∧
  (∀ (s : State) src role n, s.live.lgc.halted = true → s.applyWrite src role n 0x2034 2 = s.modLgc fun x =>
      { x with halted := false, clockAt := s.now, lastEnd := none }) ∧
  (∀ (s : State) src role n, s.live.lgc.halted = false → s.applyWrite src role n 0x2034 2 = s.werr 0x2034 src .state) ∧
  (∀ (s : State) src role n cmd, cmd = 1 ∨ cmd = 2 ∨ cmd = 3 → s.applyWrite src role n 0x2048 (word cmd) = s.commitForce cmd src role) ∧
  (∀ (s : State) src role cmd, s.changeDue = true → s.commitForce cmd src role = s.modLgc fun x => { x with forceHeld := some (cmd, src, role) }) ∧
  (∀ (s : State) cmd src role, s.live.lgc.forceHeld = some (cmd, src, role) →
      s.takeHeld = (s.modLgc fun x => { x with forceHeld := none }).judgeForce cmd src role) ∧
  (∀ (s : State) src role cmd, s.changeDue = false → s.commitForce cmd src role = s.judgeForce cmd src role) ∧
  (∀ (s : State) src role cmd c fs, (cmd = 1 ∨ cmd = 2 ∨ cmd = 3) →
      forceJudged s cmd role = (c, fs) →
      s.judgeForce cmd src role = (
        let a := s.modLgc fun x => { x with resCode := c, resTag := if cmd = 3 then 0 else x.forceTag }
        if c = 0 then a.modLgc fun x => { x with forceCmds := x.forceCmds ++ [(s.live.epc.epoch, cmd, x.forceTag, x.forceVal, role)] }
        else a.werr 0x2048 src .value)) ∧
  (∀ (s : State) src role n k v, k < 8 → s.applyWrite src role n (0x2060 + 8 * k) v = s.modLgc fun x =>
      { x with twrId := tset x.twrId k (word (field v 26 0)), twrSrc := tset x.twrSrc k src }) ∧
  (∀ (s : State) src role n k v, k < 8 → s.applyWrite src role n (0x2064 + 8 * k) v = s.modLgc fun x =>
      { x with twrVal := tset x.twrVal k v })

/-- R262, R263, R266, R273, R275, R277, R291: requests, hand, output values, trip resets and calibration of the channels; restart of fans. -/
def Obligations.FieldCommandsAct : Prop :=
  (∀ (s : State) src n k, k < 96 → chConverts (s.chRec k) = true → s.immediate src n (0x4020 + k * 0x40) 1 = s.request k false) ∧
  (∀ (s : State) src n k, k < 96 → chConverts (s.chRec k) = true → s.immediate src n (0x4020 + k * 0x40) 2 = s.request k true) ∧
  (∀ (s : State) src n k, k < 96 → HandAllowed s → chIsOutput (s.chRec k) = true →
      s.immediate src n (0x4020 + k * 0x40) 4 = s.setHand k true) ∧
  (∀ (s : State) src n k, k < 96 → (¬ HandAllowed s ∨ chIsOutput (s.chRec k) = false) →
      s.immediate src n (0x4020 + k * 0x40) 4 = s.werr (0x4020 + k * 0x40) src .state) ∧
  (∀ (s : State) src n k, k < 96 → (s.chan k).hand = true → s.immediate src n (0x4020 + k * 0x40) 8 = s.setHand k false) ∧
  (∀ (s : State) src n k, k < 96 → (s.chan k).hand = false → s.immediate src n (0x4020 + k * 0x40) 8 = s) ∧
  (∀ (s : State) src n k v, k < 96 → fFinite v = true → s.immediate src n (0x401C + k * 0x40) v = (
      let a := s.setChan k { s.chan k with handVal := v }
      if (a.chan k).hand then a.driveOut k else a)) ∧
  (∀ (s : State) src n k v, k < 96 → fFinite v = false → s.immediate src n (0x401C + k * 0x40) v = s.werr (0x401C + k * 0x40) src .value) ∧
  (∀ (s : State) src role n k, k < 96 → (s.chan k).tripLatch = true → s.applyWrite src role n (0x4020 + k * 0x40) 0x10 = s.setChan k
      (Chan.noteFault (s.chan k) (({ s.chan k with tripLatch := false, offUntil := none, tripAt := [] } : Chan).setCond 5 false))) ∧
  (∀ (s : State) src role n k w, k < 96 → s.applyWrite src role n (0x5828 + k * 0x40) w = s.calCommand k w) ∧
  (∀ (s : State) k, s.chRec k ≠ [] → chCalMode (s.chRec k) = 1 → HandAllowed s →
      s.calCommand k 1 = s.setChan k { s.chan k with calState := 1, calN := 0, calSum := {}, calResult := 1 }
      ∧ ((s.chan k).mz ≠ none → s.calCommand k 2 = s.setChan k { s.chan k with calState := 3, calN := 0, calSum := {}, calResult := 1 })
      ∧ (∀ o, (s.chan k).newOfs = some o → s.calCommand k 4 = s.setChan k { s.chan k with
          storedDue := some { ofs := o, gain := (s.chan k).newGain, type := chType (s.chRec k), range := chRange (s.chRec k), date := s.calSec }
          calState := 0, calResult := 1, newOfs := none })
      ∧ s.calCommand k 8 = s.setChan k { s.chan k with
          calState := 0, calResult := 1, newOfs := none, mz := none, calN := 0, calSum := {} }
      ∧ s.calCommand k 16 = s.setChan k { s.chan k with stored := none, storedDue := none, calResult := 1 }) ∧
  (∀ (s : State) src role n w, s.applyWrite src role n 0x2414 w =
      (List.range 32).foldl (fun s d => if bit w d then s.restartFan src d else s) s) ∧
  (∀ (s : State) src d, (s.drv d).st = 4 → s.restartFan src d =
      (s.setDrv d { ((s.drv d).enter 1 s.now) with attempt := 1, retry := false, duty := fOfNat 100 }).writeFan d) ∧
  (∀ (s : State) src d, (s.drv d).st ≠ 4 → s.restartFan src d = s.werr 0x2414 src .state)

/-- R317, R323, R352, R358, R376, R380, R404, R407, R409, R417, R418, R430: clears of registers, the commands of the pair, of the clocks, of the
CAN controllers and of the alarms. -/
def Obligations.NetworkAndTimeCommandsAct : Prop :=
  (∀ (s : State) src role n g c, g < 8 → s.applyWrite src role n 0x2814 (clearWord 0 g c) = s.clearAccs 0 g) ∧
  (∀ (s : State) src role n m c, m < 64 → s.applyWrite src role n 0x2814 (clearWord 1 m c) = s.clearAccs 1 m) ∧
  (∀ (s : State) src role n c, s.applyWrite src role n 0x2814 (clearWord 2 0 c) = s.clearAccs 2 0) ∧
  (∀ (s : State) src role n, s.applyWrite src role n 0x2818 2 = s.modNrg fun x => { x with unsaved := none }) ∧
  (∀ (s : State) src role n, s.applyWrite src role n 0x303C 1 = s.switchClaim src) ∧
  (∀ (s : State) src role n, s.applyWrite src role n 0x303C 2 = s.modPar fun p => { p with excluded := [] }) ∧
  (∀ (s : State) src role n, s.applyWrite src role n 0x303C 4 = s.modPar fun p => { p with testSince := some s.now }) ∧
  (∀ (s : State) src role n d v, d < 2 → (s.live.ptp.slot d).servoOff = true → s.applyWrite src role n (0x3514 + 4 * d) v =
      s.modPtp fun p => p.setSlot d { ((s.live.ptp.slot d).rebase s.now) with addend := v.toNat }) ∧
  (∀ (s : State) src role n a b, s.applyWrite src role n 0x3524 (ptpCtrl a b false) = s.modPtp fun x => { x with
      slot0 := { x.slot0 with servoOff := a }, slot1 := { x.slot1 with servoOff := b } }) ∧
  (∀ (s : State) src role n d, d < 2 → s.applyWrite src role n 0x356C (word (2 + d)) =
      (s.modPtp fun p => { p with loadClock := d }).ptpLoad src (word (2 + d))) ∧
  (∀ (s : State) src role n d, d < 2 → s.applyWrite src role n 0x356C (word (4 + d)) =
      (s.modPtp fun p => { p with loadClock := d }).ptpLoad src (word (4 + d))) ∧
  (∀ (s : State) src n, tfind s.live.ptp.capTxn (srcCode src) ≠ some n → ∃ b, s.immediate src n 0x3528 1 = s.modPtp (fun p => { p with
      capTxn := tset p.capTxn (srcCode src) n, banks := b }) ∧
      ∀ c, c < 3 → tfind b (srcCode src * 3 + c) = some (s.clockNs c / 1000000000, s.clockNs c % 1000000000)) ∧
  (∀ (s : State) src n, tfind s.live.ptp.capTxn (srcCode src) = some n → s.immediate src n 0x3528 1 = s.werr 0x3528 src .state) ∧
  (∀ (s : State) src role n, s.live.clk.loadSub.toNat ≤ 32767 → s.applyWrite src role n 0x3C4C 1 =
      s.modClk fun c => { c with armed := some c.loadSec, armedAt := c.counts }) ∧
  (∀ (s : State) src role n, s.live.clk.loadSub.toNat ≤ 32767 → s.applyWrite src role n 0x3C4C 2 =
      (s.modClk fun c => { c with armed := none }).loadCalendar (s.live.clk.loadSec * 32768 + s.live.clk.loadSub.toNat)) ∧
  (∀ (s : State) src n, tfind s.live.clk.capTxn (srcCode src) ≠ some n → ∃ v : ClkCapture, v.valid = true ∧ v.counts = s.live.clk.counts ∧
      (s.immediate src n 0x3C20 1).live.clk = { s.live.clk with
        capTxn := tset s.live.clk.capTxn (srcCode src) n
        capYml := if src = .yml then v else s.live.clk.capYml
        capDbg := if src = .dbg then v else s.live.clk.capDbg
        capYra := if src = .yml ∨ src = .dbg then s.live.clk.capYra else v }) ∧
  (∀ (s : State) src role n k, k < 16 → s.applyWrite src role n 0x3C9C (word (2 ^ k)) = s.armAlarm k) ∧
  (∀ (s : State) src role n k, k < 16 → s.applyWrite src role n 0x3C9C (word (2 ^ (16 + k))) = s.disarmAlarm k) ∧
  (∀ (s : State) src role n w, s.applyWrite src role n 0x3C90 w = s.modClk fun c => { c with fired := clearBits c.fired w }) ∧
  (∀ (s : State) src role n, (s.live.cst.canMb s.live.can.mbCtrl s.live.can.mbNo).isSome = true →
      s.applyWrite src role n 0x3988 1 = s.canRequest s.live.can.mbCtrl s.live.can.mbNo
      ∧ s.applyWrite src role n 0x3988 2 = s.canCancel src s.live.can.mbCtrl s.live.can.mbNo) ∧
  (∀ (s : State) src role n, s.applyWrite src role n 0x390C 1 = s.canRelease s.live.can.objCtrl s.live.can.objId) ∧
  (∀ (s : State) src role n c, c < 4 → s.applyWrite src role n (0x3828 + c * 0x20) 1 = s.canSleep c
      ∧ s.applyWrite src role n (0x3828 + c * 0x20) 2 = s.canWakeUp c 3)

/-- R439, R447, R448, R456, R458, R489, R494, R496, R507, R518, R520, R522, R531, R561: a signed command starts, the debug commands and the attestation act,
modes are commanded, the update commands act bit by bit, management sessions are closed. -/
def Obligations.SystemCommandsAct : Prop :=
  (∀ (s : State) src role n, s.live.sec.running = none → s.applyWrite src role n 0x3E38 1 = s.modSec fun x => { x with
      running := some { bytes := s.live.sec.winBytes, src := src, role := role, startedAt := s.now, session := n }
      cmdState := 1, cmdWin := [] }) ∧
  (∀ (s : State) src role n, s.live.sec.running ≠ none → s.applyWrite src role n 0x3E38 1 =
      s.cmdResult 1 2 (cmdCode_ s.live.sec.winBytes) (cmdSeq_ s.live.sec.winBytes)) ∧
  (∀ (s : State) src role n i v, i < 64 → s.applyWrite src role n (0x3F00 + 4 * i) v = s.modSec fun x => { x with cmdWin := tset x.cmdWin i v }) ∧
  (∀ (s : State) role n, s.live.sec.lockout = false → s.applyWrite .dbg role n 0x3E40 1 = (s.random 128).2.modSec fun x =>
      { x with challenge := some (leBytes 16 (s.random 128).1, s.now) }) ∧
  (∀ (s : State) src role n, s.live.sec.debug = 1 → s.applyWrite src role n 0x3E40 2 = s.modSec fun x => { x with debug := 0 }) ∧
  (∀ (s : State) role n, s.live.sec.lifecycle = .manufacture → s.applyWrite .dbg role n 0x3E40 4 = s.modSec fun x => { x with openNext := true }) ∧
  (∀ (s : State) role n, s.live.sec.lifecycle ≠ .manufacture → s.applyWrite .dbg role n 0x3E40 4 = s.werr 0x3E40 .dbg .value) ∧
  (∀ (s : State) src role n, s.applyWrite src role n 0x3E48 1 = s.modSec fun x => { x with
      attRun := some (s.live.epc.epoch, s.live.attMessage s.live.epc.epoch
        (bytesOfWords ((List.range 4).map fun k => tget s.live.sec.attChal k 0)), s.now), attState := 1 }) ∧
  (∀ (s : State) src role n m, (m = 1 ∨ m = 2 ∨ m = 3 ∨ m = 4) → s.live.modeCmdOk s.holdsClaim m = true →
      s.applyWrite src role n 0x0204 (word m) = s.modPwr fun p => { p with modeCmd := some (m, src) }) ∧
  (∀ (s : State) src role n m, (m = 1 ∨ m = 2 ∨ m = 3 ∨ m = 4) → s.live.modeCmdOk s.holdsClaim m = false →
      s.applyWrite src role n 0x0204 (word m) = s.werr 0x204 src .value) ∧
  (∀ (s : State) src role n c, s.applyWrite src role n 0x0208 (if c then 1 else 0) = s.modPwr fun p => { p with startMode := c }) ∧
  (∀ (s : State) src role n v, s.applyWrite src role n 0x04C4 v = s.modUpd fun u => u.setBank src fun b => { b with ofs := field v 23 0 }) ∧
  (∀ (s : State) src role n i v, i < 128 → s.applyWrite src role n (0x0600 + 4 * i) v = s.modUpd fun u =>
      u.setBank src fun b => { b with win := tset b.win i v }) ∧
  (∀ (s : State) src role n, s.applyWrite src role n 0x04C8 1 = s.offer src role n
      ∧ s.applyWrite src role n 0x04C8 2 = s.chunk src n
      ∧ s.applyWrite src role n 0x04C8 4 = s.endStream src n
      ∧ s.applyWrite src role n 0x04C8 8 = s.abortUpdate src n
      ∧ s.applyWrite src role n 0x04C8 0x10 = s.swapCommand src role n
      ∧ s.applyWrite src role n 0x04C8 0x20 = s.confirmTrial src role
      ∧ s.applyWrite src role n 0x04C8 0x40 = s.revertCommand src role
      ∧ s.applyWrite src role n 0x04C8 0x80 = s.raiseFloors) ∧
  (∀ (s : State) src role n, s.applyWrite src role n 0x0314 2 = (s.closeYml fun _ => true).modMgt fun m => { m with opening := [] })

/-! Rules of the spec, whole. -/

namespace Sys2Proof.Claims

open Sys2Proof Sys2Proof.Machine

/-- A read, or a write that acts only at a boundary. -/
def waitsOrReads : Access → Bool
  | .rd _ => true
  | .wr a v => boundaryOnly a v

/-- The writes of a transaction, in order. -/
def writesOf : List Access → List (Nat × Word)
  | [] => []
  | .rd _ :: l => writesOf l
  | .wr a v :: l => (a, v) :: writesOf l

/-- The values that its reads return from the core `k` of a bank. -/
def readsOf (k live : Core) (src : Source) (role : Role) : List Access → List Word
  | [] => []
  | .rd a :: l => readReg k live src role a :: readsOf k live src role l
  | .wr _ _ :: l => readsOf k live src role l

/-- A transaction that may run: a bank is published, it is not too long, its role has every right, the module may take its writes. -/
structure Served (s : State) (src : Source) (role : Role) (as : List Access) (b : Bank) : Prop where
  inv : s.Inv
  published : s.pub = some b
  short : as.length ≤ 1024
  allowed : ∀ a ∈ as, s.live.permits src role a = true
  unlocked : src = .dbg → s.live.sec.locked = false
  active : s.isActive = true ∨ ∀ a ∈ as, mirroredWrite a = false
  waits : ∀ a ∈ as, waitsOrReads a = true

/-- The transaction as its accesses leave it. -/
def accessed (s : State) (src : Source) (role : Role) (session : Nat) (reply : ReplyTo) (as : List Access) (b : Bank) : Txn :=
  { emptyTxn s src role session reply with
    accesses := as.length, values := readsOf b.core s.live src role as, writes := writesOf as }

/-- The state with the next transaction's number given out. -/
def numbered (s : State) : State := { s with nextTxn := s.nextTxn + 1 }

end Sys2Proof.Claims

/-- R34, R40: a transaction reads one epoch: every read returns the value of the bank that is published when it is accepted, whatever it
has written itself, and all its writes commit together at the next boundary; while that bank stands, later accesses read it as well. -/
def Obligations.TransactionsReadOneEpoch : Prop :=
  (∀ s src role n reply as b, Served s src role as b → externalStaged s.staged + (writesOf as).length ≤ 2048 →
    (∀ p ∈ writesOf as, s.writeOk b.core src (writesOf as) p.1 p.2 = true) →
    s.transact src role n 0 reply as = ({ numbered s with staged := s.staged ++ (writesOf as).map fun (p : Nat × Word) =>
      ({ txn := s.nextTxn, src := src, role := role, addr := p.1, val := p.2, readEpoch := b.epoch,
          closedAt := s.now, session := n } : Staged) } : State).answer
        (accessed s src role n reply as b) .ok (if writesOf as = [] then none else some (s.live.epc.epoch + 1))) ∧
  (∀ (s : State) t a b, s.pub = some b → t.readEpoch = b.epoch →
    (s.access t (.rd a)).2.values = t.values ++ [readReg b.core s.live t.src t.role a]) ∧
  (∀ (s : State) t a b q, s.pub = some q → s.prev = some b → q.epoch ≠ t.readEpoch →
    (s.access t (.rd a)).2.values = t.values ++ [readReg b.core s.live t.src t.role a])

/-- R38: the staging area takes all the writes of a transaction or none: past 2,048 the answer is FULL, EPC_STG_FULL is incremented and
nothing is staged; the writes of YRA, YML and the debug port share the room. -/
def Obligations.CapacityIsAllOrNothing : Prop :=
  (∀ s src role n reply as b, Served s src role as b → writesOf as ≠ [] → 2048 < externalStaged s.staged + (writesOf as).length →
    s.transact src role n 0 reply as = ((numbered s).modEpc fun e => { e with stgFull := sat32 e.stgFull }).answer
      (accessed s src role n reply as b) .full none) ∧
  (∀ s src role n reply as b, Served s src role as b → externalStaged s.staged + (writesOf as).length ≤ 2048 →
    (∀ p ∈ writesOf as, s.writeOk b.core src (writesOf as) p.1 p.2 = true) →
    (s.transact src role n 0 reply as).staged.length = s.staged.length + (writesOf as).length
      ∧ (s.transact src role n 0 reply as).live.epc = s.live.epc) ∧
  (∀ l (x : Staged), x.mirror = false → (x.src = .yra ∨ x.src = .yml ∨ x.src = .dbg) → externalStaged (l ++ [x]) = externalStaged l + 1) ∧
  (∀ l (x : Staged), (x.mirror = true ∨ x.src = .dp) → externalStaged (l ++ [x]) = externalStaged l)

/-- R227: a logic cycle that takes longer than CYCLE_MAX_US, and not as long as its watchdog, completes: it is counted, LGC_OVERRUN is
incremented and OVERRUN_SEEN set; one that does not counts no overrun. -/
def Obligations.LateCyclesAreCounted : Prop :=
  (∀ us ops s, CycleRuns s us → s.live.cst.cycleMaxUs < us → ∃ t, exec (.logicCycle us ops) s = .next t
    ∧ t.live.lgc.overrun = sat32 s.live.lgc.overrun ∧ t.live.lgc.overrunSeen = true ∧ t.live.lgc.cycles = s.live.lgc.cycles + 1
    ∧ t.live.lgc.halted = s.live.lgc.halted ∧ t.live.lgc.lastEnd = some (s.now + us * 1000)) ∧
  (∀ us ops s, CycleRuns s us → us ≤ s.live.cst.cycleMaxUs → ∃ t, exec (.logicCycle us ops) s = .next t
    ∧ t.live.lgc.overrun = s.live.lgc.overrun ∧ t.live.lgc.overrunSeen = s.live.lgc.overrunSeen
    ∧ t.live.lgc.cycles = s.live.lgc.cycles + 1)

/-- R480: RST_CAUSE gives the highest code among the sources of the last module reset, and one bit for each of them; a source that joins
a reset in progress joins the set, a first one begins it anew; a block reset counts in RST_BLK_CNT0 or RST_BLK_CNT1 and leaves RST_CAUSE
alone. -/
def Obligations.ResetCausesAreRecorded : Prop :=
  (∀ k : Core, field (readPwr k 0x280) 2 0 = topSource k.pwr.sources % 8) ∧
  (∀ (l : List ResetSource) x, x ∈ l → x.code ≤ topSource l) ∧
  (∀ l : List ResetSource, l ≠ [] → ∃ x ∈ l, x.code = topSource l) ∧
  (∀ (k : Core) (x : ResetSource), k.pwr.sources.Nodup → (bit (readPwr k 0x280) (7 + x.code) = true ↔ x ∈ k.pwr.sources)) ∧
  (∀ (s : State) src d, s.live.pwr.inReset = false → (s.assertReset src d).live.pwr.sources = [src]) ∧
  (∀ (s : State) src d x, s.live.pwr.inReset = true →
    (x ∈ (s.assertReset src d).live.pwr.sources ↔ x = src ∨ x ∈ s.live.pwr.sources)) ∧
  (∀ (s : State) b, b < 6 → (s.resetBlock b).live.pwr.sources = s.live.pwr.sources
    ∧ (s.resetBlock b).live.pwr.detail = s.live.pwr.detail) ∧
  (∀ s : State, (s.resetBlock 0).live.pwr.blkCp = satAdd 8 s.live.pwr.blkCp 1 ∧ (s.resetBlock 1).live.pwr.blkSolver = satAdd 8 s.live.pwr.blkSolver 1
    ∧ (s.resetBlock 2).live.pwr.blkAsm = satAdd 8 s.live.pwr.blkAsm 1 ∧ (s.resetBlock 3).live.pwr.blkEth = satAdd 8 s.live.pwr.blkEth 1
    ∧ (s.resetBlock 4).live.pwr.blkCan = satAdd 8 s.live.pwr.blkCan 1 ∧ (s.resetBlock 5).live.pwr.blkMgt = satAdd 8 s.live.pwr.blkMgt 1)

/-- R347: a standby whose partner is declared failed enters TAKING: SEIZE, KILL_OUT and a raised generation in one instant; SEIZE stays
while the accepted partner code is neither NONE nor READY, then the module drives ACTIVE. -/
def Obligations.FailedPartnersAreSeized : Prop :=
  (∀ s : State, s.paired = true → s.live.par.killIn = false → s.live.par.pstate = 4 → s.live.par.partnerFailed = true →
    s.settlePair = (let t := s.enterTaking 7 3 false
      if s.live.par.pcode = 0 ∨ isReadyCode s.live.par.pcode = true then t.setClaim t.live.activeCode else t)) ∧
  (∀ s : State, s.paired = true → s.live.cst.pairInUse ≠ 0 → (s.enterTaking 7 3 false).live.par.pstate = 8 ∧ (s.enterTaking 7 3 false).live.par.code = 7
    ∧ (s.enterTaking 7 3 false).live.par.killOut = true ∧ (s.enterTaking 7 3 false).live.par.gen = (s.live.par.raise).gen
    ∧ (s.enterTaking 7 3 false).live.pwr.mode = .handover) ∧
  (∀ (s : State) code par, s.paired = true → s.live.cst.pairInUse ≠ 0 → s.live.par.killIn = false → s.live.par.pstate = 8 → s.live.par.code = 7 → claimWordOk code par = true →
    code ≠ 0 → isReadyCode code = false → ∃ t, exec (.partnerCodeChange code par) s = .next t ∧ t.live.par.code = 7) ∧
  (∀ (s : State) code par, s.paired = true → s.live.cst.pairInUse ≠ 0 → s.live.par.killIn = false → s.live.par.pstate = 8 → s.live.par.code = 7 → claimWordOk code par = true →
    (code = 0 ∨ isReadyCode code = true) → ∃ t, exec (.partnerCodeChange code par) s = .next t ∧ isActiveCode t.live.par.code = true)

/-- R8, R16, R31, R37, R83, R329, R382, R479, R530 and the Reset columns: the machine after reset: in BOOT, no casting, no epoch, no bank, no transaction, no
command, nothing staged, no session; the claim NONE, the gate closed; the fields whose Reset value is not 0 at that value. -/
def Obligations.WhatResetLeaves : Prop :=
  State.reset.pending = [] ∧ State.reset.staged = [] ∧ State.reset.txns = [] ∧ State.reset.pub = none ∧ State.reset.prep = none
  ∧ State.reset.live.epc.epoch = 0 ∧ State.reset.live.epc.served = false ∧ State.reset.live.epc.casting = false
  ∧ State.reset.live.pwr.mode = .boot ∧ State.reset.live.pwr.bootStarted = false ∧ State.reset.live.pwr.releasedAt = some State.reset.now
  ∧ State.reset.live.par.code = 0 ∧ State.reset.live.par.gate = false ∧ State.reset.live.par.killOut = false
  ∧ State.reset.live.eth.sessions = [] ∧ State.reset.live.mgt.sessions = [] ∧ State.reset.live.sec.slots = []
  ∧ (∀ d, d < 2 → (State.reset.live.ptp.slot d).addend = 0xA0000000)
  ∧ State.reset.live.lpe.injClk = 1 ∧ State.reset.live.lpe.injDec = 1
  ∧ (∀ l, l < 32 → State.reset.live.slv.phys l = l) ∧ (∀ n, (State.reset.chan n).slice = 31) ∧ (∀ d, (State.reset.drv d).st = 7)
  ∧ readReg State.reset.live State.reset.live .yml .nobody 0x0000 &&& 0xFFFF = 0x9600
  ∧ readReg State.reset.live State.reset.live .yml .nobody 0x0200 &&& 0xF = 1
  ∧ readReg State.reset.live State.reset.live .yml .nobody 0x041C >>> 16 = 2
end

