-- ==== Sys2Proof/Laws/State.lean ====
section
/-! SUPPORT. What a change of one block leaves unchanged: one lemma per field per update, true by `rfl`. -/

namespace Sys2Proof.Machine

@[simp] theorem State.modSys_sys (s : State) (f : Sys → Sys) : (s.modSys f).live.sys = f s.live.sys := rfl

@[simp] theorem State.modSys_epc (s : State) (f : Sys → Sys) : (s.modSys f).live.epc = s.live.epc := rfl

@[simp] theorem State.modSys_cst (s : State) (f : Sys → Sys) : (s.modSys f).live.cst = s.live.cst := rfl

@[simp] theorem State.modSys_asm (s : State) (f : Sys → Sys) : (s.modSys f).live.asm = s.live.asm := rfl

@[simp] theorem State.modSys_slv (s : State) (f : Sys → Sys) : (s.modSys f).live.slv = s.live.slv := rfl

@[simp] theorem State.modSys_pln (s : State) (f : Sys → Sys) : (s.modSys f).live.pln = s.live.pln := rfl

@[simp] theorem State.modSys_lpe (s : State) (f : Sys → Sys) : (s.modSys f).live.lpe = s.live.lpe := rfl

@[simp] theorem State.modSys_lgc (s : State) (f : Sys → Sys) : (s.modSys f).live.lgc = s.live.lgc := rfl

@[simp] theorem State.modSys_fch (s : State) (f : Sys → Sys) : (s.modSys f).live.fch = s.live.fch := rfl

@[simp] theorem State.modSys_fan (s : State) (f : Sys → Sys) : (s.modSys f).live.fan = s.live.fan := rfl

@[simp] theorem State.modSys_nrg (s : State) (f : Sys → Sys) : (s.modSys f).live.nrg = s.live.nrg := rfl

@[simp] theorem State.modSys_par (s : State) (f : Sys → Sys) : (s.modSys f).live.par = s.live.par := rfl

@[simp] theorem State.modSys_eth (s : State) (f : Sys → Sys) : (s.modSys f).live.eth = s.live.eth := rfl

@[simp] theorem State.modSys_ptp (s : State) (f : Sys → Sys) : (s.modSys f).live.ptp = s.live.ptp := rfl

@[simp] theorem State.modSys_can (s : State) (f : Sys → Sys) : (s.modSys f).live.can = s.live.can := rfl

@[simp] theorem State.modSys_clk (s : State) (f : Sys → Sys) : (s.modSys f).live.clk = s.live.clk := rfl

@[simp] theorem State.modSys_sec (s : State) (f : Sys → Sys) : (s.modSys f).live.sec = s.live.sec := rfl

@[simp] theorem State.modSys_pwr (s : State) (f : Sys → Sys) : (s.modSys f).live.pwr = s.live.pwr := rfl

@[simp] theorem State.modSys_upd (s : State) (f : Sys → Sys) : (s.modSys f).live.upd = s.live.upd := rfl

@[simp] theorem State.modSys_mgt (s : State) (f : Sys → Sys) : (s.modSys f).live.mgt = s.live.mgt := rfl

@[simp] theorem State.modSys_pending (s : State) (f : Sys → Sys) : (s.modSys f).pending = s.pending := rfl

@[simp] theorem State.modSys_out (s : State) (f : Sys → Sys) : (s.modSys f).out = s.out := rfl

@[simp] theorem State.modSys_now (s : State) (f : Sys → Sys) : (s.modSys f).now = s.now := rfl

@[simp] theorem State.modSys_freeCtr (s : State) (f : Sys → Sys) : (s.modSys f).freeCtr = s.freeCtr := rfl

@[simp] theorem State.modSys_pub (s : State) (f : Sys → Sys) : (s.modSys f).pub = s.pub := rfl

@[simp] theorem State.modSys_prep (s : State) (f : Sys → Sys) : (s.modSys f).prep = s.prep := rfl

@[simp] theorem State.modSys_prev (s : State) (f : Sys → Sys) : (s.modSys f).prev = s.prev := rfl

@[simp] theorem State.modSys_txns (s : State) (f : Sys → Sys) : (s.modSys f).txns = s.txns := rfl

@[simp] theorem State.modSys_nextTxn (s : State) (f : Sys → Sys) : (s.modSys f).nextTxn = s.nextTxn := rfl

@[simp] theorem State.modSys_staged (s : State) (f : Sys → Sys) : (s.modSys f).staged = s.staged := rfl

@[simp] theorem State.modEpc_sys (s : State) (f : Epc → Epc) : (s.modEpc f).live.sys = s.live.sys := rfl

@[simp] theorem State.modEpc_epc (s : State) (f : Epc → Epc) : (s.modEpc f).live.epc = f s.live.epc := rfl

@[simp] theorem State.modEpc_cst (s : State) (f : Epc → Epc) : (s.modEpc f).live.cst = s.live.cst := rfl

@[simp] theorem State.modEpc_asm (s : State) (f : Epc → Epc) : (s.modEpc f).live.asm = s.live.asm := rfl

@[simp] theorem State.modEpc_slv (s : State) (f : Epc → Epc) : (s.modEpc f).live.slv = s.live.slv := rfl

@[simp] theorem State.modEpc_pln (s : State) (f : Epc → Epc) : (s.modEpc f).live.pln = s.live.pln := rfl

@[simp] theorem State.modEpc_lpe (s : State) (f : Epc → Epc) : (s.modEpc f).live.lpe = s.live.lpe := rfl

@[simp] theorem State.modEpc_lgc (s : State) (f : Epc → Epc) : (s.modEpc f).live.lgc = s.live.lgc := rfl

@[simp] theorem State.modEpc_fch (s : State) (f : Epc → Epc) : (s.modEpc f).live.fch = s.live.fch := rfl

@[simp] theorem State.modEpc_fan (s : State) (f : Epc → Epc) : (s.modEpc f).live.fan = s.live.fan := rfl

@[simp] theorem State.modEpc_nrg (s : State) (f : Epc → Epc) : (s.modEpc f).live.nrg = s.live.nrg := rfl

@[simp] theorem State.modEpc_par (s : State) (f : Epc → Epc) : (s.modEpc f).live.par = s.live.par := rfl

@[simp] theorem State.modEpc_eth (s : State) (f : Epc → Epc) : (s.modEpc f).live.eth = s.live.eth := rfl

@[simp] theorem State.modEpc_ptp (s : State) (f : Epc → Epc) : (s.modEpc f).live.ptp = s.live.ptp := rfl

@[simp] theorem State.modEpc_can (s : State) (f : Epc → Epc) : (s.modEpc f).live.can = s.live.can := rfl

@[simp] theorem State.modEpc_clk (s : State) (f : Epc → Epc) : (s.modEpc f).live.clk = s.live.clk := rfl

@[simp] theorem State.modEpc_sec (s : State) (f : Epc → Epc) : (s.modEpc f).live.sec = s.live.sec := rfl

@[simp] theorem State.modEpc_pwr (s : State) (f : Epc → Epc) : (s.modEpc f).live.pwr = s.live.pwr := rfl

@[simp] theorem State.modEpc_upd (s : State) (f : Epc → Epc) : (s.modEpc f).live.upd = s.live.upd := rfl

@[simp] theorem State.modEpc_mgt (s : State) (f : Epc → Epc) : (s.modEpc f).live.mgt = s.live.mgt := rfl

@[simp] theorem State.modEpc_pending (s : State) (f : Epc → Epc) : (s.modEpc f).pending = s.pending := rfl

@[simp] theorem State.modEpc_out (s : State) (f : Epc → Epc) : (s.modEpc f).out = s.out := rfl

@[simp] theorem State.modEpc_now (s : State) (f : Epc → Epc) : (s.modEpc f).now = s.now := rfl

@[simp] theorem State.modEpc_freeCtr (s : State) (f : Epc → Epc) : (s.modEpc f).freeCtr = s.freeCtr := rfl

@[simp] theorem State.modEpc_pub (s : State) (f : Epc → Epc) : (s.modEpc f).pub = s.pub := rfl

@[simp] theorem State.modEpc_prep (s : State) (f : Epc → Epc) : (s.modEpc f).prep = s.prep := rfl

@[simp] theorem State.modEpc_prev (s : State) (f : Epc → Epc) : (s.modEpc f).prev = s.prev := rfl

@[simp] theorem State.modEpc_txns (s : State) (f : Epc → Epc) : (s.modEpc f).txns = s.txns := rfl

@[simp] theorem State.modEpc_nextTxn (s : State) (f : Epc → Epc) : (s.modEpc f).nextTxn = s.nextTxn := rfl

@[simp] theorem State.modEpc_staged (s : State) (f : Epc → Epc) : (s.modEpc f).staged = s.staged := rfl

@[simp] theorem State.modCst_sys (s : State) (f : Cst → Cst) : (s.modCst f).live.sys = s.live.sys := rfl

@[simp] theorem State.modCst_epc (s : State) (f : Cst → Cst) : (s.modCst f).live.epc = s.live.epc := rfl

@[simp] theorem State.modCst_cst (s : State) (f : Cst → Cst) : (s.modCst f).live.cst = f s.live.cst := rfl

@[simp] theorem State.modCst_asm (s : State) (f : Cst → Cst) : (s.modCst f).live.asm = s.live.asm := rfl

@[simp] theorem State.modCst_slv (s : State) (f : Cst → Cst) : (s.modCst f).live.slv = s.live.slv := rfl

@[simp] theorem State.modCst_pln (s : State) (f : Cst → Cst) : (s.modCst f).live.pln = s.live.pln := rfl

@[simp] theorem State.modCst_lpe (s : State) (f : Cst → Cst) : (s.modCst f).live.lpe = s.live.lpe := rfl

@[simp] theorem State.modCst_lgc (s : State) (f : Cst → Cst) : (s.modCst f).live.lgc = s.live.lgc := rfl

@[simp] theorem State.modCst_fch (s : State) (f : Cst → Cst) : (s.modCst f).live.fch = s.live.fch := rfl

@[simp] theorem State.modCst_fan (s : State) (f : Cst → Cst) : (s.modCst f).live.fan = s.live.fan := rfl

@[simp] theorem State.modCst_nrg (s : State) (f : Cst → Cst) : (s.modCst f).live.nrg = s.live.nrg := rfl

@[simp] theorem State.modCst_par (s : State) (f : Cst → Cst) : (s.modCst f).live.par = s.live.par := rfl

@[simp] theorem State.modCst_eth (s : State) (f : Cst → Cst) : (s.modCst f).live.eth = s.live.eth := rfl

@[simp] theorem State.modCst_ptp (s : State) (f : Cst → Cst) : (s.modCst f).live.ptp = s.live.ptp := rfl

@[simp] theorem State.modCst_can (s : State) (f : Cst → Cst) : (s.modCst f).live.can = s.live.can := rfl

@[simp] theorem State.modCst_clk (s : State) (f : Cst → Cst) : (s.modCst f).live.clk = s.live.clk := rfl

@[simp] theorem State.modCst_sec (s : State) (f : Cst → Cst) : (s.modCst f).live.sec = s.live.sec := rfl

@[simp] theorem State.modCst_pwr (s : State) (f : Cst → Cst) : (s.modCst f).live.pwr = s.live.pwr := rfl

@[simp] theorem State.modCst_upd (s : State) (f : Cst → Cst) : (s.modCst f).live.upd = s.live.upd := rfl

@[simp] theorem State.modCst_mgt (s : State) (f : Cst → Cst) : (s.modCst f).live.mgt = s.live.mgt := rfl

@[simp] theorem State.modCst_pending (s : State) (f : Cst → Cst) : (s.modCst f).pending = s.pending := rfl

@[simp] theorem State.modCst_out (s : State) (f : Cst → Cst) : (s.modCst f).out = s.out := rfl

@[simp] theorem State.modCst_now (s : State) (f : Cst → Cst) : (s.modCst f).now = s.now := rfl

@[simp] theorem State.modCst_freeCtr (s : State) (f : Cst → Cst) : (s.modCst f).freeCtr = s.freeCtr := rfl

@[simp] theorem State.modCst_pub (s : State) (f : Cst → Cst) : (s.modCst f).pub = s.pub := rfl

@[simp] theorem State.modCst_prep (s : State) (f : Cst → Cst) : (s.modCst f).prep = s.prep := rfl

@[simp] theorem State.modCst_prev (s : State) (f : Cst → Cst) : (s.modCst f).prev = s.prev := rfl

@[simp] theorem State.modCst_txns (s : State) (f : Cst → Cst) : (s.modCst f).txns = s.txns := rfl

@[simp] theorem State.modCst_nextTxn (s : State) (f : Cst → Cst) : (s.modCst f).nextTxn = s.nextTxn := rfl

@[simp] theorem State.modCst_staged (s : State) (f : Cst → Cst) : (s.modCst f).staged = s.staged := rfl

@[simp] theorem State.modAsm_sys (s : State) (f : Asm → Asm) : (s.modAsm f).live.sys = s.live.sys := rfl

@[simp] theorem State.modAsm_epc (s : State) (f : Asm → Asm) : (s.modAsm f).live.epc = s.live.epc := rfl

@[simp] theorem State.modAsm_cst (s : State) (f : Asm → Asm) : (s.modAsm f).live.cst = s.live.cst := rfl

@[simp] theorem State.modAsm_asm (s : State) (f : Asm → Asm) : (s.modAsm f).live.asm = f s.live.asm := rfl

@[simp] theorem State.modAsm_slv (s : State) (f : Asm → Asm) : (s.modAsm f).live.slv = s.live.slv := rfl

@[simp] theorem State.modAsm_pln (s : State) (f : Asm → Asm) : (s.modAsm f).live.pln = s.live.pln := rfl

@[simp] theorem State.modAsm_lpe (s : State) (f : Asm → Asm) : (s.modAsm f).live.lpe = s.live.lpe := rfl

@[simp] theorem State.modAsm_lgc (s : State) (f : Asm → Asm) : (s.modAsm f).live.lgc = s.live.lgc := rfl

@[simp] theorem State.modAsm_fch (s : State) (f : Asm → Asm) : (s.modAsm f).live.fch = s.live.fch := rfl

@[simp] theorem State.modAsm_fan (s : State) (f : Asm → Asm) : (s.modAsm f).live.fan = s.live.fan := rfl

@[simp] theorem State.modAsm_nrg (s : State) (f : Asm → Asm) : (s.modAsm f).live.nrg = s.live.nrg := rfl

@[simp] theorem State.modAsm_par (s : State) (f : Asm → Asm) : (s.modAsm f).live.par = s.live.par := rfl

@[simp] theorem State.modAsm_eth (s : State) (f : Asm → Asm) : (s.modAsm f).live.eth = s.live.eth := rfl

@[simp] theorem State.modAsm_ptp (s : State) (f : Asm → Asm) : (s.modAsm f).live.ptp = s.live.ptp := rfl

@[simp] theorem State.modAsm_can (s : State) (f : Asm → Asm) : (s.modAsm f).live.can = s.live.can := rfl

@[simp] theorem State.modAsm_clk (s : State) (f : Asm → Asm) : (s.modAsm f).live.clk = s.live.clk := rfl

@[simp] theorem State.modAsm_sec (s : State) (f : Asm → Asm) : (s.modAsm f).live.sec = s.live.sec := rfl

@[simp] theorem State.modAsm_pwr (s : State) (f : Asm → Asm) : (s.modAsm f).live.pwr = s.live.pwr := rfl

@[simp] theorem State.modAsm_upd (s : State) (f : Asm → Asm) : (s.modAsm f).live.upd = s.live.upd := rfl

@[simp] theorem State.modAsm_mgt (s : State) (f : Asm → Asm) : (s.modAsm f).live.mgt = s.live.mgt := rfl

@[simp] theorem State.modAsm_pending (s : State) (f : Asm → Asm) : (s.modAsm f).pending = s.pending := rfl

@[simp] theorem State.modAsm_out (s : State) (f : Asm → Asm) : (s.modAsm f).out = s.out := rfl

@[simp] theorem State.modAsm_now (s : State) (f : Asm → Asm) : (s.modAsm f).now = s.now := rfl

@[simp] theorem State.modAsm_freeCtr (s : State) (f : Asm → Asm) : (s.modAsm f).freeCtr = s.freeCtr := rfl

@[simp] theorem State.modAsm_pub (s : State) (f : Asm → Asm) : (s.modAsm f).pub = s.pub := rfl

@[simp] theorem State.modAsm_prep (s : State) (f : Asm → Asm) : (s.modAsm f).prep = s.prep := rfl

@[simp] theorem State.modAsm_prev (s : State) (f : Asm → Asm) : (s.modAsm f).prev = s.prev := rfl

@[simp] theorem State.modAsm_txns (s : State) (f : Asm → Asm) : (s.modAsm f).txns = s.txns := rfl

@[simp] theorem State.modAsm_nextTxn (s : State) (f : Asm → Asm) : (s.modAsm f).nextTxn = s.nextTxn := rfl

@[simp] theorem State.modAsm_staged (s : State) (f : Asm → Asm) : (s.modAsm f).staged = s.staged := rfl

@[simp] theorem State.modSlv_sys (s : State) (f : Slv → Slv) : (s.modSlv f).live.sys = s.live.sys := rfl

@[simp] theorem State.modSlv_epc (s : State) (f : Slv → Slv) : (s.modSlv f).live.epc = s.live.epc := rfl

@[simp] theorem State.modSlv_cst (s : State) (f : Slv → Slv) : (s.modSlv f).live.cst = s.live.cst := rfl

@[simp] theorem State.modSlv_asm (s : State) (f : Slv → Slv) : (s.modSlv f).live.asm = s.live.asm := rfl

@[simp] theorem State.modSlv_slv (s : State) (f : Slv → Slv) : (s.modSlv f).live.slv = f s.live.slv := rfl

@[simp] theorem State.modSlv_pln (s : State) (f : Slv → Slv) : (s.modSlv f).live.pln = s.live.pln := rfl

@[simp] theorem State.modSlv_lpe (s : State) (f : Slv → Slv) : (s.modSlv f).live.lpe = s.live.lpe := rfl

@[simp] theorem State.modSlv_lgc (s : State) (f : Slv → Slv) : (s.modSlv f).live.lgc = s.live.lgc := rfl

@[simp] theorem State.modSlv_fch (s : State) (f : Slv → Slv) : (s.modSlv f).live.fch = s.live.fch := rfl

@[simp] theorem State.modSlv_fan (s : State) (f : Slv → Slv) : (s.modSlv f).live.fan = s.live.fan := rfl

@[simp] theorem State.modSlv_nrg (s : State) (f : Slv → Slv) : (s.modSlv f).live.nrg = s.live.nrg := rfl

@[simp] theorem State.modSlv_par (s : State) (f : Slv → Slv) : (s.modSlv f).live.par = s.live.par := rfl

@[simp] theorem State.modSlv_eth (s : State) (f : Slv → Slv) : (s.modSlv f).live.eth = s.live.eth := rfl

@[simp] theorem State.modSlv_ptp (s : State) (f : Slv → Slv) : (s.modSlv f).live.ptp = s.live.ptp := rfl

@[simp] theorem State.modSlv_can (s : State) (f : Slv → Slv) : (s.modSlv f).live.can = s.live.can := rfl

@[simp] theorem State.modSlv_clk (s : State) (f : Slv → Slv) : (s.modSlv f).live.clk = s.live.clk := rfl

@[simp] theorem State.modSlv_sec (s : State) (f : Slv → Slv) : (s.modSlv f).live.sec = s.live.sec := rfl

@[simp] theorem State.modSlv_pwr (s : State) (f : Slv → Slv) : (s.modSlv f).live.pwr = s.live.pwr := rfl

@[simp] theorem State.modSlv_upd (s : State) (f : Slv → Slv) : (s.modSlv f).live.upd = s.live.upd := rfl

@[simp] theorem State.modSlv_mgt (s : State) (f : Slv → Slv) : (s.modSlv f).live.mgt = s.live.mgt := rfl

@[simp] theorem State.modSlv_pending (s : State) (f : Slv → Slv) : (s.modSlv f).pending = s.pending := rfl

@[simp] theorem State.modSlv_out (s : State) (f : Slv → Slv) : (s.modSlv f).out = s.out := rfl

@[simp] theorem State.modSlv_now (s : State) (f : Slv → Slv) : (s.modSlv f).now = s.now := rfl

@[simp] theorem State.modSlv_freeCtr (s : State) (f : Slv → Slv) : (s.modSlv f).freeCtr = s.freeCtr := rfl

@[simp] theorem State.modSlv_pub (s : State) (f : Slv → Slv) : (s.modSlv f).pub = s.pub := rfl

@[simp] theorem State.modSlv_prep (s : State) (f : Slv → Slv) : (s.modSlv f).prep = s.prep := rfl

@[simp] theorem State.modSlv_prev (s : State) (f : Slv → Slv) : (s.modSlv f).prev = s.prev := rfl

@[simp] theorem State.modSlv_txns (s : State) (f : Slv → Slv) : (s.modSlv f).txns = s.txns := rfl

@[simp] theorem State.modSlv_nextTxn (s : State) (f : Slv → Slv) : (s.modSlv f).nextTxn = s.nextTxn := rfl

@[simp] theorem State.modSlv_staged (s : State) (f : Slv → Slv) : (s.modSlv f).staged = s.staged := rfl

@[simp] theorem State.modPln_sys (s : State) (f : Pln → Pln) : (s.modPln f).live.sys = s.live.sys := rfl

@[simp] theorem State.modPln_epc (s : State) (f : Pln → Pln) : (s.modPln f).live.epc = s.live.epc := rfl

@[simp] theorem State.modPln_cst (s : State) (f : Pln → Pln) : (s.modPln f).live.cst = s.live.cst := rfl

@[simp] theorem State.modPln_asm (s : State) (f : Pln → Pln) : (s.modPln f).live.asm = s.live.asm := rfl

@[simp] theorem State.modPln_slv (s : State) (f : Pln → Pln) : (s.modPln f).live.slv = s.live.slv := rfl

@[simp] theorem State.modPln_pln (s : State) (f : Pln → Pln) : (s.modPln f).live.pln = f s.live.pln := rfl

@[simp] theorem State.modPln_lpe (s : State) (f : Pln → Pln) : (s.modPln f).live.lpe = s.live.lpe := rfl

@[simp] theorem State.modPln_lgc (s : State) (f : Pln → Pln) : (s.modPln f).live.lgc = s.live.lgc := rfl

@[simp] theorem State.modPln_fch (s : State) (f : Pln → Pln) : (s.modPln f).live.fch = s.live.fch := rfl

@[simp] theorem State.modPln_fan (s : State) (f : Pln → Pln) : (s.modPln f).live.fan = s.live.fan := rfl

@[simp] theorem State.modPln_nrg (s : State) (f : Pln → Pln) : (s.modPln f).live.nrg = s.live.nrg := rfl

@[simp] theorem State.modPln_par (s : State) (f : Pln → Pln) : (s.modPln f).live.par = s.live.par := rfl

@[simp] theorem State.modPln_eth (s : State) (f : Pln → Pln) : (s.modPln f).live.eth = s.live.eth := rfl

@[simp] theorem State.modPln_ptp (s : State) (f : Pln → Pln) : (s.modPln f).live.ptp = s.live.ptp := rfl

@[simp] theorem State.modPln_can (s : State) (f : Pln → Pln) : (s.modPln f).live.can = s.live.can := rfl

@[simp] theorem State.modPln_clk (s : State) (f : Pln → Pln) : (s.modPln f).live.clk = s.live.clk := rfl

@[simp] theorem State.modPln_sec (s : State) (f : Pln → Pln) : (s.modPln f).live.sec = s.live.sec := rfl

@[simp] theorem State.modPln_pwr (s : State) (f : Pln → Pln) : (s.modPln f).live.pwr = s.live.pwr := rfl

@[simp] theorem State.modPln_upd (s : State) (f : Pln → Pln) : (s.modPln f).live.upd = s.live.upd := rfl

@[simp] theorem State.modPln_mgt (s : State) (f : Pln → Pln) : (s.modPln f).live.mgt = s.live.mgt := rfl

@[simp] theorem State.modPln_pending (s : State) (f : Pln → Pln) : (s.modPln f).pending = s.pending := rfl

@[simp] theorem State.modPln_out (s : State) (f : Pln → Pln) : (s.modPln f).out = s.out := rfl

@[simp] theorem State.modPln_now (s : State) (f : Pln → Pln) : (s.modPln f).now = s.now := rfl

@[simp] theorem State.modPln_freeCtr (s : State) (f : Pln → Pln) : (s.modPln f).freeCtr = s.freeCtr := rfl

@[simp] theorem State.modPln_pub (s : State) (f : Pln → Pln) : (s.modPln f).pub = s.pub := rfl

@[simp] theorem State.modPln_prep (s : State) (f : Pln → Pln) : (s.modPln f).prep = s.prep := rfl

@[simp] theorem State.modPln_prev (s : State) (f : Pln → Pln) : (s.modPln f).prev = s.prev := rfl

@[simp] theorem State.modPln_txns (s : State) (f : Pln → Pln) : (s.modPln f).txns = s.txns := rfl

@[simp] theorem State.modPln_nextTxn (s : State) (f : Pln → Pln) : (s.modPln f).nextTxn = s.nextTxn := rfl

@[simp] theorem State.modPln_staged (s : State) (f : Pln → Pln) : (s.modPln f).staged = s.staged := rfl

@[simp] theorem State.modLpe_sys (s : State) (f : Lpe → Lpe) : (s.modLpe f).live.sys = s.live.sys := rfl

@[simp] theorem State.modLpe_epc (s : State) (f : Lpe → Lpe) : (s.modLpe f).live.epc = s.live.epc := rfl

@[simp] theorem State.modLpe_cst (s : State) (f : Lpe → Lpe) : (s.modLpe f).live.cst = s.live.cst := rfl

@[simp] theorem State.modLpe_asm (s : State) (f : Lpe → Lpe) : (s.modLpe f).live.asm = s.live.asm := rfl

@[simp] theorem State.modLpe_slv (s : State) (f : Lpe → Lpe) : (s.modLpe f).live.slv = s.live.slv := rfl

@[simp] theorem State.modLpe_pln (s : State) (f : Lpe → Lpe) : (s.modLpe f).live.pln = s.live.pln := rfl

@[simp] theorem State.modLpe_lpe (s : State) (f : Lpe → Lpe) : (s.modLpe f).live.lpe = f s.live.lpe := rfl

@[simp] theorem State.modLpe_lgc (s : State) (f : Lpe → Lpe) : (s.modLpe f).live.lgc = s.live.lgc := rfl

@[simp] theorem State.modLpe_fch (s : State) (f : Lpe → Lpe) : (s.modLpe f).live.fch = s.live.fch := rfl

@[simp] theorem State.modLpe_fan (s : State) (f : Lpe → Lpe) : (s.modLpe f).live.fan = s.live.fan := rfl

@[simp] theorem State.modLpe_nrg (s : State) (f : Lpe → Lpe) : (s.modLpe f).live.nrg = s.live.nrg := rfl

@[simp] theorem State.modLpe_par (s : State) (f : Lpe → Lpe) : (s.modLpe f).live.par = s.live.par := rfl

@[simp] theorem State.modLpe_eth (s : State) (f : Lpe → Lpe) : (s.modLpe f).live.eth = s.live.eth := rfl

@[simp] theorem State.modLpe_ptp (s : State) (f : Lpe → Lpe) : (s.modLpe f).live.ptp = s.live.ptp := rfl

@[simp] theorem State.modLpe_can (s : State) (f : Lpe → Lpe) : (s.modLpe f).live.can = s.live.can := rfl

@[simp] theorem State.modLpe_clk (s : State) (f : Lpe → Lpe) : (s.modLpe f).live.clk = s.live.clk := rfl

@[simp] theorem State.modLpe_sec (s : State) (f : Lpe → Lpe) : (s.modLpe f).live.sec = s.live.sec := rfl

@[simp] theorem State.modLpe_pwr (s : State) (f : Lpe → Lpe) : (s.modLpe f).live.pwr = s.live.pwr := rfl

@[simp] theorem State.modLpe_upd (s : State) (f : Lpe → Lpe) : (s.modLpe f).live.upd = s.live.upd := rfl

@[simp] theorem State.modLpe_mgt (s : State) (f : Lpe → Lpe) : (s.modLpe f).live.mgt = s.live.mgt := rfl

@[simp] theorem State.modLpe_pending (s : State) (f : Lpe → Lpe) : (s.modLpe f).pending = s.pending := rfl

@[simp] theorem State.modLpe_out (s : State) (f : Lpe → Lpe) : (s.modLpe f).out = s.out := rfl

@[simp] theorem State.modLpe_now (s : State) (f : Lpe → Lpe) : (s.modLpe f).now = s.now := rfl

@[simp] theorem State.modLpe_freeCtr (s : State) (f : Lpe → Lpe) : (s.modLpe f).freeCtr = s.freeCtr := rfl

@[simp] theorem State.modLpe_pub (s : State) (f : Lpe → Lpe) : (s.modLpe f).pub = s.pub := rfl

@[simp] theorem State.modLpe_prep (s : State) (f : Lpe → Lpe) : (s.modLpe f).prep = s.prep := rfl

@[simp] theorem State.modLpe_prev (s : State) (f : Lpe → Lpe) : (s.modLpe f).prev = s.prev := rfl

@[simp] theorem State.modLpe_txns (s : State) (f : Lpe → Lpe) : (s.modLpe f).txns = s.txns := rfl

@[simp] theorem State.modLpe_nextTxn (s : State) (f : Lpe → Lpe) : (s.modLpe f).nextTxn = s.nextTxn := rfl

@[simp] theorem State.modLpe_staged (s : State) (f : Lpe → Lpe) : (s.modLpe f).staged = s.staged := rfl

@[simp] theorem State.modLgc_sys (s : State) (f : Lgc → Lgc) : (s.modLgc f).live.sys = s.live.sys := rfl

@[simp] theorem State.modLgc_epc (s : State) (f : Lgc → Lgc) : (s.modLgc f).live.epc = s.live.epc := rfl

@[simp] theorem State.modLgc_cst (s : State) (f : Lgc → Lgc) : (s.modLgc f).live.cst = s.live.cst := rfl

@[simp] theorem State.modLgc_asm (s : State) (f : Lgc → Lgc) : (s.modLgc f).live.asm = s.live.asm := rfl

@[simp] theorem State.modLgc_slv (s : State) (f : Lgc → Lgc) : (s.modLgc f).live.slv = s.live.slv := rfl

@[simp] theorem State.modLgc_pln (s : State) (f : Lgc → Lgc) : (s.modLgc f).live.pln = s.live.pln := rfl

@[simp] theorem State.modLgc_lpe (s : State) (f : Lgc → Lgc) : (s.modLgc f).live.lpe = s.live.lpe := rfl

@[simp] theorem State.modLgc_lgc (s : State) (f : Lgc → Lgc) : (s.modLgc f).live.lgc = f s.live.lgc := rfl

@[simp] theorem State.modLgc_fch (s : State) (f : Lgc → Lgc) : (s.modLgc f).live.fch = s.live.fch := rfl

@[simp] theorem State.modLgc_fan (s : State) (f : Lgc → Lgc) : (s.modLgc f).live.fan = s.live.fan := rfl

@[simp] theorem State.modLgc_nrg (s : State) (f : Lgc → Lgc) : (s.modLgc f).live.nrg = s.live.nrg := rfl

@[simp] theorem State.modLgc_par (s : State) (f : Lgc → Lgc) : (s.modLgc f).live.par = s.live.par := rfl

@[simp] theorem State.modLgc_eth (s : State) (f : Lgc → Lgc) : (s.modLgc f).live.eth = s.live.eth := rfl

@[simp] theorem State.modLgc_ptp (s : State) (f : Lgc → Lgc) : (s.modLgc f).live.ptp = s.live.ptp := rfl

@[simp] theorem State.modLgc_can (s : State) (f : Lgc → Lgc) : (s.modLgc f).live.can = s.live.can := rfl

@[simp] theorem State.modLgc_clk (s : State) (f : Lgc → Lgc) : (s.modLgc f).live.clk = s.live.clk := rfl

@[simp] theorem State.modLgc_sec (s : State) (f : Lgc → Lgc) : (s.modLgc f).live.sec = s.live.sec := rfl

@[simp] theorem State.modLgc_pwr (s : State) (f : Lgc → Lgc) : (s.modLgc f).live.pwr = s.live.pwr := rfl

@[simp] theorem State.modLgc_upd (s : State) (f : Lgc → Lgc) : (s.modLgc f).live.upd = s.live.upd := rfl

@[simp] theorem State.modLgc_mgt (s : State) (f : Lgc → Lgc) : (s.modLgc f).live.mgt = s.live.mgt := rfl

@[simp] theorem State.modLgc_pending (s : State) (f : Lgc → Lgc) : (s.modLgc f).pending = s.pending := rfl

@[simp] theorem State.modLgc_out (s : State) (f : Lgc → Lgc) : (s.modLgc f).out = s.out := rfl

@[simp] theorem State.modLgc_now (s : State) (f : Lgc → Lgc) : (s.modLgc f).now = s.now := rfl

@[simp] theorem State.modLgc_freeCtr (s : State) (f : Lgc → Lgc) : (s.modLgc f).freeCtr = s.freeCtr := rfl

@[simp] theorem State.modLgc_pub (s : State) (f : Lgc → Lgc) : (s.modLgc f).pub = s.pub := rfl

@[simp] theorem State.modLgc_prep (s : State) (f : Lgc → Lgc) : (s.modLgc f).prep = s.prep := rfl

@[simp] theorem State.modLgc_prev (s : State) (f : Lgc → Lgc) : (s.modLgc f).prev = s.prev := rfl

@[simp] theorem State.modLgc_txns (s : State) (f : Lgc → Lgc) : (s.modLgc f).txns = s.txns := rfl

@[simp] theorem State.modLgc_nextTxn (s : State) (f : Lgc → Lgc) : (s.modLgc f).nextTxn = s.nextTxn := rfl

@[simp] theorem State.modLgc_staged (s : State) (f : Lgc → Lgc) : (s.modLgc f).staged = s.staged := rfl

@[simp] theorem State.modFch_sys (s : State) (f : Fch → Fch) : (s.modFch f).live.sys = s.live.sys := rfl

@[simp] theorem State.modFch_epc (s : State) (f : Fch → Fch) : (s.modFch f).live.epc = s.live.epc := rfl

@[simp] theorem State.modFch_cst (s : State) (f : Fch → Fch) : (s.modFch f).live.cst = s.live.cst := rfl

@[simp] theorem State.modFch_asm (s : State) (f : Fch → Fch) : (s.modFch f).live.asm = s.live.asm := rfl

@[simp] theorem State.modFch_slv (s : State) (f : Fch → Fch) : (s.modFch f).live.slv = s.live.slv := rfl

@[simp] theorem State.modFch_pln (s : State) (f : Fch → Fch) : (s.modFch f).live.pln = s.live.pln := rfl

@[simp] theorem State.modFch_lpe (s : State) (f : Fch → Fch) : (s.modFch f).live.lpe = s.live.lpe := rfl

@[simp] theorem State.modFch_lgc (s : State) (f : Fch → Fch) : (s.modFch f).live.lgc = s.live.lgc := rfl

@[simp] theorem State.modFch_fch (s : State) (f : Fch → Fch) : (s.modFch f).live.fch = f s.live.fch := rfl

@[simp] theorem State.modFch_fan (s : State) (f : Fch → Fch) : (s.modFch f).live.fan = s.live.fan := rfl

@[simp] theorem State.modFch_nrg (s : State) (f : Fch → Fch) : (s.modFch f).live.nrg = s.live.nrg := rfl

@[simp] theorem State.modFch_par (s : State) (f : Fch → Fch) : (s.modFch f).live.par = s.live.par := rfl

@[simp] theorem State.modFch_eth (s : State) (f : Fch → Fch) : (s.modFch f).live.eth = s.live.eth := rfl

@[simp] theorem State.modFch_ptp (s : State) (f : Fch → Fch) : (s.modFch f).live.ptp = s.live.ptp := rfl

@[simp] theorem State.modFch_can (s : State) (f : Fch → Fch) : (s.modFch f).live.can = s.live.can := rfl

@[simp] theorem State.modFch_clk (s : State) (f : Fch → Fch) : (s.modFch f).live.clk = s.live.clk := rfl

@[simp] theorem State.modFch_sec (s : State) (f : Fch → Fch) : (s.modFch f).live.sec = s.live.sec := rfl

@[simp] theorem State.modFch_pwr (s : State) (f : Fch → Fch) : (s.modFch f).live.pwr = s.live.pwr := rfl

@[simp] theorem State.modFch_upd (s : State) (f : Fch → Fch) : (s.modFch f).live.upd = s.live.upd := rfl

@[simp] theorem State.modFch_mgt (s : State) (f : Fch → Fch) : (s.modFch f).live.mgt = s.live.mgt := rfl

@[simp] theorem State.modFch_pending (s : State) (f : Fch → Fch) : (s.modFch f).pending = s.pending := rfl

@[simp] theorem State.modFch_out (s : State) (f : Fch → Fch) : (s.modFch f).out = s.out := rfl

@[simp] theorem State.modFch_now (s : State) (f : Fch → Fch) : (s.modFch f).now = s.now := rfl

@[simp] theorem State.modFch_freeCtr (s : State) (f : Fch → Fch) : (s.modFch f).freeCtr = s.freeCtr := rfl

@[simp] theorem State.modFch_pub (s : State) (f : Fch → Fch) : (s.modFch f).pub = s.pub := rfl

@[simp] theorem State.modFch_prep (s : State) (f : Fch → Fch) : (s.modFch f).prep = s.prep := rfl

@[simp] theorem State.modFch_prev (s : State) (f : Fch → Fch) : (s.modFch f).prev = s.prev := rfl

@[simp] theorem State.modFch_txns (s : State) (f : Fch → Fch) : (s.modFch f).txns = s.txns := rfl

@[simp] theorem State.modFch_nextTxn (s : State) (f : Fch → Fch) : (s.modFch f).nextTxn = s.nextTxn := rfl

@[simp] theorem State.modFch_staged (s : State) (f : Fch → Fch) : (s.modFch f).staged = s.staged := rfl

@[simp] theorem State.modFan_sys (s : State) (f : Fan → Fan) : (s.modFan f).live.sys = s.live.sys := rfl

@[simp] theorem State.modFan_epc (s : State) (f : Fan → Fan) : (s.modFan f).live.epc = s.live.epc := rfl

@[simp] theorem State.modFan_cst (s : State) (f : Fan → Fan) : (s.modFan f).live.cst = s.live.cst := rfl

@[simp] theorem State.modFan_asm (s : State) (f : Fan → Fan) : (s.modFan f).live.asm = s.live.asm := rfl

@[simp] theorem State.modFan_slv (s : State) (f : Fan → Fan) : (s.modFan f).live.slv = s.live.slv := rfl

@[simp] theorem State.modFan_pln (s : State) (f : Fan → Fan) : (s.modFan f).live.pln = s.live.pln := rfl

@[simp] theorem State.modFan_lpe (s : State) (f : Fan → Fan) : (s.modFan f).live.lpe = s.live.lpe := rfl

@[simp] theorem State.modFan_lgc (s : State) (f : Fan → Fan) : (s.modFan f).live.lgc = s.live.lgc := rfl

@[simp] theorem State.modFan_fch (s : State) (f : Fan → Fan) : (s.modFan f).live.fch = s.live.fch := rfl

@[simp] theorem State.modFan_fan (s : State) (f : Fan → Fan) : (s.modFan f).live.fan = f s.live.fan := rfl

@[simp] theorem State.modFan_nrg (s : State) (f : Fan → Fan) : (s.modFan f).live.nrg = s.live.nrg := rfl

@[simp] theorem State.modFan_par (s : State) (f : Fan → Fan) : (s.modFan f).live.par = s.live.par := rfl

@[simp] theorem State.modFan_eth (s : State) (f : Fan → Fan) : (s.modFan f).live.eth = s.live.eth := rfl

@[simp] theorem State.modFan_ptp (s : State) (f : Fan → Fan) : (s.modFan f).live.ptp = s.live.ptp := rfl

@[simp] theorem State.modFan_can (s : State) (f : Fan → Fan) : (s.modFan f).live.can = s.live.can := rfl

@[simp] theorem State.modFan_clk (s : State) (f : Fan → Fan) : (s.modFan f).live.clk = s.live.clk := rfl

@[simp] theorem State.modFan_sec (s : State) (f : Fan → Fan) : (s.modFan f).live.sec = s.live.sec := rfl

@[simp] theorem State.modFan_pwr (s : State) (f : Fan → Fan) : (s.modFan f).live.pwr = s.live.pwr := rfl

@[simp] theorem State.modFan_upd (s : State) (f : Fan → Fan) : (s.modFan f).live.upd = s.live.upd := rfl

@[simp] theorem State.modFan_mgt (s : State) (f : Fan → Fan) : (s.modFan f).live.mgt = s.live.mgt := rfl

@[simp] theorem State.modFan_pending (s : State) (f : Fan → Fan) : (s.modFan f).pending = s.pending := rfl

@[simp] theorem State.modFan_out (s : State) (f : Fan → Fan) : (s.modFan f).out = s.out := rfl

@[simp] theorem State.modFan_now (s : State) (f : Fan → Fan) : (s.modFan f).now = s.now := rfl

@[simp] theorem State.modFan_freeCtr (s : State) (f : Fan → Fan) : (s.modFan f).freeCtr = s.freeCtr := rfl

@[simp] theorem State.modFan_pub (s : State) (f : Fan → Fan) : (s.modFan f).pub = s.pub := rfl

@[simp] theorem State.modFan_prep (s : State) (f : Fan → Fan) : (s.modFan f).prep = s.prep := rfl

@[simp] theorem State.modFan_prev (s : State) (f : Fan → Fan) : (s.modFan f).prev = s.prev := rfl

@[simp] theorem State.modFan_txns (s : State) (f : Fan → Fan) : (s.modFan f).txns = s.txns := rfl

@[simp] theorem State.modFan_nextTxn (s : State) (f : Fan → Fan) : (s.modFan f).nextTxn = s.nextTxn := rfl

@[simp] theorem State.modFan_staged (s : State) (f : Fan → Fan) : (s.modFan f).staged = s.staged := rfl

@[simp] theorem State.modNrg_sys (s : State) (f : Nrg → Nrg) : (s.modNrg f).live.sys = s.live.sys := rfl

@[simp] theorem State.modNrg_epc (s : State) (f : Nrg → Nrg) : (s.modNrg f).live.epc = s.live.epc := rfl

@[simp] theorem State.modNrg_cst (s : State) (f : Nrg → Nrg) : (s.modNrg f).live.cst = s.live.cst := rfl

@[simp] theorem State.modNrg_asm (s : State) (f : Nrg → Nrg) : (s.modNrg f).live.asm = s.live.asm := rfl

@[simp] theorem State.modNrg_slv (s : State) (f : Nrg → Nrg) : (s.modNrg f).live.slv = s.live.slv := rfl

@[simp] theorem State.modNrg_pln (s : State) (f : Nrg → Nrg) : (s.modNrg f).live.pln = s.live.pln := rfl

@[simp] theorem State.modNrg_lpe (s : State) (f : Nrg → Nrg) : (s.modNrg f).live.lpe = s.live.lpe := rfl

@[simp] theorem State.modNrg_lgc (s : State) (f : Nrg → Nrg) : (s.modNrg f).live.lgc = s.live.lgc := rfl

@[simp] theorem State.modNrg_fch (s : State) (f : Nrg → Nrg) : (s.modNrg f).live.fch = s.live.fch := rfl

@[simp] theorem State.modNrg_fan (s : State) (f : Nrg → Nrg) : (s.modNrg f).live.fan = s.live.fan := rfl

@[simp] theorem State.modNrg_nrg (s : State) (f : Nrg → Nrg) : (s.modNrg f).live.nrg = f s.live.nrg := rfl

@[simp] theorem State.modNrg_par (s : State) (f : Nrg → Nrg) : (s.modNrg f).live.par = s.live.par := rfl

@[simp] theorem State.modNrg_eth (s : State) (f : Nrg → Nrg) : (s.modNrg f).live.eth = s.live.eth := rfl

@[simp] theorem State.modNrg_ptp (s : State) (f : Nrg → Nrg) : (s.modNrg f).live.ptp = s.live.ptp := rfl

@[simp] theorem State.modNrg_can (s : State) (f : Nrg → Nrg) : (s.modNrg f).live.can = s.live.can := rfl

@[simp] theorem State.modNrg_clk (s : State) (f : Nrg → Nrg) : (s.modNrg f).live.clk = s.live.clk := rfl

@[simp] theorem State.modNrg_sec (s : State) (f : Nrg → Nrg) : (s.modNrg f).live.sec = s.live.sec := rfl

@[simp] theorem State.modNrg_pwr (s : State) (f : Nrg → Nrg) : (s.modNrg f).live.pwr = s.live.pwr := rfl

@[simp] theorem State.modNrg_upd (s : State) (f : Nrg → Nrg) : (s.modNrg f).live.upd = s.live.upd := rfl

@[simp] theorem State.modNrg_mgt (s : State) (f : Nrg → Nrg) : (s.modNrg f).live.mgt = s.live.mgt := rfl

@[simp] theorem State.modNrg_pending (s : State) (f : Nrg → Nrg) : (s.modNrg f).pending = s.pending := rfl

@[simp] theorem State.modNrg_out (s : State) (f : Nrg → Nrg) : (s.modNrg f).out = s.out := rfl

@[simp] theorem State.modNrg_now (s : State) (f : Nrg → Nrg) : (s.modNrg f).now = s.now := rfl

@[simp] theorem State.modNrg_freeCtr (s : State) (f : Nrg → Nrg) : (s.modNrg f).freeCtr = s.freeCtr := rfl

@[simp] theorem State.modNrg_pub (s : State) (f : Nrg → Nrg) : (s.modNrg f).pub = s.pub := rfl

@[simp] theorem State.modNrg_prep (s : State) (f : Nrg → Nrg) : (s.modNrg f).prep = s.prep := rfl

@[simp] theorem State.modNrg_prev (s : State) (f : Nrg → Nrg) : (s.modNrg f).prev = s.prev := rfl

@[simp] theorem State.modNrg_txns (s : State) (f : Nrg → Nrg) : (s.modNrg f).txns = s.txns := rfl

@[simp] theorem State.modNrg_nextTxn (s : State) (f : Nrg → Nrg) : (s.modNrg f).nextTxn = s.nextTxn := rfl

@[simp] theorem State.modNrg_staged (s : State) (f : Nrg → Nrg) : (s.modNrg f).staged = s.staged := rfl

@[simp] theorem State.modPar_sys (s : State) (f : Par → Par) : (s.modPar f).live.sys = s.live.sys := rfl

@[simp] theorem State.modPar_epc (s : State) (f : Par → Par) : (s.modPar f).live.epc = s.live.epc := rfl

@[simp] theorem State.modPar_cst (s : State) (f : Par → Par) : (s.modPar f).live.cst = s.live.cst := rfl

@[simp] theorem State.modPar_asm (s : State) (f : Par → Par) : (s.modPar f).live.asm = s.live.asm := rfl

@[simp] theorem State.modPar_slv (s : State) (f : Par → Par) : (s.modPar f).live.slv = s.live.slv := rfl

@[simp] theorem State.modPar_pln (s : State) (f : Par → Par) : (s.modPar f).live.pln = s.live.pln := rfl

@[simp] theorem State.modPar_lpe (s : State) (f : Par → Par) : (s.modPar f).live.lpe = s.live.lpe := rfl

@[simp] theorem State.modPar_lgc (s : State) (f : Par → Par) : (s.modPar f).live.lgc = s.live.lgc := rfl

@[simp] theorem State.modPar_fch (s : State) (f : Par → Par) : (s.modPar f).live.fch = s.live.fch := rfl

@[simp] theorem State.modPar_fan (s : State) (f : Par → Par) : (s.modPar f).live.fan = s.live.fan := rfl

@[simp] theorem State.modPar_nrg (s : State) (f : Par → Par) : (s.modPar f).live.nrg = s.live.nrg := rfl

@[simp] theorem State.modPar_par (s : State) (f : Par → Par) : (s.modPar f).live.par = f s.live.par := rfl

@[simp] theorem State.modPar_eth (s : State) (f : Par → Par) : (s.modPar f).live.eth = s.live.eth := rfl

@[simp] theorem State.modPar_ptp (s : State) (f : Par → Par) : (s.modPar f).live.ptp = s.live.ptp := rfl

@[simp] theorem State.modPar_can (s : State) (f : Par → Par) : (s.modPar f).live.can = s.live.can := rfl

@[simp] theorem State.modPar_clk (s : State) (f : Par → Par) : (s.modPar f).live.clk = s.live.clk := rfl

@[simp] theorem State.modPar_sec (s : State) (f : Par → Par) : (s.modPar f).live.sec = s.live.sec := rfl

@[simp] theorem State.modPar_pwr (s : State) (f : Par → Par) : (s.modPar f).live.pwr = s.live.pwr := rfl

@[simp] theorem State.modPar_upd (s : State) (f : Par → Par) : (s.modPar f).live.upd = s.live.upd := rfl

@[simp] theorem State.modPar_mgt (s : State) (f : Par → Par) : (s.modPar f).live.mgt = s.live.mgt := rfl

@[simp] theorem State.modPar_pending (s : State) (f : Par → Par) : (s.modPar f).pending = s.pending := rfl

@[simp] theorem State.modPar_out (s : State) (f : Par → Par) : (s.modPar f).out = s.out := rfl

@[simp] theorem State.modPar_now (s : State) (f : Par → Par) : (s.modPar f).now = s.now := rfl

@[simp] theorem State.modPar_freeCtr (s : State) (f : Par → Par) : (s.modPar f).freeCtr = s.freeCtr := rfl

@[simp] theorem State.modPar_pub (s : State) (f : Par → Par) : (s.modPar f).pub = s.pub := rfl

@[simp] theorem State.modPar_prep (s : State) (f : Par → Par) : (s.modPar f).prep = s.prep := rfl

@[simp] theorem State.modPar_prev (s : State) (f : Par → Par) : (s.modPar f).prev = s.prev := rfl

@[simp] theorem State.modPar_txns (s : State) (f : Par → Par) : (s.modPar f).txns = s.txns := rfl

@[simp] theorem State.modPar_nextTxn (s : State) (f : Par → Par) : (s.modPar f).nextTxn = s.nextTxn := rfl

@[simp] theorem State.modPar_staged (s : State) (f : Par → Par) : (s.modPar f).staged = s.staged := rfl

@[simp] theorem State.modEth_sys (s : State) (f : Eth → Eth) : (s.modEth f).live.sys = s.live.sys := rfl

@[simp] theorem State.modEth_epc (s : State) (f : Eth → Eth) : (s.modEth f).live.epc = s.live.epc := rfl

@[simp] theorem State.modEth_cst (s : State) (f : Eth → Eth) : (s.modEth f).live.cst = s.live.cst := rfl

@[simp] theorem State.modEth_asm (s : State) (f : Eth → Eth) : (s.modEth f).live.asm = s.live.asm := rfl

@[simp] theorem State.modEth_slv (s : State) (f : Eth → Eth) : (s.modEth f).live.slv = s.live.slv := rfl

@[simp] theorem State.modEth_pln (s : State) (f : Eth → Eth) : (s.modEth f).live.pln = s.live.pln := rfl

@[simp] theorem State.modEth_lpe (s : State) (f : Eth → Eth) : (s.modEth f).live.lpe = s.live.lpe := rfl

@[simp] theorem State.modEth_lgc (s : State) (f : Eth → Eth) : (s.modEth f).live.lgc = s.live.lgc := rfl

@[simp] theorem State.modEth_fch (s : State) (f : Eth → Eth) : (s.modEth f).live.fch = s.live.fch := rfl

@[simp] theorem State.modEth_fan (s : State) (f : Eth → Eth) : (s.modEth f).live.fan = s.live.fan := rfl

@[simp] theorem State.modEth_nrg (s : State) (f : Eth → Eth) : (s.modEth f).live.nrg = s.live.nrg := rfl

@[simp] theorem State.modEth_par (s : State) (f : Eth → Eth) : (s.modEth f).live.par = s.live.par := rfl

@[simp] theorem State.modEth_eth (s : State) (f : Eth → Eth) : (s.modEth f).live.eth = f s.live.eth := rfl

@[simp] theorem State.modEth_ptp (s : State) (f : Eth → Eth) : (s.modEth f).live.ptp = s.live.ptp := rfl

@[simp] theorem State.modEth_can (s : State) (f : Eth → Eth) : (s.modEth f).live.can = s.live.can := rfl

@[simp] theorem State.modEth_clk (s : State) (f : Eth → Eth) : (s.modEth f).live.clk = s.live.clk := rfl

@[simp] theorem State.modEth_sec (s : State) (f : Eth → Eth) : (s.modEth f).live.sec = s.live.sec := rfl

@[simp] theorem State.modEth_pwr (s : State) (f : Eth → Eth) : (s.modEth f).live.pwr = s.live.pwr := rfl

@[simp] theorem State.modEth_upd (s : State) (f : Eth → Eth) : (s.modEth f).live.upd = s.live.upd := rfl

@[simp] theorem State.modEth_mgt (s : State) (f : Eth → Eth) : (s.modEth f).live.mgt = s.live.mgt := rfl

@[simp] theorem State.modEth_pending (s : State) (f : Eth → Eth) : (s.modEth f).pending = s.pending := rfl

@[simp] theorem State.modEth_out (s : State) (f : Eth → Eth) : (s.modEth f).out = s.out := rfl

@[simp] theorem State.modEth_now (s : State) (f : Eth → Eth) : (s.modEth f).now = s.now := rfl

@[simp] theorem State.modEth_freeCtr (s : State) (f : Eth → Eth) : (s.modEth f).freeCtr = s.freeCtr := rfl

@[simp] theorem State.modEth_pub (s : State) (f : Eth → Eth) : (s.modEth f).pub = s.pub := rfl

@[simp] theorem State.modEth_prep (s : State) (f : Eth → Eth) : (s.modEth f).prep = s.prep := rfl

@[simp] theorem State.modEth_prev (s : State) (f : Eth → Eth) : (s.modEth f).prev = s.prev := rfl

@[simp] theorem State.modEth_txns (s : State) (f : Eth → Eth) : (s.modEth f).txns = s.txns := rfl

@[simp] theorem State.modEth_nextTxn (s : State) (f : Eth → Eth) : (s.modEth f).nextTxn = s.nextTxn := rfl

@[simp] theorem State.modEth_staged (s : State) (f : Eth → Eth) : (s.modEth f).staged = s.staged := rfl

@[simp] theorem State.modPtp_sys (s : State) (f : Ptp → Ptp) : (s.modPtp f).live.sys = s.live.sys := rfl

@[simp] theorem State.modPtp_epc (s : State) (f : Ptp → Ptp) : (s.modPtp f).live.epc = s.live.epc := rfl

@[simp] theorem State.modPtp_cst (s : State) (f : Ptp → Ptp) : (s.modPtp f).live.cst = s.live.cst := rfl

@[simp] theorem State.modPtp_asm (s : State) (f : Ptp → Ptp) : (s.modPtp f).live.asm = s.live.asm := rfl

@[simp] theorem State.modPtp_slv (s : State) (f : Ptp → Ptp) : (s.modPtp f).live.slv = s.live.slv := rfl

@[simp] theorem State.modPtp_pln (s : State) (f : Ptp → Ptp) : (s.modPtp f).live.pln = s.live.pln := rfl

@[simp] theorem State.modPtp_lpe (s : State) (f : Ptp → Ptp) : (s.modPtp f).live.lpe = s.live.lpe := rfl

@[simp] theorem State.modPtp_lgc (s : State) (f : Ptp → Ptp) : (s.modPtp f).live.lgc = s.live.lgc := rfl

@[simp] theorem State.modPtp_fch (s : State) (f : Ptp → Ptp) : (s.modPtp f).live.fch = s.live.fch := rfl

@[simp] theorem State.modPtp_fan (s : State) (f : Ptp → Ptp) : (s.modPtp f).live.fan = s.live.fan := rfl

@[simp] theorem State.modPtp_nrg (s : State) (f : Ptp → Ptp) : (s.modPtp f).live.nrg = s.live.nrg := rfl

@[simp] theorem State.modPtp_par (s : State) (f : Ptp → Ptp) : (s.modPtp f).live.par = s.live.par := rfl

@[simp] theorem State.modPtp_eth (s : State) (f : Ptp → Ptp) : (s.modPtp f).live.eth = s.live.eth := rfl

@[simp] theorem State.modPtp_ptp (s : State) (f : Ptp → Ptp) : (s.modPtp f).live.ptp = f s.live.ptp := rfl

@[simp] theorem State.modPtp_can (s : State) (f : Ptp → Ptp) : (s.modPtp f).live.can = s.live.can := rfl

@[simp] theorem State.modPtp_clk (s : State) (f : Ptp → Ptp) : (s.modPtp f).live.clk = s.live.clk := rfl

@[simp] theorem State.modPtp_sec (s : State) (f : Ptp → Ptp) : (s.modPtp f).live.sec = s.live.sec := rfl

@[simp] theorem State.modPtp_pwr (s : State) (f : Ptp → Ptp) : (s.modPtp f).live.pwr = s.live.pwr := rfl

@[simp] theorem State.modPtp_upd (s : State) (f : Ptp → Ptp) : (s.modPtp f).live.upd = s.live.upd := rfl

@[simp] theorem State.modPtp_mgt (s : State) (f : Ptp → Ptp) : (s.modPtp f).live.mgt = s.live.mgt := rfl

@[simp] theorem State.modPtp_pending (s : State) (f : Ptp → Ptp) : (s.modPtp f).pending = s.pending := rfl

@[simp] theorem State.modPtp_out (s : State) (f : Ptp → Ptp) : (s.modPtp f).out = s.out := rfl

@[simp] theorem State.modPtp_now (s : State) (f : Ptp → Ptp) : (s.modPtp f).now = s.now := rfl

@[simp] theorem State.modPtp_freeCtr (s : State) (f : Ptp → Ptp) : (s.modPtp f).freeCtr = s.freeCtr := rfl

@[simp] theorem State.modPtp_pub (s : State) (f : Ptp → Ptp) : (s.modPtp f).pub = s.pub := rfl

@[simp] theorem State.modPtp_prep (s : State) (f : Ptp → Ptp) : (s.modPtp f).prep = s.prep := rfl

@[simp] theorem State.modPtp_prev (s : State) (f : Ptp → Ptp) : (s.modPtp f).prev = s.prev := rfl

@[simp] theorem State.modPtp_txns (s : State) (f : Ptp → Ptp) : (s.modPtp f).txns = s.txns := rfl

@[simp] theorem State.modPtp_nextTxn (s : State) (f : Ptp → Ptp) : (s.modPtp f).nextTxn = s.nextTxn := rfl

@[simp] theorem State.modPtp_staged (s : State) (f : Ptp → Ptp) : (s.modPtp f).staged = s.staged := rfl

@[simp] theorem State.modCan_sys (s : State) (f : Can → Can) : (s.modCan f).live.sys = s.live.sys := rfl

@[simp] theorem State.modCan_epc (s : State) (f : Can → Can) : (s.modCan f).live.epc = s.live.epc := rfl

@[simp] theorem State.modCan_cst (s : State) (f : Can → Can) : (s.modCan f).live.cst = s.live.cst := rfl

@[simp] theorem State.modCan_asm (s : State) (f : Can → Can) : (s.modCan f).live.asm = s.live.asm := rfl

@[simp] theorem State.modCan_slv (s : State) (f : Can → Can) : (s.modCan f).live.slv = s.live.slv := rfl

@[simp] theorem State.modCan_pln (s : State) (f : Can → Can) : (s.modCan f).live.pln = s.live.pln := rfl

@[simp] theorem State.modCan_lpe (s : State) (f : Can → Can) : (s.modCan f).live.lpe = s.live.lpe := rfl

@[simp] theorem State.modCan_lgc (s : State) (f : Can → Can) : (s.modCan f).live.lgc = s.live.lgc := rfl

@[simp] theorem State.modCan_fch (s : State) (f : Can → Can) : (s.modCan f).live.fch = s.live.fch := rfl

@[simp] theorem State.modCan_fan (s : State) (f : Can → Can) : (s.modCan f).live.fan = s.live.fan := rfl

@[simp] theorem State.modCan_nrg (s : State) (f : Can → Can) : (s.modCan f).live.nrg = s.live.nrg := rfl

@[simp] theorem State.modCan_par (s : State) (f : Can → Can) : (s.modCan f).live.par = s.live.par := rfl

@[simp] theorem State.modCan_eth (s : State) (f : Can → Can) : (s.modCan f).live.eth = s.live.eth := rfl

@[simp] theorem State.modCan_ptp (s : State) (f : Can → Can) : (s.modCan f).live.ptp = s.live.ptp := rfl

@[simp] theorem State.modCan_can (s : State) (f : Can → Can) : (s.modCan f).live.can = f s.live.can := rfl

@[simp] theorem State.modCan_clk (s : State) (f : Can → Can) : (s.modCan f).live.clk = s.live.clk := rfl

@[simp] theorem State.modCan_sec (s : State) (f : Can → Can) : (s.modCan f).live.sec = s.live.sec := rfl

@[simp] theorem State.modCan_pwr (s : State) (f : Can → Can) : (s.modCan f).live.pwr = s.live.pwr := rfl

@[simp] theorem State.modCan_upd (s : State) (f : Can → Can) : (s.modCan f).live.upd = s.live.upd := rfl

@[simp] theorem State.modCan_mgt (s : State) (f : Can → Can) : (s.modCan f).live.mgt = s.live.mgt := rfl

@[simp] theorem State.modCan_pending (s : State) (f : Can → Can) : (s.modCan f).pending = s.pending := rfl

@[simp] theorem State.modCan_out (s : State) (f : Can → Can) : (s.modCan f).out = s.out := rfl

@[simp] theorem State.modCan_now (s : State) (f : Can → Can) : (s.modCan f).now = s.now := rfl

@[simp] theorem State.modCan_freeCtr (s : State) (f : Can → Can) : (s.modCan f).freeCtr = s.freeCtr := rfl

@[simp] theorem State.modCan_pub (s : State) (f : Can → Can) : (s.modCan f).pub = s.pub := rfl

@[simp] theorem State.modCan_prep (s : State) (f : Can → Can) : (s.modCan f).prep = s.prep := rfl

@[simp] theorem State.modCan_prev (s : State) (f : Can → Can) : (s.modCan f).prev = s.prev := rfl

@[simp] theorem State.modCan_txns (s : State) (f : Can → Can) : (s.modCan f).txns = s.txns := rfl

@[simp] theorem State.modCan_nextTxn (s : State) (f : Can → Can) : (s.modCan f).nextTxn = s.nextTxn := rfl

@[simp] theorem State.modCan_staged (s : State) (f : Can → Can) : (s.modCan f).staged = s.staged := rfl

@[simp] theorem State.modClk_sys (s : State) (f : Clk → Clk) : (s.modClk f).live.sys = s.live.sys := rfl

@[simp] theorem State.modClk_epc (s : State) (f : Clk → Clk) : (s.modClk f).live.epc = s.live.epc := rfl

@[simp] theorem State.modClk_cst (s : State) (f : Clk → Clk) : (s.modClk f).live.cst = s.live.cst := rfl

@[simp] theorem State.modClk_asm (s : State) (f : Clk → Clk) : (s.modClk f).live.asm = s.live.asm := rfl

@[simp] theorem State.modClk_slv (s : State) (f : Clk → Clk) : (s.modClk f).live.slv = s.live.slv := rfl

@[simp] theorem State.modClk_pln (s : State) (f : Clk → Clk) : (s.modClk f).live.pln = s.live.pln := rfl

@[simp] theorem State.modClk_lpe (s : State) (f : Clk → Clk) : (s.modClk f).live.lpe = s.live.lpe := rfl

@[simp] theorem State.modClk_lgc (s : State) (f : Clk → Clk) : (s.modClk f).live.lgc = s.live.lgc := rfl

@[simp] theorem State.modClk_fch (s : State) (f : Clk → Clk) : (s.modClk f).live.fch = s.live.fch := rfl

@[simp] theorem State.modClk_fan (s : State) (f : Clk → Clk) : (s.modClk f).live.fan = s.live.fan := rfl

@[simp] theorem State.modClk_nrg (s : State) (f : Clk → Clk) : (s.modClk f).live.nrg = s.live.nrg := rfl

@[simp] theorem State.modClk_par (s : State) (f : Clk → Clk) : (s.modClk f).live.par = s.live.par := rfl

@[simp] theorem State.modClk_eth (s : State) (f : Clk → Clk) : (s.modClk f).live.eth = s.live.eth := rfl

@[simp] theorem State.modClk_ptp (s : State) (f : Clk → Clk) : (s.modClk f).live.ptp = s.live.ptp := rfl

@[simp] theorem State.modClk_can (s : State) (f : Clk → Clk) : (s.modClk f).live.can = s.live.can := rfl

@[simp] theorem State.modClk_clk (s : State) (f : Clk → Clk) : (s.modClk f).live.clk = f s.live.clk := rfl

@[simp] theorem State.modClk_sec (s : State) (f : Clk → Clk) : (s.modClk f).live.sec = s.live.sec := rfl

@[simp] theorem State.modClk_pwr (s : State) (f : Clk → Clk) : (s.modClk f).live.pwr = s.live.pwr := rfl

@[simp] theorem State.modClk_upd (s : State) (f : Clk → Clk) : (s.modClk f).live.upd = s.live.upd := rfl

@[simp] theorem State.modClk_mgt (s : State) (f : Clk → Clk) : (s.modClk f).live.mgt = s.live.mgt := rfl

@[simp] theorem State.modClk_pending (s : State) (f : Clk → Clk) : (s.modClk f).pending = s.pending := rfl

@[simp] theorem State.modClk_out (s : State) (f : Clk → Clk) : (s.modClk f).out = s.out := rfl

@[simp] theorem State.modClk_now (s : State) (f : Clk → Clk) : (s.modClk f).now = s.now := rfl

@[simp] theorem State.modClk_freeCtr (s : State) (f : Clk → Clk) : (s.modClk f).freeCtr = s.freeCtr := rfl

@[simp] theorem State.modClk_pub (s : State) (f : Clk → Clk) : (s.modClk f).pub = s.pub := rfl

@[simp] theorem State.modClk_prep (s : State) (f : Clk → Clk) : (s.modClk f).prep = s.prep := rfl

@[simp] theorem State.modClk_prev (s : State) (f : Clk → Clk) : (s.modClk f).prev = s.prev := rfl

@[simp] theorem State.modClk_txns (s : State) (f : Clk → Clk) : (s.modClk f).txns = s.txns := rfl

@[simp] theorem State.modClk_nextTxn (s : State) (f : Clk → Clk) : (s.modClk f).nextTxn = s.nextTxn := rfl

@[simp] theorem State.modClk_staged (s : State) (f : Clk → Clk) : (s.modClk f).staged = s.staged := rfl

@[simp] theorem State.modSec_sys (s : State) (f : Sec → Sec) : (s.modSec f).live.sys = s.live.sys := rfl

@[simp] theorem State.modSec_epc (s : State) (f : Sec → Sec) : (s.modSec f).live.epc = s.live.epc := rfl

@[simp] theorem State.modSec_cst (s : State) (f : Sec → Sec) : (s.modSec f).live.cst = s.live.cst := rfl

@[simp] theorem State.modSec_asm (s : State) (f : Sec → Sec) : (s.modSec f).live.asm = s.live.asm := rfl

@[simp] theorem State.modSec_slv (s : State) (f : Sec → Sec) : (s.modSec f).live.slv = s.live.slv := rfl

@[simp] theorem State.modSec_pln (s : State) (f : Sec → Sec) : (s.modSec f).live.pln = s.live.pln := rfl

@[simp] theorem State.modSec_lpe (s : State) (f : Sec → Sec) : (s.modSec f).live.lpe = s.live.lpe := rfl

@[simp] theorem State.modSec_lgc (s : State) (f : Sec → Sec) : (s.modSec f).live.lgc = s.live.lgc := rfl

@[simp] theorem State.modSec_fch (s : State) (f : Sec → Sec) : (s.modSec f).live.fch = s.live.fch := rfl

@[simp] theorem State.modSec_fan (s : State) (f : Sec → Sec) : (s.modSec f).live.fan = s.live.fan := rfl

@[simp] theorem State.modSec_nrg (s : State) (f : Sec → Sec) : (s.modSec f).live.nrg = s.live.nrg := rfl

@[simp] theorem State.modSec_par (s : State) (f : Sec → Sec) : (s.modSec f).live.par = s.live.par := rfl

@[simp] theorem State.modSec_eth (s : State) (f : Sec → Sec) : (s.modSec f).live.eth = s.live.eth := rfl

@[simp] theorem State.modSec_ptp (s : State) (f : Sec → Sec) : (s.modSec f).live.ptp = s.live.ptp := rfl

@[simp] theorem State.modSec_can (s : State) (f : Sec → Sec) : (s.modSec f).live.can = s.live.can := rfl

@[simp] theorem State.modSec_clk (s : State) (f : Sec → Sec) : (s.modSec f).live.clk = s.live.clk := rfl

@[simp] theorem State.modSec_sec (s : State) (f : Sec → Sec) : (s.modSec f).live.sec = f s.live.sec := rfl

@[simp] theorem State.modSec_pwr (s : State) (f : Sec → Sec) : (s.modSec f).live.pwr = s.live.pwr := rfl

@[simp] theorem State.modSec_upd (s : State) (f : Sec → Sec) : (s.modSec f).live.upd = s.live.upd := rfl

@[simp] theorem State.modSec_mgt (s : State) (f : Sec → Sec) : (s.modSec f).live.mgt = s.live.mgt := rfl

@[simp] theorem State.modSec_pending (s : State) (f : Sec → Sec) : (s.modSec f).pending = s.pending := rfl

@[simp] theorem State.modSec_out (s : State) (f : Sec → Sec) : (s.modSec f).out = s.out := rfl

@[simp] theorem State.modSec_now (s : State) (f : Sec → Sec) : (s.modSec f).now = s.now := rfl

@[simp] theorem State.modSec_freeCtr (s : State) (f : Sec → Sec) : (s.modSec f).freeCtr = s.freeCtr := rfl

@[simp] theorem State.modSec_pub (s : State) (f : Sec → Sec) : (s.modSec f).pub = s.pub := rfl

@[simp] theorem State.modSec_prep (s : State) (f : Sec → Sec) : (s.modSec f).prep = s.prep := rfl

@[simp] theorem State.modSec_prev (s : State) (f : Sec → Sec) : (s.modSec f).prev = s.prev := rfl

@[simp] theorem State.modSec_txns (s : State) (f : Sec → Sec) : (s.modSec f).txns = s.txns := rfl

@[simp] theorem State.modSec_nextTxn (s : State) (f : Sec → Sec) : (s.modSec f).nextTxn = s.nextTxn := rfl

@[simp] theorem State.modSec_staged (s : State) (f : Sec → Sec) : (s.modSec f).staged = s.staged := rfl

@[simp] theorem State.modPwr_sys (s : State) (f : Pwr → Pwr) : (s.modPwr f).live.sys = s.live.sys := rfl

@[simp] theorem State.modPwr_epc (s : State) (f : Pwr → Pwr) : (s.modPwr f).live.epc = s.live.epc := rfl

@[simp] theorem State.modPwr_cst (s : State) (f : Pwr → Pwr) : (s.modPwr f).live.cst = s.live.cst := rfl

@[simp] theorem State.modPwr_asm (s : State) (f : Pwr → Pwr) : (s.modPwr f).live.asm = s.live.asm := rfl

@[simp] theorem State.modPwr_slv (s : State) (f : Pwr → Pwr) : (s.modPwr f).live.slv = s.live.slv := rfl

@[simp] theorem State.modPwr_pln (s : State) (f : Pwr → Pwr) : (s.modPwr f).live.pln = s.live.pln := rfl

@[simp] theorem State.modPwr_lpe (s : State) (f : Pwr → Pwr) : (s.modPwr f).live.lpe = s.live.lpe := rfl

@[simp] theorem State.modPwr_lgc (s : State) (f : Pwr → Pwr) : (s.modPwr f).live.lgc = s.live.lgc := rfl

@[simp] theorem State.modPwr_fch (s : State) (f : Pwr → Pwr) : (s.modPwr f).live.fch = s.live.fch := rfl

@[simp] theorem State.modPwr_fan (s : State) (f : Pwr → Pwr) : (s.modPwr f).live.fan = s.live.fan := rfl

@[simp] theorem State.modPwr_nrg (s : State) (f : Pwr → Pwr) : (s.modPwr f).live.nrg = s.live.nrg := rfl

@[simp] theorem State.modPwr_par (s : State) (f : Pwr → Pwr) : (s.modPwr f).live.par = s.live.par := rfl

@[simp] theorem State.modPwr_eth (s : State) (f : Pwr → Pwr) : (s.modPwr f).live.eth = s.live.eth := rfl

@[simp] theorem State.modPwr_ptp (s : State) (f : Pwr → Pwr) : (s.modPwr f).live.ptp = s.live.ptp := rfl

@[simp] theorem State.modPwr_can (s : State) (f : Pwr → Pwr) : (s.modPwr f).live.can = s.live.can := rfl

@[simp] theorem State.modPwr_clk (s : State) (f : Pwr → Pwr) : (s.modPwr f).live.clk = s.live.clk := rfl

@[simp] theorem State.modPwr_sec (s : State) (f : Pwr → Pwr) : (s.modPwr f).live.sec = s.live.sec := rfl

@[simp] theorem State.modPwr_pwr (s : State) (f : Pwr → Pwr) : (s.modPwr f).live.pwr = f s.live.pwr := rfl

@[simp] theorem State.modPwr_upd (s : State) (f : Pwr → Pwr) : (s.modPwr f).live.upd = s.live.upd := rfl

@[simp] theorem State.modPwr_mgt (s : State) (f : Pwr → Pwr) : (s.modPwr f).live.mgt = s.live.mgt := rfl

@[simp] theorem State.modPwr_pending (s : State) (f : Pwr → Pwr) : (s.modPwr f).pending = s.pending := rfl

@[simp] theorem State.modPwr_out (s : State) (f : Pwr → Pwr) : (s.modPwr f).out = s.out := rfl

@[simp] theorem State.modPwr_now (s : State) (f : Pwr → Pwr) : (s.modPwr f).now = s.now := rfl

@[simp] theorem State.modPwr_freeCtr (s : State) (f : Pwr → Pwr) : (s.modPwr f).freeCtr = s.freeCtr := rfl

@[simp] theorem State.modPwr_pub (s : State) (f : Pwr → Pwr) : (s.modPwr f).pub = s.pub := rfl

@[simp] theorem State.modPwr_prep (s : State) (f : Pwr → Pwr) : (s.modPwr f).prep = s.prep := rfl

@[simp] theorem State.modPwr_prev (s : State) (f : Pwr → Pwr) : (s.modPwr f).prev = s.prev := rfl

@[simp] theorem State.modPwr_txns (s : State) (f : Pwr → Pwr) : (s.modPwr f).txns = s.txns := rfl

@[simp] theorem State.modPwr_nextTxn (s : State) (f : Pwr → Pwr) : (s.modPwr f).nextTxn = s.nextTxn := rfl

@[simp] theorem State.modPwr_staged (s : State) (f : Pwr → Pwr) : (s.modPwr f).staged = s.staged := rfl

@[simp] theorem State.modUpd_sys (s : State) (f : Upd → Upd) : (s.modUpd f).live.sys = s.live.sys := rfl

@[simp] theorem State.modUpd_epc (s : State) (f : Upd → Upd) : (s.modUpd f).live.epc = s.live.epc := rfl

@[simp] theorem State.modUpd_cst (s : State) (f : Upd → Upd) : (s.modUpd f).live.cst = s.live.cst := rfl

@[simp] theorem State.modUpd_asm (s : State) (f : Upd → Upd) : (s.modUpd f).live.asm = s.live.asm := rfl

@[simp] theorem State.modUpd_slv (s : State) (f : Upd → Upd) : (s.modUpd f).live.slv = s.live.slv := rfl

@[simp] theorem State.modUpd_pln (s : State) (f : Upd → Upd) : (s.modUpd f).live.pln = s.live.pln := rfl

@[simp] theorem State.modUpd_lpe (s : State) (f : Upd → Upd) : (s.modUpd f).live.lpe = s.live.lpe := rfl

@[simp] theorem State.modUpd_lgc (s : State) (f : Upd → Upd) : (s.modUpd f).live.lgc = s.live.lgc := rfl

@[simp] theorem State.modUpd_fch (s : State) (f : Upd → Upd) : (s.modUpd f).live.fch = s.live.fch := rfl

@[simp] theorem State.modUpd_fan (s : State) (f : Upd → Upd) : (s.modUpd f).live.fan = s.live.fan := rfl

@[simp] theorem State.modUpd_nrg (s : State) (f : Upd → Upd) : (s.modUpd f).live.nrg = s.live.nrg := rfl

@[simp] theorem State.modUpd_par (s : State) (f : Upd → Upd) : (s.modUpd f).live.par = s.live.par := rfl

@[simp] theorem State.modUpd_eth (s : State) (f : Upd → Upd) : (s.modUpd f).live.eth = s.live.eth := rfl

@[simp] theorem State.modUpd_ptp (s : State) (f : Upd → Upd) : (s.modUpd f).live.ptp = s.live.ptp := rfl

@[simp] theorem State.modUpd_can (s : State) (f : Upd → Upd) : (s.modUpd f).live.can = s.live.can := rfl

@[simp] theorem State.modUpd_clk (s : State) (f : Upd → Upd) : (s.modUpd f).live.clk = s.live.clk := rfl

@[simp] theorem State.modUpd_sec (s : State) (f : Upd → Upd) : (s.modUpd f).live.sec = s.live.sec := rfl

@[simp] theorem State.modUpd_pwr (s : State) (f : Upd → Upd) : (s.modUpd f).live.pwr = s.live.pwr := rfl

@[simp] theorem State.modUpd_upd (s : State) (f : Upd → Upd) : (s.modUpd f).live.upd = f s.live.upd := rfl

@[simp] theorem State.modUpd_mgt (s : State) (f : Upd → Upd) : (s.modUpd f).live.mgt = s.live.mgt := rfl

@[simp] theorem State.modUpd_pending (s : State) (f : Upd → Upd) : (s.modUpd f).pending = s.pending := rfl

@[simp] theorem State.modUpd_out (s : State) (f : Upd → Upd) : (s.modUpd f).out = s.out := rfl

@[simp] theorem State.modUpd_now (s : State) (f : Upd → Upd) : (s.modUpd f).now = s.now := rfl

@[simp] theorem State.modUpd_freeCtr (s : State) (f : Upd → Upd) : (s.modUpd f).freeCtr = s.freeCtr := rfl

@[simp] theorem State.modUpd_pub (s : State) (f : Upd → Upd) : (s.modUpd f).pub = s.pub := rfl

@[simp] theorem State.modUpd_prep (s : State) (f : Upd → Upd) : (s.modUpd f).prep = s.prep := rfl

@[simp] theorem State.modUpd_prev (s : State) (f : Upd → Upd) : (s.modUpd f).prev = s.prev := rfl

@[simp] theorem State.modUpd_txns (s : State) (f : Upd → Upd) : (s.modUpd f).txns = s.txns := rfl

@[simp] theorem State.modUpd_nextTxn (s : State) (f : Upd → Upd) : (s.modUpd f).nextTxn = s.nextTxn := rfl

@[simp] theorem State.modUpd_staged (s : State) (f : Upd → Upd) : (s.modUpd f).staged = s.staged := rfl

@[simp] theorem State.modMgt_sys (s : State) (f : Mgt → Mgt) : (s.modMgt f).live.sys = s.live.sys := rfl

@[simp] theorem State.modMgt_epc (s : State) (f : Mgt → Mgt) : (s.modMgt f).live.epc = s.live.epc := rfl

@[simp] theorem State.modMgt_cst (s : State) (f : Mgt → Mgt) : (s.modMgt f).live.cst = s.live.cst := rfl

@[simp] theorem State.modMgt_asm (s : State) (f : Mgt → Mgt) : (s.modMgt f).live.asm = s.live.asm := rfl

@[simp] theorem State.modMgt_slv (s : State) (f : Mgt → Mgt) : (s.modMgt f).live.slv = s.live.slv := rfl

@[simp] theorem State.modMgt_pln (s : State) (f : Mgt → Mgt) : (s.modMgt f).live.pln = s.live.pln := rfl

@[simp] theorem State.modMgt_lpe (s : State) (f : Mgt → Mgt) : (s.modMgt f).live.lpe = s.live.lpe := rfl

@[simp] theorem State.modMgt_lgc (s : State) (f : Mgt → Mgt) : (s.modMgt f).live.lgc = s.live.lgc := rfl

@[simp] theorem State.modMgt_fch (s : State) (f : Mgt → Mgt) : (s.modMgt f).live.fch = s.live.fch := rfl

@[simp] theorem State.modMgt_fan (s : State) (f : Mgt → Mgt) : (s.modMgt f).live.fan = s.live.fan := rfl

@[simp] theorem State.modMgt_nrg (s : State) (f : Mgt → Mgt) : (s.modMgt f).live.nrg = s.live.nrg := rfl

@[simp] theorem State.modMgt_par (s : State) (f : Mgt → Mgt) : (s.modMgt f).live.par = s.live.par := rfl

@[simp] theorem State.modMgt_eth (s : State) (f : Mgt → Mgt) : (s.modMgt f).live.eth = s.live.eth := rfl

@[simp] theorem State.modMgt_ptp (s : State) (f : Mgt → Mgt) : (s.modMgt f).live.ptp = s.live.ptp := rfl

@[simp] theorem State.modMgt_can (s : State) (f : Mgt → Mgt) : (s.modMgt f).live.can = s.live.can := rfl

@[simp] theorem State.modMgt_clk (s : State) (f : Mgt → Mgt) : (s.modMgt f).live.clk = s.live.clk := rfl

@[simp] theorem State.modMgt_sec (s : State) (f : Mgt → Mgt) : (s.modMgt f).live.sec = s.live.sec := rfl

@[simp] theorem State.modMgt_pwr (s : State) (f : Mgt → Mgt) : (s.modMgt f).live.pwr = s.live.pwr := rfl

@[simp] theorem State.modMgt_upd (s : State) (f : Mgt → Mgt) : (s.modMgt f).live.upd = s.live.upd := rfl

@[simp] theorem State.modMgt_mgt (s : State) (f : Mgt → Mgt) : (s.modMgt f).live.mgt = f s.live.mgt := rfl

@[simp] theorem State.modMgt_pending (s : State) (f : Mgt → Mgt) : (s.modMgt f).pending = s.pending := rfl

@[simp] theorem State.modMgt_out (s : State) (f : Mgt → Mgt) : (s.modMgt f).out = s.out := rfl

@[simp] theorem State.modMgt_now (s : State) (f : Mgt → Mgt) : (s.modMgt f).now = s.now := rfl

@[simp] theorem State.modMgt_freeCtr (s : State) (f : Mgt → Mgt) : (s.modMgt f).freeCtr = s.freeCtr := rfl

@[simp] theorem State.modMgt_pub (s : State) (f : Mgt → Mgt) : (s.modMgt f).pub = s.pub := rfl

@[simp] theorem State.modMgt_prep (s : State) (f : Mgt → Mgt) : (s.modMgt f).prep = s.prep := rfl

@[simp] theorem State.modMgt_prev (s : State) (f : Mgt → Mgt) : (s.modMgt f).prev = s.prev := rfl

@[simp] theorem State.modMgt_txns (s : State) (f : Mgt → Mgt) : (s.modMgt f).txns = s.txns := rfl

@[simp] theorem State.modMgt_nextTxn (s : State) (f : Mgt → Mgt) : (s.modMgt f).nextTxn = s.nextTxn := rfl

@[simp] theorem State.modMgt_staged (s : State) (f : Mgt → Mgt) : (s.modMgt f).staged = s.staged := rfl

end Sys2Proof.Machine
end

