-- ==== Sys2Proof/Laws/ViewBase.lean ====
section
/-! SUPPORT. What an operation leaves unchanged outside the blocks: the queue, the time, the banks, the open transactions, the
external staged writes and the lifecycle. One lemma per operation. -/

namespace Sys2Proof.Machine

@[simp] theorem view_out (s : State) (o : List OutMsg) : State.view { s with out := o } = s.view := rfl
@[simp] theorem view_freeCtr (s : State) (n : Nat) : State.view { s with freeCtr := n } = s.view := rfl
theorem view_live (s : State) (k : Core) (h : k.sec.lifecycle = s.live.sec.lifecycle)
    (h2 : k.epc.epoch = s.live.epc.epoch) (h3 : k.epc.pouring = s.live.epc.pouring) : State.view { s with live := k } = s.view := by
  simp [State.view, h, h2, h3]
@[simp] theorem view_modSec (s : State) (f : Sec → Sec) (h : (f s.live.sec).lifecycle = s.live.sec.lifecycle) : (s.modSec f).view = s.view := by
  simp [State.view, State.modSec, h]
@[simp] theorem view_ite (c : Prop) [Decidable c] (a b : State) : (if c then a else b).view = if c then a.view else b.view := by
  split <;> rfl
theorem view_foldl {α : Type} (f : State → α → State) (h : ∀ s x, (f s x).view = s.view) (l : List α) (s : State) :
    (l.foldl f s).view = s.view := by
  induction l generalizing s with
  | nil => rfl
  | cons x l ih => simp [List.foldl, ih, h]
@[simp] theorem view_modSys (s : State) (f : Sys → Sys) : (s.modSys f).view = s.view := rfl
@[simp] theorem view_modEpc (s : State) (f : Epc → Epc) (h : (f s.live.epc).epoch = s.live.epc.epoch)
    (h2 : (f s.live.epc).pouring = s.live.epc.pouring) : (s.modEpc f).view = s.view := by
  simp [State.view, State.modEpc, h, h2]
@[simp] theorem view_modCst (s : State) (f : Cst → Cst) : (s.modCst f).view = s.view := rfl
@[simp] theorem view_modAsm (s : State) (f : Asm → Asm) : (s.modAsm f).view = s.view := rfl
@[simp] theorem view_modSlv (s : State) (f : Slv → Slv) : (s.modSlv f).view = s.view := rfl
@[simp] theorem view_modPln (s : State) (f : Pln → Pln) : (s.modPln f).view = s.view := rfl
@[simp] theorem view_modLpe (s : State) (f : Lpe → Lpe) : (s.modLpe f).view = s.view := rfl
@[simp] theorem view_modLgc (s : State) (f : Lgc → Lgc) : (s.modLgc f).view = s.view := rfl
@[simp] theorem view_modFch (s : State) (f : Fch → Fch) : (s.modFch f).view = s.view := rfl
@[simp] theorem view_modFan (s : State) (f : Fan → Fan) : (s.modFan f).view = s.view := rfl
@[simp] theorem view_modNrg (s : State) (f : Nrg → Nrg) : (s.modNrg f).view = s.view := rfl
@[simp] theorem view_modPar (s : State) (f : Par → Par) : (s.modPar f).view = s.view := rfl
@[simp] theorem view_modEth (s : State) (f : Eth → Eth) : (s.modEth f).view = s.view := rfl
@[simp] theorem view_modPtp (s : State) (f : Ptp → Ptp) : (s.modPtp f).view = s.view := rfl
@[simp] theorem view_modCan (s : State) (f : Can → Can) : (s.modCan f).view = s.view := rfl
@[simp] theorem view_modClk (s : State) (f : Clk → Clk) : (s.modClk f).view = s.view := rfl
@[simp] theorem view_modPwr (s : State) (f : Pwr → Pwr) : (s.modPwr f).view = s.view := rfl
@[simp] theorem view_modUpd (s : State) (f : Upd → Upd) : (s.modUpd f).view = s.view := rfl
@[simp] theorem view_modMgt (s : State) (f : Mgt → Mgt) : (s.modMgt f).view = s.view := rfl

end Sys2Proof.Machine
end

