-- ==== Sys2Proof/Laws/ViewPlan.lean ====
section
/-! SUPPORT. What operations leave unchanged outside the blocks: planning, the assembler and the solver. -/

namespace Sys2Proof.Machine

@[simp] theorem State.draw_view (s : State) : (State.draw s).2.view = s.view := by
  simp [State.draw]

@[simp] theorem State.random_view (s : State) (w : Nat) : (State.random s w).2.view = s.view := by
  unfold State.random; refine (view_freeCtr _ _).trans ?_; simp

@[simp] theorem State.send_view (s : State) (m : OutMsg) : (State.send s m).view = s.view := by
  simp [State.send]

@[simp] theorem State.journal_view (s : State) (event : Nat) (data : Bytes) (alarm : Bool := false) : (State.journal s event data alarm).view = s.view := by
  simp [State.journal]

@[simp] theorem State.werr_view (s : State) (addr : Nat) (src : Source) (cause : WerrCause) : (State.werr s addr src cause).view = s.view := by
  simp [State.werr]

@[simp] theorem State.enterMode_view (s : State) (m : Mode) : (State.enterMode s m).view = s.view := by
  simp [State.enterMode]

@[simp] theorem State.retire_view (s : State) (p reason : Nat) : (State.retire s p reason).view = s.view := by
  simp only [State.retire]; (repeat' split) <;> simp

@[simp] theorem State.windowEnds_view (s : State) (r : SolveRun) : (State.windowEnds s r).view = s.view := by
  simp [State.windowEnds]

@[simp] theorem State.entrySat_view (s : State) (ev : Bool) : (State.entrySat s ev).view = s.view := by
  simp [State.entrySat]

@[simp] theorem State.requestWindow_view (s : State) : (State.requestWindow s).view = s.view := by
  unfold State.requestWindow; split <;> simp

@[simp] theorem State.shedAborts_view (s : State) (new : List Nat) : (State.shedAborts s new).view = s.view := by
  simp [State.shedAborts]

@[simp] theorem State.endSolve_view (s : State) (code cause : Nat) : (State.endSolve s code cause).view = s.view := by
  unfold State.endSolve; split <;> simp

@[simp] theorem State.startRounds_view (s : State) (r : SolveRun) : (State.startRounds s r).view = s.view := by
  simp [State.startRounds]

@[simp] theorem State.nextPass_view (s : State) (pass : Nat) : (State.nextPass s pass).view = s.view := by
  unfold State.nextPass; split <;> simp

@[simp] theorem State.pivotFailure_view (s : State) (sub : Nat) (init : Bool) : (State.pivotFailure s sub init).view = s.view := by
  simp [State.pivotFailure]

@[simp] theorem State.factEntry_view (s : State) (r : SolveRun) (e : TtEntry) : (State.factEntry s r e).view = s.view := by
  unfold State.factEntry
  split
  · exact view_foldl _ (fun t i => by simp) _ _
  · simp
  · exact view_foldl _ (fun t i => by split <;> simp) _ _
  · rfl

@[simp] theorem State.abortFlight_view (s : State) : (State.abortFlight s).view = s.view := by
  unfold State.abortFlight; split <;> simp

@[simp] theorem State.endRound_view (s : State) (r : SolveRun) : (State.endRound s r).view = s.view := by
  simp [State.endRound]

@[simp] theorem State.afterEntry_view (s : State) : (State.afterEntry s).view = s.view := by
  unfold State.afterEntry; split <;> simp

@[simp] theorem State.deadlineOutcome_view (s : State) : (State.deadlineOutcome s).view = s.view := by
  unfold State.deadlineOutcome; split <;> simp

@[simp] theorem State.setPoint_view (s : State) (p : Nat) (v : Word) : (State.setPoint s p v).view = s.view := by
  simp [State.setPoint]

@[simp] theorem State.setPoints_view (s : State) : (State.setPoints s).view = s.view := by
  unfold State.setPoints
  split
  · rfl
  · refine (view_freeCtr _ _).trans ?_
    simp only [view_modPln]
    apply view_foldl
    intro t v
    split <;> simp

@[simp] theorem State.pourRecord_view (s : State) (r : PlanRec) (before : Nat) : (s.pourRecord r before).view = s.view := by
  simp only [State.pourRecord, State.setPoints_view]
  refine (view_freeCtr _ _).trans ?_
  simp

@[simp] theorem State.pourResult_view (s : State) : (State.pourResult s).view = s.view := by
  simp [State.pourResult]

@[simp] theorem State.stepPoints_view (s : State) : (State.stepPoints s).view = s.view := by
  unfold State.stepPoints; split <;> simp

@[simp] theorem State.setShed_view (s : State) (shed : List Nat) : (State.setShed s shed).view = s.view := by
  simp [State.setShed, view_foldl]

@[simp] theorem State.enterIsland_view (s : State) : (State.enterIsland s).view = s.view := by
  simp [State.enterIsland]

@[simp] theorem State.evalShed_view (s : State) (k : Core) (src : Nat → Word) : (State.evalShed s k src).view = s.view := by
  simp [State.evalShed]

@[simp] theorem State.leaveIsland_view (s : State) : (State.leaveIsland s).view = s.view := by
  simp [State.leaveIsland]

@[simp] theorem State.restoreGroup_view (s : State) : (State.restoreGroup s).view = s.view := by
  simp [State.restoreGroup]

@[simp] theorem State.watchGrid_view (s : State) : (State.watchGrid s).view = s.view := by
  unfold State.watchGrid; split <;> simp

@[simp] theorem State.repour_view (s : State) : s.repour.view = s.view := by
  simp [State.repour, State.view]

end Sys2Proof.Machine
end

