-- ==== Sys2Proof/Laws/ViewField.lean ====
section
/-! SUPPORT. What operations leave unchanged outside the blocks: channels, loops, the pair. -/

namespace Sys2Proof.Machine

@[simp] theorem State.setChan_view (s : State) (n : Nat) (x : Chan) : (State.setChan s n x).view = s.view := by
  simp [State.setChan]

@[simp] theorem State.setGrp_view (s : State) (g : Nat) (x : Grp) : (State.setGrp s g x).view = s.view := by
  simp [State.setGrp]

@[simp] theorem State.setSlice_view (s : State) (k : Nat) (x : Slice) : (State.setSlice s k x).view = s.view := by
  simp [State.setSlice]

@[simp] theorem State.checkRotation_view (s : State) : (State.checkRotation s).view = s.view := by
  simp [State.checkRotation]

@[simp] theorem State.retireSlice_view (s : State) (k reason : Nat) : (State.retireSlice s k reason).view = s.view := by
  simp only [State.retireSlice]; (repeat' split) <;> simp

@[simp] theorem State.entryCode_view (s : State) (e : Entry_) (ovs : Nat) : (State.entryCode s e ovs).2.2.view = s.view := by
  unfold State.entryCode; split <;> simp

@[simp] theorem State.finishEntry_view (s : State) (g : Nat) (e : Entry_) : (State.finishEntry s g e).view = s.view := by
  simp [State.finishEntry]

@[simp] theorem State.advanceGroup_view (g fuel t : Nat) (s : State) : (State.advanceGroup g fuel t s).view = s.view := by
  induction fuel generalizing t s with
  | zero => rfl
  | succ n ih =>
    unfold State.advanceGroup
    dsimp only
    split
    · rfl
    · split
      · split
        · simp [ih]
        · rfl
      · split <;> simp [ih]

@[simp] theorem State.advanceGroups_view (s : State) : s.advanceGroups.view = s.view := by
  unfold State.advanceGroups
  apply view_foldl
  intro t g
  split <;> simp

@[simp] theorem State.passStart_view (s : State) (g : Nat) (samples : List (Nat × Nat × Int × Bool)) : (State.passStart s g samples).view = s.view := by
  simp [State.passStart]

@[simp] theorem State.preempt_view (s : State) (g : Nat) : (State.preempt s g).view = s.view := by
  unfold State.preempt; split <;> simp

@[simp] theorem State.request_view (s : State) (n : Nat) (urgent : Bool) : (State.request s n urgent).view = s.view := by
  simp only [State.request]; split <;> simp

@[simp] theorem State.applyOut_view (s : State) (n : Nat) (u : Word) : (State.applyOut s n u).view = s.view := by
  simp [State.applyOut]

@[simp] theorem State.driveOut_view (s : State) (n : Nat) : (State.driveOut s n).view = s.view := by
  simp only [State.driveOut]; (repeat' split) <;> simp

@[simp] theorem State.writeOut_view (s : State) (n : Nat) (v : Word) : (State.writeOut s n v).view = s.view := by
  simp [State.writeOut]

@[simp] theorem State.setHand_view (s : State) (n : Nat) (on : Bool) : (State.setHand s n on).view = s.view := by
  simp [State.setHand]

@[simp] theorem State.setNoVfld_view (s : State) (on : Bool) : (State.setNoVfld s on).view = s.view := by
  simp [State.setNoVfld, view_foldl]

@[simp] theorem State.assignSlices_view (s : State) : (State.assignSlices s).view = s.view := by
  simp [State.assignSlices, view_foldl]

@[simp] theorem State.endVisits_view (s : State) : (State.endVisits s).view = s.view := by
  unfold State.endVisits
  refine view_foldl _ (fun t k => ?_) _ _
  dsimp only
  split
  · exact (view_freeCtr _ _).trans (by simp)
  · rfl

@[simp] theorem State.startVisits_view (s : State) : (State.startVisits s).view = s.view := by
  simp [State.startVisits, view_foldl]

@[simp] theorem State.calEnds_view (s : State) : (State.calEnds s).view = s.view := by
  simp [State.calEnds]

@[simp] theorem State.configureChannels_view (s : State) (warm : Bool) (oldRec : Nat → Bytes) : (State.configureChannels s warm oldRec).view = s.view := by
  simp [State.configureChannels, view_foldl]

@[simp] theorem State.calCommand_view (s : State) (n : Nat) (w : Word) : (State.calCommand s n w).view = s.view := by
  simp only [State.calCommand]; (repeat' split) <;> simp

@[simp] theorem State.installCals_view (s : State) : (State.installCals s).view = s.view := by
  simp [State.installCals]

@[simp] theorem State.commitFch_view (s : State) (addr : Nat) (w : Word) : (State.commitFch s addr w).view = s.view := by
  unfold State.commitFch; (repeat' split) <;> simp

@[simp] theorem State.immediateFch_view (s : State) (src : Source) (addr : Nat) (w : Word) : (State.immediateFch s src addr w).view = s.view := by
  simp [State.immediateFch]

@[simp] theorem State.evalSlot_view (k : Core) (s : State) (n : Nat) : (State.evalSlot k s n).view = s.view := by
  simp [State.evalSlot]

@[simp] theorem State.loopTick_view (s : State) (us : Nat) : (State.loopTick s us).view = s.view := by
  simp [State.loopTick, view_foldl]

@[simp] theorem State.deliver_view (s : State) (n : Nat) (v : Word) : (State.deliver s n v).view = s.view := by
  simp only [State.deliver]; (repeat' split) <;> simp

@[simp] theorem State.checkInjection_view (s : State) : (State.checkInjection s).view = s.view := by
  simp [State.checkInjection]

@[simp] theorem State.handOutputs_view (s : State) : (State.handOutputs s).view = s.view := by
  simp [State.handOutputs, view_foldl]

@[simp] theorem State.shedOutputs_view (s : State) : (State.shedOutputs s).view = s.view := by
  simp [State.shedOutputs, view_foldl]

@[simp] theorem State.applyOutputs_view (s : State) : (State.applyOutputs s).view = s.view := by
  simp [State.applyOutputs, view_foldl]

@[simp] theorem State.commitLpe_view (s : State) (addr : Nat) (w : Word) : (State.commitLpe s addr w).view = s.view := by
  unfold State.commitLpe; (repeat' split) <;> simp

@[simp] theorem State.handCommand_view (s : State) (src : Source) (cmd : Nat) : (State.handCommand s src cmd).view = s.view := by
  unfold State.handCommand; split <;> simp

@[simp] theorem State.immediateLpe_view (s : State) (src : Source) (addr : Nat) (w : Word) : (State.immediateLpe s src addr w).view = s.view := by
  unfold State.immediateLpe; (repeat' split) <;> simp

@[simp] theorem State.configureLoops_view (s : State) (warm : Bool) : (State.configureLoops s warm).view = s.view := by
  simp [State.configureLoops]

@[simp] theorem State.releaseKill_view (s : State) : (State.releaseKill s).view = s.view := by
  simp [State.releaseKill]

@[simp] theorem State.assertKill_view (s : State) : (State.assertKill s).view = s.view := by
  simp [State.assertKill]

@[simp] theorem State.setClaim_view (s : State) (code : Nat) : (State.setClaim s code).view = s.view := by
  simp [State.setClaim]

@[simp] theorem State.dropClaim_view (s : State) : (State.dropClaim s).view = s.view := by
  simp [State.dropClaim]

@[simp] theorem State.handEnds_view (s : State) : (State.handEnds s).view = s.view := by
  simp [State.handEnds, view_foldl]

@[simp] theorem State.abandonWindow_view (s : State) : (State.abandonWindow s).view = s.view := by
  simp only [State.abandonWindow]; split <;> simp

@[simp] theorem State.switchMode_view (s : State) (m : Mode) : (State.switchMode s m).view = s.view := by
  simp [State.switchMode]

@[simp] theorem State.safeOut_view (s : State) (n : Nat) : (State.safeOut s n).view = s.view := by
  unfold State.safeOut; split <;> simp

@[simp] theorem State.safehold_view (s : State) (cause : Nat) : (State.safehold s cause).view = s.view := by
  simp [State.safehold, view_foldl]

@[simp] theorem State.updReply_view (s : State) (src : Source) (result : Nat) : (State.updReply s src result).view = s.view := by
  simp [State.updReply]

@[simp] theorem State.endUpdate_view (s : State) (result : Nat) : (State.endUpdate s result).view = s.view := by
  unfold State.endUpdate; split <;> simp

@[simp] theorem State.unholdUpdate_view (s : State) (why : Nat) : (s.unholdUpdate why).view = s.view := by
  simp [State.unholdUpdate]

@[simp] theorem State.holdUpdate_view (s : State) (why : Nat) : (s.holdUpdate why).view = s.view := by
  unfold State.holdUpdate; split <;> simp

@[simp] theorem State.holderChange_view (s : State) (cause : Nat) : (State.holderChange s cause).view = s.view := by
  simp [State.holderChange]

@[simp] theorem State.enterWait_view (s : State) : (State.enterWait s).view = s.view := by
  unfold State.enterWait
  rw [State.switchMode_view, view_modEpc _ _ rfl rfl, view_modPar, State.setClaim_view]

@[simp] theorem State.enterBarred_view (s : State) (why : Nat) : (State.enterBarred s why).view = s.view := by
  simp [State.enterBarred]

@[simp] theorem State.enterJoin_view (s : State) : (State.enterJoin s).view = s.view := by
  simp [State.enterJoin]

@[simp] theorem State.enterTaking_view (s : State) (code cause : Nat) (planned : Bool) : (State.enterTaking s code cause planned).view = s.view := by
  simp [State.enterTaking]

@[simp] theorem State.abandonHandover_view (s : State) (why : Nat) : (State.abandonHandover s why).view = s.view := by
  unfold State.abandonHandover; split <;> simp

@[simp] theorem State.nameHandover_view (s : State) (cause : Nat) : (State.nameHandover s cause).view = s.view := by
  simp [State.nameHandover]

@[simp] theorem State.stageCold_view (s : State) : s.stageCold.view = s.view := by
  simp [State.stageCold, State.view, externalStaged, List.filter_append]

@[simp] theorem State.enterKilled_view (s : State) : s.enterKilled.view = s.view := by
  simp [State.enterKilled]

@[simp] theorem State.yieldSeize_view (s : State) : s.yieldSeize.view = s.view := by
  unfold State.yieldSeize; split <;> simp

@[simp] theorem State.settlePair_view (s : State) : (State.settlePair s).view = s.view := by
  simp [State.settlePair]

@[simp] theorem State.checkHandover_view (s : State) : (State.checkHandover s).view = s.view := by
  simp [State.checkHandover]

@[simp] theorem State.watchHoldoff_view (s : State) : (State.watchHoldoff s).view = s.view := by
  simp [State.watchHoldoff]

@[simp] theorem State.healthHandover_view (s : State) : (State.healthHandover s).view = s.view := by
  simp [State.healthHandover]

@[simp] theorem State.pairBoundary_view (s : State) : (State.pairBoundary s).view = s.view := by
  simp [State.pairBoundary]

@[simp] theorem State.pairInstant_view (s : State) : (State.pairInstant s).view = s.view := by
  simp [State.pairInstant]

@[simp] theorem State.claimPinFault_view (s : State) : (State.claimPinFault s).view = s.view := by
  simp [State.claimPinFault]

@[simp] theorem State.compareCodes_view (s : State) : (State.compareCodes s).view = s.view := by
  simp only [State.compareCodes]; (repeat' split) <;> simp

@[simp] theorem State.fireWatchdog_view (s : State) (cause : Nat) : (State.fireWatchdog s cause).view = s.view := by
  simp [State.fireWatchdog]

@[simp] theorem State.crcError_view (s : State) : (State.crcError s).view = s.view := by
  simp [State.crcError]

@[simp] theorem State.losePath_view (s : State) (hb : Bool) : (State.losePath s hb).view = s.view := by
  have h : ∀ x : State, x.view = s.view → (if hb then x else x.modEpc fun e => { e with pairLock := false }).view = s.view := by
    intro x hx; split
    · exact hx
    · rw [view_modEpc _ _ rfl rfl, hx]
  unfold State.losePath; dsimp only
  rw [view_ite, view_modPar, ite_self]
  exact h _ (by simp)

@[simp] theorem State.switchClaim_view (s : State) (src : Source) : (State.switchClaim s src).view = s.view := by
  simp [State.switchClaim]

@[simp] theorem State.diverge_view (s : State) (x : CmpItem) : (State.diverge s x).view = s.view := by
  simp [State.diverge]

@[simp] theorem State.startPair_view (s : State) : (State.startPair s).view = s.view := by
  simp only [State.startPair]; (repeat' split) <;> simp

@[simp] theorem State.commitPar_view (s : State) (src : Source) (addr : Nat) (w : Word) : (State.commitPar s src addr w).view = s.view := by
  unfold State.commitPar; split <;> simp

end Sys2Proof.Machine
end

