-- ==== Sys2Proof/Laws/ViewEnergy.lean ====
section
/-! SUPPORT. What operations leave unchanged outside the blocks: logic, fans, energy, time, the calendar, CAN. -/

namespace Sys2Proof.Machine

@[simp] theorem State.judgeForce_view (s : State) (cmd : Nat) (src : Source) (role : Role) :
    (State.judgeForce s cmd src role).view = s.view := by
  simp [State.judgeForce]

@[simp] theorem State.takeHeld_view (s : State) : (State.takeHeld s).view = s.view := by
  unfold State.takeHeld; split <;> simp

@[simp] theorem State.dropForces_view (s : State) : (State.dropForces s).view = s.view := by
  simp [State.dropForces]

@[simp] theorem State.commitForce_view (s : State) (cmd : Nat) (src : Source) (role : Role) : (State.commitForce s cmd src role).view = s.view := by
  simp [State.commitForce]

@[simp] theorem State.takeForce_view (s : State) : (State.takeForce s).view = s.view := by
  simp [State.takeForce]

@[simp] theorem State.inputPhase_view (s : State) (latch : Bool) : (State.inputPhase s latch).view = s.view := by
  simp [State.inputPhase]

@[simp] theorem State.haltOutput_view (s : State) (r : Rec) : (State.haltOutput s r).view = s.view := by
  simp [State.haltOutput]

@[simp] theorem State.outputPhase_view (s : State) : (State.outputPhase s).view = s.view := by
  simp [State.outputPhase, view_foldl]

@[simp] theorem State.restartLogic_view (s : State) (src : Source) : (State.restartLogic s src).view = s.view := by
  simp [State.restartLogic]

@[simp] theorem State.configureLogic_view (s : State) (warm : Bool) (old : Cst) : (State.configureLogic s warm old).view = s.view := by
  simp [State.configureLogic]

@[simp] theorem State.installProgram_view (s : State) (new : Cst) : (State.installProgram s new).view = s.view := by
  simp [State.installProgram, view_foldl]

@[simp] theorem State.takePairs_view (s : State) : (State.takePairs s).view = s.view := by
  simp [State.takePairs, view_foldl]

@[simp] theorem State.commitLgc_view (s : State) (src : Source) (role : Role) (addr : Nat) (w : Word) : (State.commitLgc s src role addr w).view = s.view := by
  unfold State.commitLgc; split <;> simp

@[simp] theorem State.evalFan_view (s : State) (d : Nat) : (State.evalFan s d).view = s.view := by
  simp [State.evalFan]

@[simp] theorem State.evalFans_view (s : State) : (State.evalFans s).view = s.view := by
  simp [State.evalFans, view_foldl]

@[simp] theorem State.outputs_view (s : State) : (State.outputs s).view = s.view := by
  simp [State.outputs]

@[simp] theorem State.setDrv_view (s : State) (d : Nat) (x : FanDrv) : (State.setDrv s d x).view = s.view := by
  simp [State.setDrv]

@[simp] theorem State.writeFan_view (s : State) (d : Nat) : (State.writeFan s d).view = s.view := by
  simp [State.writeFan]

@[simp] theorem State.fanStall_view (s : State) (d : Nat) : (State.fanStall s d).view = s.view := by
  simp [State.fanStall]

@[simp] theorem State.restartFan_view (s : State) (src : Source) (d : Nat) : (State.restartFan s src d).view = s.view := by
  simp [State.restartFan]

@[simp] theorem State.commitFan_view (s : State) (src : Source) (addr : Nat) (w : Word) : (State.commitFan s src addr w).view = s.view := by
  unfold State.commitFan; (repeat' split) <;> simp [view_foldl]

@[simp] theorem State.configureFans_view (s : State) (warm : Bool) : (State.configureFans s warm).view = s.view := by
  simp [State.configureFans]

@[simp] theorem State.closeInterval_view (s : State) (kind unit flags : Nat) : (State.closeInterval s kind unit flags).view = s.view := by
  unfold State.closeInterval; split <;> simp

@[simp] theorem State.nextInterval_view (s : State) (kind unit flags openFlags : Nat) : (State.nextInterval s kind unit flags openFlags).view = s.view := by
  simp [State.nextInterval]

@[simp] theorem State.stepIntervals_view (s : State) (old new : Nat) : (s.stepIntervals old new).view = s.view := by
  unfold State.stepIntervals
  split
  · rfl
  · apply view_foldl
    intro t u
    split
    · rfl
    · (repeat' split) <;> simp

@[simp] theorem State.meterSums_view (s : State) (g : Nat) (p : PeriodSums) (valid noRef : Bool) :
    (State.meterSums s g p valid noRef).view = s.view := by
  simp [State.meterSums]

@[simp] theorem State.meterPeriod_view (s : State) (g : Nat) (p : PeriodSums) (forced : Bool) : (State.meterPeriod s g p forced).view = s.view := by
  simp [State.meterPeriod]

@[simp] theorem State.heatSample_view (s : State) (m ns : Nat) : (State.heatSample s m ns).view = s.view := by
  simp [State.heatSample]

@[simp] theorem State.gridSample_view (s : State) (m : Nat) : (State.gridSample s m).view = s.view := by
  simp [State.gridSample]

@[simp] theorem State.failPages_view (s : State) (fails : Nat) : (State.failPages s fails).view = s.view := by
  simp [State.failPages, view_foldl]

@[simp] theorem State.save_view (s : State) (closed : Bool) (us fails : Nat) : (State.save s closed us fails).view = s.view := by
  simp [State.save]

@[simp] theorem State.closePeriod_view (s : State) (g : Nat) : (s.closePeriod g).view = s.view := by
  simp only [State.closePeriod]
  split
  · rfl
  · simp

@[simp] theorem State.closeMetering_view (s : State) : s.closeMetering.view = s.view := by
  unfold State.closeMetering
  split
  · rfl
  · simp [view_foldl]

@[simp] theorem State.restoreMetering_view (s : State) : (State.restoreMetering s).view = s.view := by
  unfold State.restoreMetering; split <;> simp

@[simp] theorem State.startMetering_view (s : State) : s.startMetering.view = s.view := by
  simp only [State.startMetering]
  rw [view_foldl _ (fun t u => by simp)]
  split <;> simp

@[simp] theorem State.clearAccs_view (s : State) (target unit : Nat) : (State.clearAccs s target unit).view = s.view := by
  simp [State.clearAccs, view_foldl]

@[simp] theorem State.commitNrg_view (s : State) (addr : Nat) (w : Word) : (State.commitNrg s addr w).view = s.view := by
  unfold State.commitNrg; split <;> simp

@[simp] theorem State.settlePtp_view (s : State) : (State.settlePtp s).view = s.view := by
  simp [State.settlePtp]

@[simp] theorem State.ptpLoad_view (s : State) (src : Source) (w : Word) : (State.ptpLoad s src w).view = s.view := by
  simp [State.ptpLoad]

@[simp] theorem State.ptpCapture_view (s : State) (src : Source) (txn : Nat) : (State.ptpCapture s src txn).view = s.view := by
  simp [State.ptpCapture]

@[simp] theorem State.commitPtp_view (s : State) (src : Source) (addr : Nat) (w : Word) : (State.commitPtp s src addr w).view = s.view := by
  unfold State.commitPtp; split <;> simp

@[simp] theorem State.startPtp_view (s : State) : s.startPtp.view = s.view := by
  unfold State.startPtp
  exact view_modPtp _ _

@[simp] theorem State.alarmSeen_view (s : State) (n : Nat) (tag : Nat) : (State.alarmSeen s n tag).view = s.view := by
  simp [State.alarmSeen]

@[simp] theorem State.fireAlarm_view (s : State) (n inst : Nat) (late : Bool) (next : Option Nat) : (State.fireAlarm s n inst late next).view = s.view := by
  simp [State.fireAlarm]

@[simp] theorem State.stepAlarm_view (s : State) (old new n : Nat) : (State.stepAlarm s old new n).view = s.view := by
  simp [State.stepAlarm]

@[simp] theorem State.armAlarm_view (s : State) (n : Nat) : (State.armAlarm s n).view = s.view := by
  simp [State.armAlarm]

@[simp] theorem State.disarmAlarm_view (s : State) (n : Nat) : (State.disarmAlarm s n).view = s.view := by
  simp [State.disarmAlarm]

@[simp] theorem State.stepTo_view (s : State) (new : Nat) : (s.stepTo new).view = s.view := by
  simp only [State.stepTo]
  split
  · rfl
  · rw [view_foldl _ (fun t n => by simp)]
    simp

@[simp] theorem State.loadCalendar_view (s : State) (new : Nat) : (State.loadCalendar s new).view = s.view := by
  simp [State.loadCalendar]

@[simp] theorem State.restartCalendar_view (s : State) : (State.restartCalendar s).view = s.view := by
  simp [State.restartCalendar]

@[simp] theorem State.openWindow_view (s : State) : (State.openWindow s).view = s.view := by
  simp [State.openWindow]

@[simp] theorem State.settleRef_view (s : State) : (State.settleRef s).view = s.view := by
  simp [State.settleRef]

@[simp] theorem State.startCalendar_view (s : State) : (State.startCalendar s).view = s.view := by
  simp [State.startCalendar, view_foldl]

@[simp] theorem State.latchCalendar_view (s : State) : (State.latchCalendar s).view = s.view := by
  simp [State.latchCalendar]

@[simp] theorem State.clkCapture_view (s : State) (src : Source) (txn : Nat) : (State.clkCapture s src txn).view = s.view := by
  simp [State.clkCapture]

@[simp] theorem State.clkLoad_view (s : State) (src : Source) (w : Word) : (State.clkLoad s src w).view = s.view := by
  simp [State.clkLoad]

@[simp] theorem State.almCmd_view (s : State) (w : Word) : (State.almCmd s w).view = s.view := by
  simp [State.almCmd, view_foldl]

@[simp] theorem State.commitClk_view (s : State) (src : Source) (addr : Nat) (w : Word) : (State.commitClk s src addr w).view = s.view := by
  unfold State.commitClk; split <;> simp

@[simp] theorem State.modCtl_view (s : State) (c : Nat) (f : CanCtl → CanCtl) : (State.modCtl s c f).view = s.view := by
  simp [State.modCtl]

@[simp] theorem State.modObj_view (s : State) (c id : Nat) (f : CanObj → CanObj) : (State.modObj s c id f).view = s.view := by
  simp [State.modObj]

@[simp] theorem State.modMb_view (s : State) (c m : Nat) (f : CanMb → CanMb) : (State.modMb s c m f).view = s.view := by
  simp [State.modMb]

@[simp] theorem State.endRequests_view (s : State) (c result : Nat) : (s.endRequests c result).view = s.view := by
  unfold State.endRequests
  apply view_foldl
  intro t m
  split <;> simp

@[simp] theorem State.canRequest_view (s : State) (c m : Nat) : (s.canRequest c m).view = s.view := by
  simp only [State.canRequest]
  (repeat' split) <;> simp

@[simp] theorem State.canOffer_view (s : State) (c : Nat) : (State.canOffer s c).view = s.view := by
  unfold State.canOffer; (repeat' split) <;> simp

@[simp] theorem State.canClash_view (s : State) (c id : Nat) : (State.canClash s c id).view = s.view := by
  simp only [State.canClash]; (repeat' split) <;> simp

@[simp] theorem State.canStore_view (s : State) (c : Nat) (f : CanFrame) : (State.canStore s c f).view = s.view := by
  simp [State.canStore]

@[simp] theorem State.canDoze_view (s : State) (c : Nat) : (State.canDoze s c).view = s.view := by
  simp [State.canDoze]

@[simp] theorem State.canCancel_view (s : State) (src : Source) (c m : Nat) : (State.canCancel s src c m).view = s.view := by
  unfold State.canCancel; split <;> simp

@[simp] theorem State.canRelease_view (s : State) (c id : Nat) : (State.canRelease s c id).view = s.view := by
  simp [State.canRelease]

@[simp] theorem State.canSleep_view (s : State) (c : Nat) : (State.canSleep s c).view = s.view := by
  simp [State.canSleep]

@[simp] theorem State.canWakeUp_view (s : State) (c cause : Nat) : (State.canWakeUp s c cause).view = s.view := by
  simp [State.canWakeUp]

@[simp] theorem State.canSettle_view (s : State) : s.canSettle.view = s.view := by
  unfold State.canSettle
  apply view_foldl
  intro t c
  dsimp only
  split
  · split <;> simp
  · split
    · rw [State.modCtl_view, view_foldl _ (fun u m => by split <;> simp)]
    · rfl

@[simp] theorem State.canBoundary_view (s : State) : s.canBoundary.view = s.view := by
  simp only [State.canBoundary]
  split
  · simp
  · rw [view_foldl _ (fun u c => ?_)]
    · simp
    · rw [view_foldl _ (fun v m => ?_)]
      · split <;> simp
      · (repeat' split) <;> simp

@[simp] theorem State.canGateClosed_view (s : State) : s.canGateClosed.view = s.view := by
  unfold State.canGateClosed
  exact view_foldl _ (fun t c => by simp) _ _

@[simp] theorem State.startCan_view (s : State) : s.startCan.view = s.view := by
  simp only [State.startCan, State.canSettle_view, view_modCan]

@[simp] theorem State.resetCan_view (s : State) : s.resetCan.view = s.view := by
  simp only [State.resetCan, State.canSettle_view, view_modCan]
  apply view_foldl
  intro t c
  apply view_foldl
  intro u m
  split <;> simp

@[simp] theorem State.commitCan_view (s : State) (src : Source) (addr : Nat) (w : Word) : (s.commitCan src addr w).view = s.view := by
  simp only [State.commitCan]
  (repeat' split) <;> simp

end Sys2Proof.Machine
end

