-- ==== Sys2Proof/Laws/ViewSystem.lean ====
section
/-! SUPPORT. What operations leave unchanged outside the blocks: resets, updates, the enclave, the network, power. -/

namespace Sys2Proof.Machine

@[simp] theorem clearSlots_lifecycle (l : List Nat) (x : Sec) : (l.foldl Sec.clearSlot x).lifecycle = x.lifecycle := by
  induction l generalizing x with
  | nil => rfl
  | cons k l ih => rw [List.foldl, ih]; rfl

@[simp] theorem State.closeYra_view (s : State) (p : Session → Bool) : (s.closeYra p).view = s.view := by
  unfold State.closeYra
  exact (view_modSec _ _ (clearSlots_lifecycle _ _)).trans (view_modEth _ _)

@[simp] theorem State.closeYml_view (s : State) (p : Session → Bool) : (s.closeYml p).view = s.view := by
  unfold State.closeYml
  exact (view_modSec _ _ (clearSlots_lifecycle _ _)).trans (view_modMgt _ _)

@[simp] theorem State.dropLock_view (s : State) : (State.dropLock s).view = s.view := by
  unfold State.dropLock; split <;> simp

@[simp] theorem State.closeSessions_view (s : State) (p : Session → Bool) : (State.closeSessions s p).view = s.view := by
  simp [State.closeSessions]

@[simp] theorem State.dropOpenings_view (s : State) : (State.dropOpenings s).view = s.view := by
  simp [State.dropOpenings]

@[simp] theorem State.releaseReset_view (s : State) (src : ResetSource) : (State.releaseReset s src).view = s.view := by
  simp [State.releaseReset]

@[simp] theorem State.noteErr_view (s : State) (event slot : Nat) (e : CstErr) : (State.noteErr s event slot e).view = s.view := by
  simp [State.noteErr]

@[simp] theorem State.takeLock_view (s : State) (src : Source) (role : Role) (session area : Nat) (data : Bytes) : (State.takeLock s src role session area data).view = s.view := by
  simp [State.takeLock]

@[simp] theorem State.offer_view (s : State) (src : Source) (role : Role) (session : Nat) : (State.offer s src role session).view = s.view := by
  simp [State.offer]

@[simp] theorem State.chunk_view (s : State) (src : Source) (session : Nat) : (State.chunk s src session).view = s.view := by
  unfold State.chunk; split <;> simp

@[simp] theorem State.endStream_view (s : State) (src : Source) (session : Nat) : (State.endStream s src session).view = s.view := by
  unfold State.endStream; split <;> simp

@[simp] theorem State.abortUpdate_view (s : State) (src : Source) (session : Nat) : (State.abortUpdate s src session).view = s.view := by
  unfold State.abortUpdate; split <;> simp

@[simp] theorem State.installStep_view (s : State) (l : UpdLock) : (State.installStep s l).view = s.view := by
  unfold State.installStep; (repeat' split) <;> simp

@[simp] theorem State.swapCommand_view (s : State) (src : Source) (role : Role) (session : Nat) : (State.swapCommand s src role session).view = s.view := by
  unfold State.swapCommand; split <;> simp

@[simp] theorem State.restoreSettings_view (s : State) (o : Settings) : (State.restoreSettings s o).view = s.view := by
  simp [State.restoreSettings]
@[simp] theorem State.confirmTrial_view (s : State) (src : Source) (role : Role) : (State.confirmTrial s src role).view = s.view := by
  unfold State.confirmTrial; split <;> simp

@[simp] theorem State.raiseFloors_view (s : State) : (State.raiseFloors s).view = s.view := by
  simp [State.raiseFloors]

@[simp] theorem State.forceClaim_view (s : State) (digest : Bytes) (src : Source) (role : Role) (session : Nat) : (State.forceClaim s digest src role session).2.view = s.view := by
  simp only [State.forceClaim]; (repeat' split) <;> simp

@[simp] theorem State.updCollision_view (s : State) (src : Source) : (State.updCollision s src).view = s.view := by
  simp [State.updCollision]

@[simp] theorem State.cmdResult_view (s : State) (state result code seq : Nat) : (State.cmdResult s state result code seq).view = s.view := by
  simp [State.cmdResult]

@[simp] theorem State.startCommand_view (s : State) (src : Source) (role : Role) (session : Nat) : (State.startCommand s src role session).view = s.view := by
  simp [State.startCommand]

@[simp] theorem State.noExec_view (s : State) : (State.noExec s).view = s.view := by
  simp [State.noExec]

@[simp] theorem State.secCollision_view (s : State) (window : Bool) : (State.secCollision s window).view = s.view := by
  simp [State.secCollision]

@[simp] theorem State.setOwnerKey_view (s : State) (k : Nat) (key : Option Bytes) : (s.setOwnerKey k key).view = s.view := by
  simp only [State.setOwnerKey]
  split
  · rw [State.closeSessions_view, view_modSec]
    cases key <;> dsimp only <;> split <;> simp [Sec.fill, Sec.clearSlot, Sec.flushKeys]
  · rw [view_modSec]
    cases key <;> dsimp only <;> split <;> simp [Sec.fill, Sec.clearSlot, Sec.flushKeys]

@[simp] theorem State.unlock_view (s : State) (level : Nat) : (State.unlock s level).view = s.view := by
  unfold State.unlock; split <;> simp

@[simp] theorem State.dbgCommand_view (s : State) (src : Source) (w : Word) : (State.dbgCommand s src w).view = s.view := by
  simp [State.dbgCommand]

@[simp] theorem State.attest_view (s : State) : (State.attest s).view = s.view := by
  simp [State.attest]

@[simp] theorem State.unlockFailed_view (s : State) : (State.unlockFailed s).view = s.view := by simp [State.unlockFailed]
@[simp] theorem State.abortKeyOps_view (s : State) : (State.abortKeyOps s).view = s.view := by
  simp only [State.abortKeyOps]; (repeat' split) <;> simp

@[simp] theorem State.tamperRunning_view (s : State) (code : Nat) : (s.tamperRunning code).view = s.view := by
  unfold State.tamperRunning
  dsimp only
  split
  · rw [State.closeSessions_view, view_modSec _ _ rfl, view_modSec _ _ rfl]
  · split
    · rw [State.safehold_view, view_modSec _ _ rfl, State.closeSessions_view, view_modSec _ _ rfl]
    · rw [view_modSec _ _ rfl, State.closeSessions_view, view_modSec _ _ rfl]
  · exact view_modSec _ _ rfl

@[simp] theorem State.owedTamper_view (s : State) : (State.owedTamper s).view = s.view := by
  simp [State.owedTamper, view_foldl]

@[simp] theorem State.commitSec_view (s : State) (src : Source) (role : Role) (session addr : Nat) (w : Word) : (State.commitSec s src role session addr w).view = s.view := by
  unfold State.commitSec; split <;> simp

@[simp] theorem State.ethSend_view (s : State) (ports : List Nat) (kind : Nat) (words : List Nat) : (State.ethSend s ports kind words).view = s.view := by
  simp [State.ethSend]

@[simp] theorem State.ethAccept_view (s : State) (p : Nat) (f : EthFrame) : (State.ethAccept s p f).view = s.view := by
  unfold State.ethAccept; (repeat' split) <;> simp

@[simp] theorem State.modSub_view (s : State) (i : Nat) (f : YspSub → YspSub) : (State.modSub s i f).view = s.view := by
  simp [State.modSub]

@[simp] theorem State.yspSettle_view (s : State) : s.yspSettle.view = s.view := by
  simp only [State.yspSettle]
  split
  · rfl
  · rw [view_foldl _ (fun t i => by simp)]
    simp

@[simp] theorem Sec.cacheKey_lifecycle (x : Sec) (sub n : Nat) : (x.cacheKey sub n).lifecycle = x.lifecycle := by
  unfold Sec.cacheKey
  (repeat' split) <;> simp [Sec.fill, Sec.clearSlot]

@[simp] theorem State.yspSend_view (s : State) (kind sub : Nat) (body : List Nat) : (s.yspSend kind sub body).view = s.view := by
  simp only [State.yspSend]
  split <;> simp

@[simp] theorem State.yspSchedule_view (s : State) (r : PlanRec) (b : SubBlock) (steps : Nat) : (s.yspSchedule r b steps).view = s.view := by
  simp only [State.yspSchedule, view_modPln]
  exact view_foldl _ (fun t f => by simp) _ _

@[simp] theorem State.yspShed_view (s : State) (sub : Nat) (fraction : Word) : (State.yspShed s sub fraction).view = s.view := by
  simp [State.yspShed]

@[simp] theorem State.yspPour_view (s : State) : s.yspPour.view = s.view := by
  unfold State.yspPour
  split
  · rfl
  · split
    · rfl
    · apply view_foldl
      intro t b
      split <;> simp

@[simp] theorem State.yspHoldEnd_view (s : State) : s.yspHoldEnd.view = s.view := by
  unfold State.yspHoldEnd
  split
  · rfl
  · apply view_foldl
    intro t b
    split <;> simp

@[simp] theorem State.yspOpening_view (s : State) : s.yspOpening.view = s.view := by
  simp only [State.yspOpening]
  split
  · simp
  · rw [view_foldl _ (fun t i => ?_)]
    · simp
    · (repeat' split) <;> simp

@[simp] theorem State.yspUnshed_view (s : State) (old : List Nat) : (s.yspUnshed old).view = s.view := by
  unfold State.yspUnshed
  apply view_foldl
  intro t i
  split <;> simp

@[simp] theorem State.commitEth_view (s : State) (addr : Nat) (w : Word) : (State.commitEth s addr w).view = s.view := by
  unfold State.commitEth; split <;> simp

@[simp] theorem State.closeAllYra_view (s : State) : (State.closeAllYra s).view = s.view := by
  simp [State.closeAllYra]

@[simp] theorem State.resetCp_view (s : State) : (State.resetCp s).view = s.view := by
  simp [State.resetCp]

@[simp] theorem State.resetBlock_view (s : State) (b : Nat) : (State.resetBlock s b).view = s.view := by
  unfold State.resetBlock; split <;> simp

@[simp] theorem State.undoInstall_view (s : State) : (State.undoInstall s).view = s.view := by
  unfold State.undoInstall; split <;> simp

@[simp] theorem State.settleMode_view (s : State) : (State.settleMode s).view = s.view := by
  simp only [State.settleMode]; (repeat' split) <;> simp

@[simp] theorem State.commitPwr_view (s : State) (src : Source) (addr : Nat) (w : Word) : (State.commitPwr s src addr w).view = s.view := by
  unfold State.commitPwr; split <;> simp

end Sys2Proof.Machine
end

