-- ==== Sys2Proof/Laws/ViewAccess.lean ====
section
/-! SUPPORT. What operations leave unchanged outside the blocks: registers, accesses, loading, epochs. -/

namespace Sys2Proof.Machine

@[simp] theorem State.installFactors_view (s : State) : (State.installFactors s).view = s.view := by
  simp [State.installFactors]

@[simp] theorem State.sendSources_view (s : State) (kind : Nat) (v : List (Nat × Dy × Bool)) : (State.sendSources s kind v).view = s.view := by
  simp [State.sendSources]

@[simp] theorem State.openCycle_view (s : State) : (State.openCycle s).view = s.view := by
  simp [State.openCycle]

@[simp] theorem State.endAssembly_view (s : State) : (State.endAssembly s).view = s.view := by
  simp [State.endAssembly]

@[simp] theorem State.advanceSub_view (s : State) (v : List (Nat × Dy × Bool)) (i : Nat) : (s.advanceSub v i).view = s.view := by
  simp [State.advanceSub]

@[simp] theorem State.identify_view (s : State) (v : List (Nat × Dy × Bool)) (i : Nat) : (s.identify v i).view = s.view := by
  unfold State.identify
  dsimp only
  (repeat' split) <;> simp

@[simp] theorem State.extendHistory_view (s : State) (v : List (Nat × Dy × Bool)) : (s.extendHistory v).view = s.view := by
  simp [State.extendHistory]

@[simp] theorem State.endStep_view (s : State) (v : List (Nat × Dy × Bool)) (start : Nat) : (s.endStep v start).view = s.view := by
  simp [State.endStep, view_foldl]

@[simp] theorem State.factSat_view (s : State) : (State.factSat s).view = s.view := by
  simp [State.factSat]

@[simp] theorem State.staleOver_view (s : State) (h : Heartbeat) : (State.staleOver s h).view = s.view := by
  simp [State.staleOver]

@[simp] theorem State.sampleHistory_view (s : State) : (State.sampleHistory s).view = s.view := by
  simp [State.sampleHistory]

@[simp] theorem State.noLanes_view (s : State) : (State.noLanes s).view = s.view := by
  simp [State.noLanes]

@[simp] theorem State.testCrucible_view (s : State) (bad : List Nat) (p : Nat) : (State.testCrucible s bad p).view = s.view := by
  simp [State.testCrucible]

@[simp] theorem State.retest_view (s : State) (l : Nat) (bad : List Nat) : (State.retest s l bad).view = s.view := by
  simp [State.retest, view_foldl]

@[simp] theorem State.commitAsm_view (s : State) (addr : Nat) (w : Word) : (State.commitAsm s addr w).view = s.view := by
  unfold State.commitAsm; split <;> simp

@[simp] theorem State.commitWindow_view (s : State) (ws : List Staged) : (State.commitWindow s ws).view = s.view := by
  simp [State.commitWindow]

@[simp] theorem State.commitSlv_view (s : State) (addr : Nat) (w : Word) : (State.commitSlv s addr w).view = s.view := by
  unfold State.commitSlv; split <;> simp

@[simp] theorem State.commitSys_view (s : State) (addr : Nat) (w : Word) : (State.commitSys s addr w).view = s.view := by
  unfold State.commitSys; split <;> simp

@[simp] theorem State.commitEpc_view (s : State) (addr : Nat) (w : Word) : (State.commitEpc s addr w).view = s.view := by
  unfold State.commitEpc; split <;> simp

@[simp] theorem State.islCommand_view (s : State) (cmd : Nat) : (State.islCommand s cmd).view = s.view := by
  unfold State.islCommand; split <;> simp

@[simp] theorem State.commitPln_view (s : State) (src : Source) (addr : Nat) (w : Word) : (State.commitPln s src addr w).view = s.view := by
  unfold State.commitPln; split <;> simp

@[simp] theorem State.commitMgt_view (s : State) (addr : Nat) (w : Word) : (State.commitMgt s addr w).view = s.view := by
  unfold State.commitMgt; split <;> simp

@[simp] theorem State.retireRow_view (s : State) (row : Nat) : (State.retireRow s row).view = s.view := by
  simp [State.retireRow]

@[simp] theorem State.immediate_view (s : State) (src : Source) (txn addr : Nat) (w : Word) : (State.immediate s src txn addr w).view = s.view := by
  simp [State.immediate]

@[simp] theorem State.answer_view (s : State) (t : Txn) (o : TxnOutcome) (commit : Option Nat) : (State.answer s t o commit).view = s.view := by
  unfold State.answer; (repeat' split) <;> simp

@[simp] theorem State.requestResets_view (s : State) (module blocks detail : Nat) : (State.requestResets s module blocks detail).view = s.view := by
  simp [State.requestResets]

@[simp] theorem State.yraAuthFail_view (s : State) : (State.yraAuthFail s).view = s.view := by
  simp [State.yraAuthFail]

@[simp] theorem State.mgtReply_view (s : State) (cmd session ctr status : Nat) (readEpoch : Option Nat) (body : Bytes) : (State.mgtReply s cmd session ctr status readEpoch body).view = s.view := by
  simp [State.mgtReply]

@[simp] theorem State.mgtAuthFail_view (s : State) : (State.mgtAuthFail s).view = s.view := by
  simp [State.mgtAuthFail]

@[simp] theorem State.startClocks_view (s : State) : (State.startClocks s).view = s.view := by
  simp [State.startClocks]

@[simp] theorem State.restoreParams_view (s : State) : (State.restoreParams s).view = s.view := by
  simp [State.restoreParams]

@[simp] theorem State.tryCasting_view (s : State) (slot : Nat) : (State.tryCasting s slot).1.view = s.view := by
  simp only [State.tryCasting]; (repeat' split) <;> simp [view_foldl]

@[simp] theorem State.noteCollision_view (s : State) (ws : List Staged) (g : Nat) : (State.noteCollision s ws g).view = s.view := by
  simp [State.noteCollision]

@[simp] theorem State.checkLiveness_view (s : State) : (State.checkLiveness s).view = s.view := by
  simp [State.checkLiveness]

@[simp] theorem State.settleBoundary_view (s : State) : (State.settleBoundary s).view = s.view := by
  simp [State.settleBoundary]

@[simp] theorem State.pourPlan_view (s : State) : (State.pourPlan s).view = s.view := by
  simp [State.pourPlan]

@[simp] theorem State.pourShed_view (s : State) : (State.pourShed s).view = s.view := by
  simp [State.pourShed]

@[simp] theorem State.castingBoundary_view (s : State) : (State.castingBoundary s).view = s.view := by
  simp [State.castingBoundary]

end Sys2Proof.Machine
end

