-- ==== Sys2Proof/Laws/Kept.lean ====
section
/-! SUPPORT. What every operation keeps: the queue, the time, the invariant of Safety and, but for a security command, the
lifecycle; the operations that end a run, and those on transactions, banks and the staging area. -/

namespace Sys2Proof.Machine

/-- A run has ended: nothing is published, open or staged from outside; the rest as before. -/
structure Cleared (s t : State) : Prop where
  pending : t.pending = s.pending
  now : t.now = s.now
  nextTxn : s.nextTxn ≤ t.nextTxn
  pub : t.pub = none
  prev : t.prev = none
  txns : t.txns = []
  external : externalStaged t.staged = 0
  lifecycle : t.live.sec.lifecycle = s.live.sec.lifecycle

/-- What an operation that changes only blocks, or ends a run, can do outside the blocks. -/
def Quiet (s t : State) : Prop := t.view = s.view ∨ Cleared s t

theorem Quiet.refl (s : State) : Quiet s s := .inl rfl
theorem Quiet.of_view {s t : State} (h : t.view = s.view) : Quiet s t := .inl h

theorem View.congr_pending {s t : State} (h : t.view = s.view) : t.pending = s.pending := congrArg View.pending h
theorem View.congr_now {s t : State} (h : t.view = s.view) : t.now = s.now := congrArg View.now h
theorem View.congr_nextTxn {s t : State} (h : t.view = s.view) : t.nextTxn = s.nextTxn := congrArg View.nextTxn h
theorem View.congr_pub {s t : State} (h : t.view = s.view) : t.pub = s.pub := congrArg View.pub h
theorem View.congr_prev {s t : State} (h : t.view = s.view) : t.prev = s.prev := congrArg View.prev h
theorem View.congr_txns {s t : State} (h : t.view = s.view) : t.txns = s.txns := congrArg View.txns h
theorem View.congr_prepares {s t : State} (h : t.view = s.view) : t.prep.isSome = s.prep.isSome := congrArg View.prepares h
theorem View.congr_external {s t : State} (h : t.view = s.view) : externalStaged t.staged = externalStaged s.staged := congrArg View.external h
theorem View.congr_lifecycle {s t : State} (h : t.view = s.view) : t.live.sec.lifecycle = s.live.sec.lifecycle := congrArg View.lifecycle h

theorem Cleared.of_view_left {a b c : State} (h : b.view = a.view) (h2 : Cleared b c) : Cleared a c :=
  ⟨h2.pending.trans (View.congr_pending h), h2.now.trans (View.congr_now h), View.congr_nextTxn h ▸ h2.nextTxn, h2.pub, h2.prev,
    h2.txns, h2.external, h2.lifecycle.trans (View.congr_lifecycle h)⟩

theorem Cleared.of_view_right {a b c : State} (h : Cleared a b) (h2 : c.view = b.view) : Cleared a c :=
  ⟨(View.congr_pending h2).trans h.pending, (View.congr_now h2).trans h.now, View.congr_nextTxn h2 ▸ h.nextTxn,
    (View.congr_pub h2).trans h.pub, (View.congr_prev h2).trans h.prev, (View.congr_txns h2).trans h.txns,
    (View.congr_external h2).trans h.external, (View.congr_lifecycle h2).trans h.lifecycle⟩

theorem Cleared.trans {a b c : State} (h : Cleared a b) (h2 : Cleared b c) : Cleared a c :=
  ⟨h2.pending.trans h.pending, h2.now.trans h.now, Nat.le_trans h.nextTxn h2.nextTxn, h2.pub, h2.prev, h2.txns, h2.external,
    h2.lifecycle.trans h.lifecycle⟩

theorem Quiet.trans {a b c : State} (h : Quiet a b) (h2 : Quiet b c) : Quiet a c := by
  rcases h with h | h <;> rcases h2 with h2 | h2
  · exact .inl (h2.trans h)
  · exact .inr (h2.of_view_left h)
  · exact .inr (h.of_view_right h2)
  · exact .inr (h.trans h2)

theorem Quiet.then {a b c : State} (h : Quiet a b) (h2 : c.view = b.view) : Quiet a c := h.trans (.inl h2)
theorem Quiet.after {a b c : State} (h2 : Quiet b c) (h : b.view = a.view) : Quiet a c := Quiet.trans (.inl h) h2

theorem Quiet.foldl {α : Type} (f : State → α → State) (h : ∀ s x, Quiet s (f s x)) (l : List α) (s : State) :
    Quiet s (l.foldl f s) := by
  induction l generalizing s with
  | nil => exact .refl s
  | cons x l ih => exact (h s x).trans (ih _)

theorem Cleared.inv {s t : State} (h : Cleared s t) : t.Inv :=
  { numbers := by simp [State.view, h.txns]
    given := by simp [State.view, h.txns]
    intact := by simp [State.view, h.txns]
    beside := by simp [State.view, h.prev]
    one := by simp [State.view, h.prev]
    room := by simp [State.view, h.external] }

theorem Quiet.inv {s t : State} (h : Quiet s t) (hs : s.Inv) : t.Inv := by
  rcases h with h | h
  · unfold State.Inv; rw [h]; exact hs
  · exact h.inv

theorem Quiet.pending {s t : State} (h : Quiet s t) : t.pending = s.pending := h.elim View.congr_pending Cleared.pending
theorem Quiet.now {s t : State} (h : Quiet s t) : t.now = s.now := h.elim View.congr_now Cleared.now
theorem Quiet.lifecycle {s t : State} (h : Quiet s t) : t.live.sec.lifecycle = s.live.sec.lifecycle :=
  h.elim View.congr_lifecycle Cleared.lifecycle

/-! Operations that end a run. -/

@[simp] theorem Sec.afterReset_lifecycle (x : Sec) (cold : Bool) : (x.afterReset cold).lifecycle = x.lifecycle := by
  unfold Sec.afterReset
  dsimp only
  split <;> rfl

theorem State.applyReset_cleared (s : State) (cold : Bool) : Cleared s (s.applyReset cold) :=
  ⟨rfl, rfl, Nat.le_refl _, rfl, rfl, rfl, rfl, Sec.afterReset_lifecycle _ _⟩

theorem State.assertReset_quiet (s : State) (src : ResetSource) (detail : Nat) : Quiet s (s.assertReset src detail) := by
  simp only [State.assertReset]
  split
  · split
    · exact .inr ((State.applyReset_cleared _ _).of_view_left (view_modPwr _ _))
    · exact .inl (view_modPwr _ _)
  · refine .inr ((State.applyReset_cleared _ _).of_view_left ?_)
    rw [view_modPwr]
    split <;> (try split) <;> simp

theorem State.assertReset_cleared (s : State) (src : ResetSource) (detail : Nat) (h : s.live.pwr.inReset = false) :
    Cleared s (s.assertReset src detail) := by
  simp only [State.assertReset, h]
  refine (State.applyReset_cleared _ _).of_view_left ?_
  rw [view_modPwr]
  split <;> (try split) <;> simp

theorem State.pulseReset_quiet (s : State) (src : ResetSource) (detail : Nat) : Quiet s (s.pulseReset src detail) :=
  (State.assertReset_quiet s src detail).then (State.releaseReset_view _ _)

theorem State.startBare_cleared (s : State) (cause : Nat) : Cleared s (s.startBare cause) := by
  have h : ∀ x : State, x.view = s.view →
      Cleared s ({ x with pub := none, prev := none, txns := [], staged := [] } : State).beginPour := fun x hx =>
    ⟨View.congr_pending (t := x) hx, View.congr_now (t := x) hx, Nat.le_of_eq (View.congr_nextTxn (t := x) hx).symm, rfl, rfl, rfl, rfl,
      View.congr_lifecycle (t := x) hx⟩
  exact h _ (by rw [view_modEpc _ _ rfl rfl]; simp)

/-- A view but for its epoch and its pour. -/
def View.anyEpoch (v : View) : View := { v with epoch := 0, pouring := false }

theorem anyEpoch_modEpc (s : State) (f : Epc → Epc) : (s.modEpc f).view.anyEpoch = s.view.anyEpoch := rfl

theorem State.enterLoad_cleared (s : State) : Cleared s s.enterLoad := by
  have h : ∀ x : State, x.view.anyEpoch = ({ s with pub := none, prep := none, prev := none, txns := [], staged := [] } : State).view.anyEpoch →
      Cleared s x :=
    fun x hx => by
      constructor
      · exact (congrArg View.pending hx :)
      · exact (congrArg View.now hx :)
      · exact Nat.le_of_eq ((congrArg View.nextTxn hx :)).symm
      · exact (congrArg View.pub hx :)
      · exact (congrArg View.prev hx :)
      · exact (congrArg View.txns hx :)
      · exact (congrArg View.external hx :)
      · exact (congrArg View.lifecycle hx :)
  exact h _ (by simp [State.enterLoad, anyEpoch_modEpc])

theorem State.loadFails_cleared (s : State) : Cleared s s.loadFails :=
  (State.startBare_cleared _ _).of_view_left (by simp)

theorem State.noAttempt_cleared (s : State) (code : Nat) : Cleared s (s.noAttempt code) :=
  (State.loadFails_cleared _).of_view_left (by simp)

theorem State.bootFails_cleared (s : State) (cause : Nat) : Cleared s (s.bootFails cause) := by
  refine (State.startBare_cleared _ _).of_view_left ?_
  rw [State.journal_view, view_modSec _ _ rfl]

theorem State.tamperBoot_cleared (s : State) : Cleared s s.tamperBoot := by
  refine (State.startBare_cleared _ _).of_view_left ?_
  rw [view_modPwr, State.journal_view, view_modSec _ _ rfl]

@[simp] theorem State.settleKeyCache_view (s : State) (old : Cst) : (s.settleKeyCache old).view = s.view := by
  simp only [State.settleKeyCache]
  split
  · rfl
  · exact view_modSec _ _ rfl

theorem State.install_cleared (s : State) (slot : Nat) (k : Container) (j : Judge) : Cleared s (s.install slot k j) := by
  have h : ∀ x : State, x.view.anyEpoch = s.view.anyEpoch →
      Cleared s ({ x with pub := none, prev := none, txns := [], staged := [] } : State).beginPour := by
    intro x hx
    refine ⟨?_, ?_, ?_, rfl, rfl, rfl, rfl, ?_⟩
    · exact (congrArg View.pending hx :)
    · exact (congrArg View.now hx :)
    · exact Nat.le_of_eq (congrArg View.nextTxn hx :).symm
    · exact (congrArg View.lifecycle hx :)
  refine h _ ?_
  rw [view_ite]
  simp [view_foldl, anyEpoch_modEpc]

theorem State.swap_quiet (s : State) (l : UpdLock) : Quiet s (s.swap l) := by
  simp only [State.swap]
  split
  · refine (State.pulseReset_quiet _ _ _).after ?_
    (repeat' split) <;> simp
  · exact (State.pulseReset_quiet _ _ _).after (by simp)

theorem State.revertTrial_quiet (s : State) (t : Trial) : Quiet s (s.revertTrial t) :=
  (State.pulseReset_quiet _ _ _).after (by simp)

theorem State.revertCommand_quiet (s : State) (src : Source) (role : Role) : Quiet s (s.revertCommand src role) := by
  unfold State.revertCommand
  split
  · split
    · exact State.revertTrial_quiet _ _
    · exact .inl (by simp)
  · exact .inl (by simp)

theorem view_ite_self {c : Prop} [Decidable c] {a b : State} (h : a.view = b.view) : (if c then a else b).view = b.view := by
  split
  · exact h
  · rfl

theorem State.updControl_quiet (s : State) (src : Source) (role : Role) (session : Nat) (w : Word) :
    Quiet s (s.updControl src role session w) := by
  have h : ∀ a b : State, a.view = b.view → Quiet a (if bit w 6 then a.revertCommand src role else a) := fun a b _ => by
    split
    · exact State.revertCommand_quiet _ _ _
    · exact .refl _
  have h0 : (if bit w 0 then s.offer src role session else if bit w 1 then s.chunk src session else s).view = s.view := by
    (repeat' split) <;> simp
  unfold State.updControl
  refine Quiet.trans (.inl ?_) (h _ s ?_) <;>
  exact (view_ite_self (State.raiseFloors_view _)).trans ((view_ite_self (State.confirmTrial_view _ _ _)).trans
    ((view_ite_self (State.swapCommand_view _ _ _ _)).trans ((view_ite_self (State.abortUpdate_view _ _ _)).trans
      ((view_ite_self (State.endStream_view _ _ _)).trans h0))))

theorem State.commitUpd_quiet (s : State) (src : Source) (role : Role) (session addr : Nat) (w : Word) :
    Quiet s (s.commitUpd src role session addr w) := by
  unfold State.commitUpd
  split
  · exact .inl (by simp)
  · split
    · exact State.updControl_quiet _ _ _ _ _
    · split <;> exact .inl (by simp)

theorem State.commitUpd_view (s : State) (src : Source) (role : Role) (session addr : Nat) (w : Word) (h : addr ≠ 0x04C8) :
    (s.commitUpd src role session addr w).view = s.view := by
  unfold State.commitUpd
  (repeat' split) <;> first | contradiction | simp

theorem State.applyWrite_quiet (s : State) (src : Source) (role : Role) (session addr : Nat) (w : Word) :
    Quiet s (s.applyWrite src role session addr w) := by
  unfold State.applyWrite
  by_cases h : addr = 0x04C8
  · subst h
    simpa using State.commitUpd_quiet s src role session 0x04C8 w
  · refine .inl ?_
    have hu := State.commitUpd_view s src role session addr w h
    (repeat' split) <;> simp [hu]

/-- Only UPD_CTRL can end a run by itself. -/
theorem State.applyWrite_view (s : State) (src : Source) (role : Role) (session addr : Nat) (w : Word) (h : addr ≠ 0x04C8) :
    (s.applyWrite src role session addr w).view = s.view := by
  unfold State.applyWrite
  have hu := State.commitUpd_view s src role session addr w h
  (repeat' split) <;> simp [hu]

theorem updCtrl_parts : (regAt 0x04C8).map (fun r => (r.rwe, r.w1c)) = some (0, 0) := by decide

theorem updCtrl_not {addr : Nat} {r : RegRow} (h : regAt addr = some r) (hr : r.rwe ≠ 0 ∨ r.w1c ≠ 0) : addr ≠ 0x04C8 := by
  rintro rfl
  have := updCtrl_parts
  rw [h] at this
  simp at this
  omega

@[simp] theorem State.applyImage_view (s : State) (x : Nat × Word) : (s.applyImage x).view = s.view := by
  unfold State.applyImage
  split
  · rename_i r h
    split
    · rfl
    · split
      · exact State.immediate_view _ _ _ _ _
      · split
        · rfl
        · exact State.applyWrite_view _ _ _ _ _ _ (updCtrl_not h (.inl (by assumption)))
  · rfl

@[simp] theorem State.installImage_view (s : State) (g : BulkImage) : (s.installImage g).view = s.view := by
  simp [State.installImage, view_foldl]

@[simp] theorem State.orderWerr_view (t s : State) (x : Staged) : (t.orderWerr s x).view = t.view := by
  unfold State.orderWerr
  dsimp only
  split
  · rfl
  · split <;> simp

theorem State.commitOne_quiet (s : State) (x : Staged) : Quiet s (s.commitOne x) := by
  unfold State.commitOne
  split
  · exact (State.applyWrite_quiet _ _ _ _ _ _).then (State.orderWerr_view _ _ _)
  · exact .refl s

end Sys2Proof.Machine
end

