-- ==== Sys2Proof/Laws/KeptTxn.lean ====
section
/-! SUPPORT. Transactions, banks and the commit keep the invariant of Safety. -/

namespace Sys2Proof.Machine

/-- What every operation keeps. -/
structure Kept (s t : State) : Prop where
  pending : t.pending = s.pending
  now : t.now = s.now
  inv : s.Inv → t.Inv
  lifecycle : t.live.sec.lifecycle = s.live.sec.lifecycle

theorem Kept.refl (s : State) : Kept s s := ⟨rfl, rfl, id, rfl⟩
theorem Kept.trans {a b c : State} (h : Kept a b) (h2 : Kept b c) : Kept a c :=
  ⟨h2.pending.trans h.pending, h2.now.trans h.now, fun x => h2.inv (h.inv x), h2.lifecycle.trans h.lifecycle⟩
theorem Kept.of_quiet {s t : State} (h : Quiet s t) : Kept s t := ⟨h.pending, h.now, h.inv, h.lifecycle⟩
theorem Kept.of_view {s t : State} (h : t.view = s.view) : Kept s t := .of_quiet (.inl h)
theorem Kept.of_cleared {s t : State} (h : Cleared s t) : Kept s t := .of_quiet (.inr h)
theorem Kept.epc (s : State) (f : Epc → Epc) : Kept s (s.modEpc f) :=
  ⟨rfl, rfl, fun h => ⟨h.numbers, h.given, h.intact, h.beside, h.one, h.room⟩, rfl⟩
theorem Kept.of_any {s t : State} (h : t.view.anyEpoch = s.view.anyEpoch) : Kept s t := by
  refine ⟨(congrArg View.pending h :), (congrArg View.now h :), fun hi => ?_, (congrArg View.lifecycle h :)⟩
  have hs : s.view.anyEpoch.Inv := ⟨hi.numbers, hi.given, hi.intact, hi.beside, hi.one, hi.room⟩
  rw [← h] at hs
  exact ⟨hs.numbers, hs.given, hs.intact, hs.beside, hs.one, hs.room⟩
theorem Kept.then {a b c : State} (h : Kept a b) (h2 : c.view = b.view) : Kept a c := h.trans (.of_view h2)

theorem Kept.foldl {α : Type} (f : State → α → State) (h : ∀ s x, Kept s (f s x)) (l : List α) (s : State) :
    Kept s (l.foldl f s) := by
  induction l generalizing s with
  | nil => exact .refl s
  | cons x l ih => exact (h s x).trans (ih _)

theorem externalStaged_append (l m : List Staged) : externalStaged (l ++ m) = externalStaged l + externalStaged m := by
  simp [externalStaged]

theorem externalStaged_le (l : List Staged) : externalStaged l ≤ l.length := List.length_filter_le _ _

theorem externalStaged_filter (p : Staged → Bool) (l : List Staged) : externalStaged (l.filter p) ≤ externalStaged l := by
  exact (List.Sublist.filter _ List.filter_sublist).length_le

/-! Changes of one part outside the blocks. -/

theorem Kept.number (s : State) : Kept s { s with nextTxn := s.nextTxn + 1 } :=
  ⟨rfl, rfl, fun h => ⟨h.numbers, fun t ht => Nat.lt_succ_of_lt (h.given t ht), h.intact, h.beside, h.one, h.room⟩, rfl⟩

theorem Kept.drop (s : State) (p : Txn → Bool) : Kept s { s with txns := s.txns.filter p } := by
  refine ⟨rfl, rfl, fun h => ⟨?_, ?_, ?_, h.beside, h.one, h.room⟩, rfl⟩
  · exact h.numbers.sublist (List.filter_sublist.map _)
  · exact fun t ht => h.given t ((List.mem_filter.mp ht).1)
  · exact fun t ht => h.intact t ((List.mem_filter.mp ht).1)

theorem Kept.stage (s : State) (new : List Staged) (h : externalStaged s.staged + externalStaged new ≤ stagingMax) :
    Kept s { s with staged := s.staged ++ new } := by
  refine ⟨rfl, rfl, fun hs => ⟨hs.numbers, hs.given, hs.intact, hs.beside, hs.one, ?_⟩, rfl⟩
  show externalStaged (s.staged ++ new) ≤ _
  rw [externalStaged_append]
  exact h

theorem Kept.stage_or (s : State) (new : List Staged) (h : new = [] ∨ externalStaged s.staged + externalStaged new ≤ stagingMax) :
    Kept s { s with staged := s.staged ++ new } := by
  rcases h with rfl | h
  · rw [List.append_nil]
    exact .refl s
  · exact .stage s new h

theorem Kept.unstage (s : State) (p : Staged → Bool) : Kept s { s with staged := s.staged.filter p } :=
  ⟨rfl, rfl, fun h => ⟨h.numbers, h.given, h.intact, h.beside, h.one, Nat.le_trans (externalStaged_filter p s.staged) h.room⟩, rfl⟩

/-- A transaction put in the place of the open one of its number. -/
theorem Kept.put (s : State) (f : Txn → Txn) (hid : ∀ t, (f t).id = t.id) (hr : s.Inv → ∀ t ∈ s.txns, (f t).readEpoch = t.readEpoch) :
    Kept s { s with txns := s.txns.map f } := by
  refine ⟨rfl, rfl, fun h => ⟨?_, ?_, ?_, h.beside, h.one, h.room⟩, rfl⟩
  · have : (s.txns.map f).map Txn.id = s.txns.map Txn.id := by simp [hid]
    show ((s.txns.map f).map Txn.id).Nodup
    rw [this]; exact h.numbers
  · intro t ht
    obtain ⟨u, hu, rfl⟩ := List.mem_map.mp ht
    exact hid u ▸ h.given u hu
  · intro t ht
    obtain ⟨u, hu, rfl⟩ := List.mem_map.mp ht
    rw [hr h u hu]
    exact h.intact u hu

/-- A new transaction, of the number last given, on the published bank. -/
theorem Kept.open (s : State) (t : Txn) (hid : t.id = s.nextTxn) (hr : s.pub.map Bank.epoch = some t.readEpoch) :
    Kept s { s with nextTxn := s.nextTxn + 1, txns := s.txns ++ [t] } := by
  refine ⟨rfl, rfl, fun h => ⟨?_, ?_, ?_, h.beside, h.one, h.room⟩, rfl⟩
  · show ((s.txns ++ [t]).map Txn.id).Nodup
    rw [List.map_append, List.nodup_append]
    refine ⟨h.numbers, by simp, ?_⟩
    intro a ha b hb
    obtain ⟨u, hu, rfl⟩ := List.mem_map.mp ha
    have := h.given u hu
    simp only [List.map_cons, List.map_nil, List.mem_singleton] at hb
    have : u.id < s.nextTxn := this
    omega
  · intro u hu
    rcases List.mem_append.mp hu with hu | hu
    · exact Nat.lt_succ_of_lt (h.given u hu)
    · rw [List.mem_singleton.mp hu]
      show t.id < s.nextTxn + 1
      omega
  · intro u hu
    rcases List.mem_append.mp hu with hu | hu
    · exact h.intact u hu
    · rw [List.mem_singleton.mp hu]
      exact .inl hr

theorem Kept.open_after {s r : State} (t : Txn) (hv : r.view = ({ s with nextTxn := s.nextTxn + 1 } : State).view)
    (hid : t.id = s.nextTxn) (hr : s.pub.map Bank.epoch = some t.readEpoch) :
    Kept s { r with txns := r.txns ++ [t] } := by
  have h := Kept.open s t hid hr
  have hw : ({ r with txns := r.txns ++ [t] } : State).view =
      ({ s with nextTxn := s.nextTxn + 1, txns := s.txns ++ [t] } : State).view := by
    have h1 : r.txns = s.txns := congrArg View.txns hv
    have h2 := hv
    simp only [State.view, View.mk.injEq] at h2 ⊢
    simp_all
  exact ⟨(View.congr_pending hv :), (View.congr_now hv :), fun hs => by unfold State.Inv; rw [hw]; exact h.inv hs,
    (View.congr_lifecycle hv :)⟩

theorem Kept.put_after {s r : State} (f : Txn → Txn) (hv : r.view = s.view) (hid : ∀ x, (f x).id = x.id)
    (hr : s.Inv → ∀ x ∈ s.txns, (f x).readEpoch = x.readEpoch) : Kept s { r with txns := r.txns.map f } := by
  refine (Kept.of_view hv).trans (Kept.put r f hid fun hi x hx => hr ?_ x ?_)
  · unfold State.Inv at hi; rw [hv] at hi; exact hi
  · rw [View.congr_txns hv] at hx; exact hx

theorem only_one {l : List Txn} (h : (l.map Txn.id).Nodup) {t u : Txn} (ht : t ∈ l) (hu : u ∈ l) (hid : u.id = t.id) : u = t :=
  by
  induction l with
  | nil => cases ht
  | cons x l ih =>
    rw [List.map_cons, List.nodup_cons] at h
    rcases List.mem_cons.mp ht with rfl | ht <;> rcases List.mem_cons.mp hu with rfl | hu
    · rfl
    · exact absurd (hid ▸ List.mem_map_of_mem hu) h.1
    · rename_i h2
      exact absurd (hid ▸ List.mem_map_of_mem h2) h.1
    · exact ih h.2 ht hu

/-! Transactions. -/

theorem State.access_fst_view (s : State) (t : Txn) (a : Access) : (s.access t a).1.view = s.view := by
  unfold State.access
  cases a with
  | rd addr => rfl
  | wr addr w =>
    dsimp only
    split
    · simp
    · rename_i r h
      split
      · split <;> simp
      · split
        · rfl
        · have hw : (if r.w1c = 0 then s else s.applyWrite t.src t.role 0 addr w).view = s.view := by
            split
            · rfl
            · exact State.applyWrite_view _ _ _ _ _ _ (updCtrl_not h (.inr (by assumption)))
          dsimp only
          split
          · exact hw
          · refine Eq.trans ?_ ((State.immediate_view _ t.src t.id addr w).trans hw)
            split <;> simp

theorem State.access_id (s : State) (t : Txn) (a : Access) : (s.access t a).2.id = t.id := by
  unfold State.access
  cases a with
  | rd addr => rfl
  | wr addr w => dsimp only; (repeat' split) <;> rfl

theorem State.access_readEpoch (s : State) (t : Txn) (a : Access) : (s.access t a).2.readEpoch = t.readEpoch := by
  unfold State.access
  cases a with
  | rd addr => rfl
  | wr addr w => dsimp only; (repeat' split) <;> rfl

theorem State.access_all (as : List Access) (s : State) (t : Txn) :
    let r := as.foldl (fun (p : State × Txn) a => p.1.access p.2 a) (s, t)
    r.1.view = s.view ∧ r.2.id = t.id ∧ r.2.readEpoch = t.readEpoch := by
  induction as generalizing s t with
  | nil => exact ⟨rfl, rfl, rfl⟩
  | cons a as ih =>
    have h := ih (s.access t a).1 (s.access t a).2
    exact ⟨h.1.trans (State.access_fst_view s t a), h.2.1.trans (State.access_id s t a), h.2.2.trans (State.access_readEpoch s t a)⟩

theorem State.closeTxn_kept (s : State) (t : Txn) : Kept s (s.closeTxn t) := by
  refine (Kept.drop s (fun x => x.id ≠ t.id)).trans ?_
  unfold State.closeTxn
  generalize { s with txns := s.txns.filter fun x => x.id ≠ t.id } = u
  dsimp only
  generalize hb : (if (t.moduleReset ≠ 0 && t.blockBits ≠ 0) = true then
    ({ t with dropped := t.dropped + t.blockWrites, blockBits := 0 } : Txn) else t) = t2
  have hw : t2.writes = t.writes := by subst hb; split <;> rfl
  generalize hv : (if (t.moduleReset ≠ 0 && t.blockBits ≠ 0) = true then
    (List.range t.blockWrites).foldl (fun (s : State) _ => s.werr 0x288 t.src .value) u else u) = v
  have hvv : v.view = u.view := by
    subst hv
    exact view_ite_self (view_foldl _ (fun x _ => by simp) _ _)
  generalize hr : v.requestResets t2.moduleReset t2.blockBits 0 = r
  have hrv : r.view = u.view := by subst hr; exact (State.requestResets_view _ _ _ _).trans hvv
  refine (Kept.of_view hrv).trans ?_
  split
  · exact .of_view (by simp)
  · rename_i hcap
    have hf : ((t2.writes.filter fun x => !r.writeOk (r.bankOf t2.readEpoch) t2.src t2.writes x.1 x.2).foldl
        (fun (s : State) x => s.werr x.1 t2.src .value) r).view = r.view := view_foldl _ (fun x _ => by simp) _ _
    refine (Kept.of_view hf).trans ?_
    refine Kept.then (Kept.stage_or _ _ ?_) (State.answer_view _ _ _ _)
    rw [View.congr_external hf]
    by_cases he : t2.writes = []
    · exact .inl (by simp [he])
    · refine .inr (Nat.le_trans (Nat.add_le_add_left (externalStaged_le _) _) ?_)
      rw [List.length_map]
      refine Nat.le_trans (Nat.add_le_add_left (List.length_filter_le _ _) _) ?_
      have : ¬ stagingMax < externalStaged r.staged + t2.writes.length := fun h => hcap ⟨h, he⟩
      omega

theorem pub_epoch {s : State} (h : s.pub.isNone ≠ true) : s.pub.map Bank.epoch = some ((s.pub.map Bank.epoch).getD 0) := by
  cases hp : s.pub with
  | none => simp [hp] at h
  | some b => rfl

theorem State.refuse_view (s : State) (t : Txn) (o : TxnOutcome) : (s.refuse t o).view = s.view := by
  unfold State.refuse
  rw [State.answer_view]
  exact view_ite_self (view_modSec _ _ rfl)

theorem State.accessAll_all (s : State) (t : Txn) (as : List Access) :
    (s.accessAll t as).1.view = s.view ∧ (s.accessAll t as).2.id = t.id ∧ (s.accessAll t as).2.readEpoch = t.readEpoch :=
  State.access_all as s t

theorem State.transact_kept (s : State) (src : Source) (role : Role) (session dur : Nat) (reply : ReplyTo) (as : List Access) :
    Kept s (s.transact src role session dur reply as) := by
  have hn := Kept.number s
  unfold State.transact
  dsimp only
  split
  · exact hn.then (by simp)
  rename_i hpub
  split
  · exact hn.then (State.refuse_view _ _ _)
  obtain ⟨hv, hid, hre⟩ := State.accessAll_all { s with nextTxn := s.nextTxn + 1 } (emptyTxn s src role session reply) as
  split
  · exact (hn.then hv).trans (State.closeTxn_kept _ _)
  · exact Kept.open_after _ hv hid (by rw [pub_epoch hpub]; exact congrArg some hre.symm)

theorem State.closeDue_kept (s : State) : Kept s s.closeDue := by
  unfold State.closeDue
  exact Kept.foldl _ (fun x src => Kept.foldl _ (fun y t => State.closeTxn_kept y t) _ _) _ _

theorem State.burstAll_kept (s : State) (n : Nat) (as : List Access) : Kept s (s.burstAll n as) :=
  Kept.put s _ (fun x => by split <;> rfl) fun _ x _ => by split <;> rfl

theorem State.closeBurst_kept (s : State) (t : Txn) : Kept s (s.closeBurst t) := by
  unfold State.closeBurst
  split
  · exact (Kept.drop s fun x => x.id ≠ t.id).then (State.refuse_view _ _ _)
  · exact (Kept.of_view (State.accessAll_all _ _ _).1).trans (State.closeTxn_kept _ _)

theorem State.submit_kept (s : State) (w : Who) (as : List Access) : Kept s (s.submit w as) := by
  unfold State.submit
  split
  · exact .refl s
  · split
    · exact .refl s
    · split
      · exact (Kept.of_view (view_modSec _ _ rfl)).trans (State.burstAll_kept _ _ _)
      · exact (Kept.of_view (view_modSec _ _ rfl)).trans (State.transact_kept _ _ _ _ _ _ _)
      · exact State.transact_kept _ _ _ _ _ _ _

/-! Banks and the commit. -/

theorem State.finishPour_kept (s : State) : Kept s s.finishPour := by
  unfold State.finishPour
  split
  · exact .refl s
  · rename_i b hb
    have h : ∀ x : State, x.view.anyEpoch = s.view.anyEpoch → Kept s { x with prev := x.pub, pub := some b, prep := none } := by
      intro x hx
      refine ⟨(congrArg View.pending hx :), (congrArg View.now hx :), fun hi => ?_, (congrArg View.lifecycle hx :)⟩
      have hx' : x.Inv := (Kept.of_any hx).inv hi
      have hn : x.prev = none := hx'.one (by
        show x.prep.isSome = true
        rw [show x.prep.isSome = s.prep.isSome from (congrArg View.prepares hx :), hb]; rfl)
      refine ⟨hx'.numbers, hx'.given, fun t ht => .inr ?_, fun _ => rfl, fun hp => Bool.noConfusion hp, hx'.room⟩
      rcases hx'.intact t ht with h | h
      · exact h
      · have h' : x.prev.map Bank.epoch = some t.readEpoch := h
        rw [hn] at h'
        cases h'
    refine h _ ?_
    rw [view_ite, State.journal_view _ _ _ _, ite_self, anyEpoch_modEpc]

theorem State.reclaim_kept (s : State) : Kept s s.reclaim := by
  unfold State.reclaim
  refine Kept.trans (b := { s with prev := none, txns := s.txns.filter fun t => t.readEpoch = (s.pub.map Bank.epoch).getD 0 }) ?_
    (.of_view (view_foldl _ (fun x t => by simp) _ _))
  refine ⟨rfl, rfl, fun h => ⟨?_, ?_, ?_, fun hp => Bool.noConfusion hp, fun _ => rfl, h.room⟩, rfl⟩
  · exact h.numbers.sublist (List.filter_sublist.map _)
  · exact fun t ht => h.given t (List.mem_filter.mp ht).1
  · intro t ht
    obtain ⟨hm, he⟩ := List.mem_filter.mp ht
    have he : t.readEpoch = (s.pub.map Bank.epoch).getD 0 := by simpa using he
    refine .inl ?_
    have hp : s.pub.isSome := by
      rcases h.intact t hm with h1 | h1
      · have h1 : s.pub.map Bank.epoch = some t.readEpoch := h1
        cases hp : s.pub with
        | none => rw [hp] at h1; cases h1
        | some _ => rfl
      · have h1 : s.prev.map Bank.epoch = some t.readEpoch := h1
        refine h.beside ?_
        show s.prev.isSome = true
        cases hp : s.prev with
        | none => rw [hp] at h1; cases h1
        | some _ => rfl
    show s.pub.map Bank.epoch = some t.readEpoch
    cases hq : s.pub with
    | none => rw [hq] at hp; cases hp
    | some b => rw [hq] at he; rw [he]; rfl

theorem State.reclaim_prev (s : State) : s.reclaim.prev = none := by
  unfold State.reclaim
  exact View.congr_prev (view_foldl _ (fun x t => by simp) _ _)

@[simp] theorem State.commitCounts_view (s : State) (ws : List Staged) (bad : List Nat) (lost : Nat) :
    (s.commitCounts ws bad lost).view = s.view := by
  unfold State.commitCounts; dsimp only
  rw [view_modEpc _ _ rfl rfl]
  exact (view_foldl _ (fun x g => by simp) _ _).trans (view_foldl _ (fun x src => view_modEpc _ _ (by
    unfold Epc.committed; split <;> rfl) (by unfold Epc.committed; split <;> rfl)) _ _)

@[simp] theorem State.commitTail_view (s : State) (rest win : List Staged) : (s.commitTail rest win).view = s.view := by
  unfold State.commitTail
  dsimp only
  rw [view_ite_self (by simp), State.installCals_view, State.takePairs_view]
  exact view_ite_self (State.noExec_view s)

theorem State.commitWinners_quiet (s : State) (rest win : List Staged) : Quiet s (s.commitWinners rest win) := by
  unfold State.commitWinners
  dsimp only
  exact ((Quiet.foldl _ State.commitOne_quiet (rest.filter fun x => !hasCommand x.addr) s).then
    (view_ite_self (State.commitWindow_view _ _))).trans (Quiet.foldl _ State.commitOne_quiet _ _)

theorem State.commitStaged_kept (s : State) : Kept s s.commitStaged := by
  unfold State.commitStaged
  dsimp only
  exact (Kept.unstage s _).trans (.of_quiet (((State.commitWinners_quiet _ _ _).then (State.commitTail_view _ _ _)).after
    (State.commitCounts_view _ _ _ _)))

end Sys2Proof.Machine
end

