-- ==== Sys2Proof/Laws/KeptCmds.lean ====
section
/-! SUPPORT. What each command keeps: one lemma per meaning. -/

namespace Sys2Proof.Machine

/-- Whatever next state an outcome holds, it is one that keeps. -/
def KeptBy (s : State) (o : Host.Outcome State Fault Refusal) : Prop := ∀ t, o = .next t → Kept s t

theorem KeptBy.next {s t : State} (h : Kept s t) : KeptBy s (.next t) := fun u hu => by cases hu; exact h

theorem execLivenessStage_kept (s : State) : KeptBy s (execLivenessStage s) := by
  unfold execLivenessStage; dsimp only
  split
  · exact .next (.refl s)
  · exact .next (.of_view (by rw [view_modEpc _ _ rfl rfl]; simp))

theorem execDpAbsent_kept (s : State) : KeptBy s (execDpAbsent s) := by
  unfold execDpAbsent; dsimp only; (repeat' split) <;> exact .next (.of_view (by simp))

theorem execRegisterWrite_kept (w : Who) (addr : Nat) (v : Word) (s : State) : KeptBy s (execRegisterWrite w addr v s) := by
  unfold execRegisterWrite; exact .next (State.submit_kept _ _ _)

theorem execCrystalLoss_kept (s : State) : KeptBy s (execCrystalLoss s) := by
  unfold execCrystalLoss; (repeat' split) <;> exact .next (.of_view (by simp))

theorem execEpcClrStats_kept (w : Who) (s : State) : KeptBy s (execEpcClrStats w s) := by
  unfold execEpcClrStats; exact .next (State.submit_kept _ _ _)

theorem execBootStart_kept (ratio : Nat) (s : State) : KeptBy s (execBootStart ratio s) := by
  unfold execBootStart; (repeat' split) <;> exact .next (.of_view (by simp))

theorem execOpeningEpoch_kept (s : State) : KeptBy s (execOpeningEpoch s) := by
  unfold execOpeningEpoch; (repeat' split) <;> exact .next (.of_view (by simp))

theorem execHorizonStepBoundary_kept (s : State) : KeptBy s (execHorizonStepBoundary s) := by
  unfold execHorizonStepBoundary; dsimp only; (repeat' split) <;> exact .next (.of_view (by simp [view_foldl]))

theorem execSeriesSubmit_kept (w : Who) (words : List Word) (s : State) : KeptBy s (execSeriesSubmit w words s) := by
  unfold execSeriesSubmit; exact .next (State.submit_kept _ _ _)

theorem execRefreshAll_kept (w : Who) (hold : Bool) (s : State) : KeptBy s (execRefreshAll w hold s) := by
  unfold execRefreshAll; exact .next (State.submit_kept _ _ _)

theorem execIdentHold_kept (w : Who) (hold : Bool) (s : State) : KeptBy s (execIdentHold w hold s) := by
  unfold execIdentHold; exact .next (State.submit_kept _ _ _)

theorem execAsmClrStats_kept (w : Who) (hold : Bool) (s : State) : KeptBy s (execAsmClrStats w hold s) := by
  unfold execAsmClrStats; exact .next (State.submit_kept _ _ _)

theorem execAsmRelease_kept (w : Who) (hold : Bool) (s : State) : KeptBy s (execAsmRelease w hold s) := by
  unfold execAsmRelease; exact .next (State.submit_kept _ _ _)

theorem execParamOverride_kept (w : Who) (v : Word) (s : State) : KeptBy s (execParamOverride w v s) := by
  unfold execParamOverride; exact .next (State.submit_kept _ _ _)

theorem execParamSave_kept (s : State) : KeptBy s (execParamSave s) := by
  unfold execParamSave; (repeat' split) <;> exact .next (.of_view (by simp [State.saveParams]))

theorem execKnownAnswerTest_kept (bad : List Nat) (s : State) : KeptBy s (execKnownAnswerTest bad s) := by
  unfold execKnownAnswerTest; dsimp only; (repeat' split) <;> exact .next (.of_view (by simp [view_foldl]))

theorem execEntryStart_kept (l : Nat) (s : State) : KeptBy s (execEntryStart l s) := by
  unfold execEntryStart; (repeat' split) <;> exact .next (.of_view (by simp))

theorem execEntryEnd_kept (l ce : Nat) (s : State) : KeptBy s (execEntryEnd l ce s) := by
  unfold execEntryEnd; (repeat' split) <;> exact .next (.of_view (by simp))

theorem execSolveDeadline_kept (s : State) : KeptBy s (execSolveDeadline s) := by
  unfold execSolveDeadline; (repeat' split) <;> exact .next (.of_view (by simp))

theorem execCrucibleFault_kept (l : Nat) (ecc : Bool) (bad : List Nat) (s : State) : KeptBy s (execCrucibleFault l ecc bad s) := by
  unfold execCrucibleFault; dsimp only; (repeat' split) <;> exact .next (.of_view (by simp))

theorem execColdNext_kept (w : Who) (s : State) : KeptBy s (execColdNext w s) := by
  unfold execColdNext; exact .next (State.submit_kept _ _ _)

theorem execSlvClrStats_kept (w : Who) (s : State) : KeptBy s (execSlvClrStats w s) := by
  unfold execSlvClrStats; exact .next (State.submit_kept _ _ _)

theorem execHoldEnd_kept (s : State) : KeptBy s (execHoldEnd s) := by
  unfold execHoldEnd; (repeat' split) <;> exact .next (.of_view (by simp))

theorem execGridLossConfirm_kept (s : State) : KeptBy s (execGridLossConfirm s) := by
  unfold execGridLossConfirm; dsimp only; (repeat' split) <;> exact .next (.of_view (by simp))

theorem execIslandEnter_kept (s : State) : KeptBy s (execIslandEnter s) := by
  unfold execIslandEnter; (repeat' split) <;> exact .next (.of_view (by simp))

theorem execGridRestore_kept (s : State) : KeptBy s (execGridRestore s) := by
  unfold execGridRestore; (repeat' split) <;> exact .next (.of_view (by simp))

theorem execIslandLeave_kept (s : State) : KeptBy s (execIslandLeave s) := by
  unfold execIslandLeave; (repeat' split) <;> exact .next (.of_view (by simp))

theorem execGroupRestore_kept (s : State) : KeptBy s (execGroupRestore s) := by
  unfold execGroupRestore; (repeat' split) <;> exact .next (.of_view (by simp))

theorem execIslCmdEnter_kept (w : Who) (s : State) : KeptBy s (execIslCmdEnter w s) := by
  unfold execIslCmdEnter; exact .next (State.submit_kept _ _ _)

theorem execIslCmdLeave_kept (w : Who) (s : State) : KeptBy s (execIslCmdLeave w s) := by
  unfold execIslCmdLeave; exact .next (State.submit_kept _ _ _)

theorem execPlnClrStats_kept (w : Who) (s : State) : KeptBy s (execPlnClrStats w s) := by
  unfold execPlnClrStats; exact .next (State.submit_kept _ _ _)

theorem execOutputInstant_kept (s : State) : KeptBy s (execOutputInstant s) := by
  unfold execOutputInstant; split <;> exact .next (.of_view (by simp))

theorem execSetpointWrite_kept (w : Who) (n : Nat) (v : Word) (s : State) : KeptBy s (execSetpointWrite w n v s) := by
  unfold execSetpointWrite; split; exact .next (State.submit_kept _ _ _); exact .next (.refl s)

theorem execLpeHand_kept (w : Who) (s : State) : KeptBy s (execLpeHand w s) := by
  unfold execLpeHand; exact .next (State.submit_kept _ _ _)

theorem execLpeAuto_kept (w : Who) (s : State) : KeptBy s (execLpeAuto w s) := by
  unfold execLpeAuto; exact .next (State.submit_kept _ _ _)

theorem execLpeAutoAll_kept (w : Who) (s : State) : KeptBy s (execLpeAutoAll w s) := by
  unfold execLpeAutoAll; exact .next (State.submit_kept _ _ _)

theorem execLpeHandValue_kept (w : Who) (v : Word) (s : State) : KeptBy s (execLpeHandValue w v s) := by
  unfold execLpeHandValue; exact .next (State.submit_kept _ _ _)

theorem execInjArm_kept (w : Who) (s : State) : KeptBy s (execInjArm w s) := by
  unfold execInjArm; exact .next (State.submit_kept _ _ _)

theorem execInjAbort_kept (w : Who) (s : State) : KeptBy s (execInjAbort w s) := by
  unfold execInjAbort; exact .next (State.submit_kept _ _ _)

theorem execPreSamplesDone_kept (s : State) : KeptBy s (execPreSamplesDone s) := by
  unfold execPreSamplesDone; (repeat' split) <;> exact .next (.of_view (by simp))

theorem execInjectionDone_kept (s : State) : KeptBy s (execInjectionDone s) := by
  unfold execInjectionDone; (repeat' split) <;> exact .next (.of_view (by simp))

theorem execLpeClrStats_kept (w : Who) (s : State) : KeptBy s (execLpeClrStats w s) := by
  unfold execLpeClrStats; exact .next (State.submit_kept _ _ _)

theorem execLogicCycle_kept (us : Nat) (ops : List LogicOp) (s : State) : KeptBy s (execLogicCycle us ops s) := by
  unfold execLogicCycle; (repeat' split) <;> exact .next (.of_view (by simp))

theorem execLogicWatchdog_kept (net : Nat) (s : State) : KeptBy s (execLogicWatchdog net s) := by
  unfold execLogicWatchdog; dsimp only; (repeat' split) <;> exact .next (.of_view (by simp [view_foldl]))

theorem execLgcRestart_kept (w : Who) (s : State) : KeptBy s (execLgcRestart w s) := by
  unfold execLgcRestart; exact .next (State.submit_kept _ _ _)

theorem execForceSet_kept (w : Who) (tag : Nat) (v : Word) (s : State) : KeptBy s (execForceSet w tag v s) := by
  unfold execForceSet; exact .next (State.submit_kept _ _ _)

theorem execForceRemove_kept (w : Who) (tag : Nat) (s : State) : KeptBy s (execForceRemove w tag s) := by
  unfold execForceRemove; exact .next (State.submit_kept _ _ _)

theorem execForceRemoveAll_kept (w : Who) (s : State) : KeptBy s (execForceRemoveAll w s) := by
  unfold execForceRemoveAll; exact .next (State.submit_kept _ _ _)

theorem execHostTagWrite_kept (w : Who) (k tag : Nat) (v : Word) (s : State) : KeptBy s (execHostTagWrite w k tag v s) := by
  unfold execHostTagWrite; split; exact .next (State.submit_kept _ _ _); exact .next (.refl s)

theorem execLgcClrStats_kept (w : Who) (s : State) : KeptBy s (execLgcClrStats w s) := by
  unfold execLgcClrStats; exact .next (State.submit_kept _ _ _)

theorem execOnlineChangeCheck_kept (s : State) : KeptBy s (execOnlineChangeCheck s) := by
  unfold execOnlineChangeCheck; (repeat' split) <;> exact .next (.of_view (by simp))

theorem execChangeEpoch_kept (s : State) : KeptBy s (execChangeEpoch s) := by
  unfold execChangeEpoch; (repeat' split) <;> exact .next (.of_view (by simp))

theorem execPassStart_kept (g : Nat) (samples : List (Nat × Nat × Int × Bool)) (s : State) : KeptBy s (execPassStart g samples s) := by
  unfold execPassStart; exact .next (.of_view (by simp))

theorem execFchStart_kept (w : Who) (n : Nat) (s : State) : KeptBy s (execFchStart w n s) := by
  unfold execFchStart State.writeChan; split; exact .next (State.submit_kept _ _ _); exact .next (.refl s)

theorem execFchUrgent_kept (w : Who) (n : Nat) (s : State) : KeptBy s (execFchUrgent w n s) := by
  unfold execFchUrgent State.writeChan; split; exact .next (State.submit_kept _ _ _); exact .next (.refl s)

theorem execFchHand_kept (w : Who) (n : Nat) (s : State) : KeptBy s (execFchHand w n s) := by
  unfold execFchHand State.writeChan; split; exact .next (State.submit_kept _ _ _); exact .next (.refl s)

theorem execFchAuto_kept (w : Who) (n : Nat) (s : State) : KeptBy s (execFchAuto w n s) := by
  unfold execFchAuto State.writeChan; split; exact .next (State.submit_kept _ _ _); exact .next (.refl s)

theorem execFltReset_kept (w : Who) (n : Nat) (s : State) : KeptBy s (execFltReset w n s) := by
  unfold execFltReset State.writeChan; split; exact .next (State.submit_kept _ _ _); exact .next (.refl s)

theorem execFchHandValue_kept (w : Who) (n : Nat) (v : Word) (s : State) : KeptBy s (execFchHandValue w n v s) := by
  unfold execFchHandValue State.writeChan; split; exact .next (State.submit_kept _ _ _); exact .next (.refl s)

theorem execSliceHandover_kept (s : State) : KeptBy s (execSliceHandover s) := by
  unfold execSliceHandover; dsimp only; (repeat' split) <;> exact .next (.of_view (by simp))

theorem execCalibrationVisitEnd_kept (k : Nat) (zeroSum refSum midSum zeroSquares : Int) (s : State) : KeptBy s (execCalibrationVisitEnd k zeroSum refSum midSum zeroSquares s) := by
  unfold execCalibrationVisitEnd; dsimp only; (repeat' split) <;> exact .next (.of_view (by simp))

theorem execSliceStuck_kept (k : Nat) (s : State) : KeptBy s (execSliceStuck k s) := by
  unfold execSliceStuck; dsimp only; (repeat' split) <;> exact .next (.of_view (by simp [view_foldl]))

theorem execCalZero_kept (w : Who) (n : Nat) (s : State) : KeptBy s (execCalZero w n s) := by
  unfold execCalZero State.writeChan; split; exact .next (State.submit_kept _ _ _); exact .next (.refl s)

theorem execCalSpan_kept (w : Who) (n : Nat) (s : State) : KeptBy s (execCalSpan w n s) := by
  unfold execCalSpan State.writeChan; split; exact .next (State.submit_kept _ _ _); exact .next (.refl s)

theorem execCalAverageDone_kept (n : Nat) (s : State) : KeptBy s (execCalAverageDone n s) := by
  unfold execCalAverageDone; dsimp only; (repeat' split) <;> exact .next (.of_view (by simp))

theorem execCalAccept_kept (w : Who) (n : Nat) (s : State) : KeptBy s (execCalAccept w n s) := by
  unfold execCalAccept State.writeChan; split; exact .next (State.submit_kept _ _ _); exact .next (.refl s)

theorem execCalDiscard_kept (w : Who) (n : Nat) (s : State) : KeptBy s (execCalDiscard w n s) := by
  unfold execCalDiscard State.writeChan; split; exact .next (State.submit_kept _ _ _); exact .next (.refl s)

theorem execCalFactory_kept (w : Who) (n : Nat) (s : State) : KeptBy s (execCalFactory w n s) := by
  unfold execCalFactory State.writeChan; split; exact .next (State.submit_kept _ _ _); exact .next (.refl s)

theorem execOutputFaultTimer_kept (n : Nat) (openLoad on : Bool) (s : State) : KeptBy s (execOutputFaultTimer n openLoad on s) := by
  unfold execOutputFaultTimer; dsimp only; (repeat' split) <;> exact .next (.of_view (by simp))

theorem execStageTrip_kept (n : Nat) (s : State) : KeptBy s (execStageTrip n s) := by
  unfold execStageTrip; dsimp only; (repeat' split) <;> exact .next (.of_view (by simp))

theorem execTripRetry_kept (n : Nat) (s : State) : KeptBy s (execTripRetry n s) := by
  unfold execTripRetry; dsimp only; (repeat' split) <;> exact .next (.of_view (by simp))

theorem execShuntOpen_kept (n : Nat) (s : State) : KeptBy s (execShuntOpen n s) := by
  unfold execShuntOpen; dsimp only; (repeat' split) <;> exact .next (.of_view (by simp))

theorem execShuntRetry_kept (n : Nat) (s : State) : KeptBy s (execShuntRetry n s) := by
  unfold execShuntRetry; dsimp only; (repeat' split) <;> exact .next (.of_view (by simp))

theorem execVfldLow_kept (mv : Nat) (s : State) : KeptBy s (execVfldLow mv s) := by
  unfold execVfldLow; (repeat' split) <;> exact .next (.of_view (by simp))

theorem execVfldRestored_kept (mv : Nat) (s : State) : KeptBy s (execVfldRestored mv s) := by
  unfold execVfldRestored; (repeat' split) <;> exact .next (.of_view (by simp))

theorem execFchClrStats_kept (w : Who) (s : State) : KeptBy s (execFchClrStats w s) := by
  unfold execFchClrStats; exact .next (State.submit_kept _ _ _)

theorem execKickEnd_kept (d : Nat) (s : State) : KeptBy s (execKickEnd d s) := by
  unfold execKickEnd; dsimp only; (repeat' split) <;> exact .next (.of_view (by simp))

theorem execRetryWaitEnd_kept (d : Nat) (s : State) : KeptBy s (execRetryWaitEnd d s) := by
  unfold execRetryWaitEnd; dsimp only; (repeat' split) <;> exact .next (.of_view (by simp))

theorem execTachLoss_kept (d : Nat) (s : State) : KeptBy s (execTachLoss d s) := by
  unfold execTachLoss; dsimp only; (repeat' split) <;> exact .next (.of_view (by simp))

theorem execLowSpeedRekick_kept (d : Nat) (s : State) : KeptBy s (execLowSpeedRekick d s) := by
  unfold execLowSpeedRekick; dsimp only; (repeat' split) <;> exact .next (.of_view (by simp))

theorem execTachRecovery_kept (d : Nat) (s : State) : KeptBy s (execTachRecovery d s) := by
  unfold execTachRecovery; dsimp only; (repeat' split) <;> exact .next (.of_view (by simp))

theorem execStallRetry_kept (d : Nat) (s : State) : KeptBy s (execStallRetry d s) := by
  unfold execStallRetry; dsimp only; (repeat' split) <;> exact .next (.of_view (by simp))

theorem execFanRestart_kept (w : Who) (map : Word) (s : State) : KeptBy s (execFanRestart w map s) := by
  unfold execFanRestart; exact .next (State.submit_kept _ _ _)

theorem execFanClrStats_kept (w : Who) (s : State) : KeptBy s (execFanClrStats w s) := by
  unfold execFanClrStats; exact .next (State.submit_kept _ _ _)

theorem execReferencePeriodEnd_kept (g : Nat) (p : PeriodSums) (s : State) : KeptBy s (execReferencePeriodEnd g p s) := by
  unfold execReferencePeriodEnd; (repeat' split) <;> exact .next (.of_view (by simp))

theorem execReferenceSwitch_kept (g : Nat) (s : State) : KeptBy s (execReferenceSwitch g s) := by
  unfold execReferenceSwitch; (repeat' split) <;> exact .next (.of_view (by simp))

theorem execForcedPeriodClose_kept (g : Nat) (p : PeriodSums) (s : State) : KeptBy s (execForcedPeriodClose g p s) := by
  unfold execForcedPeriodClose; (repeat' split) <;> exact .next (.of_view (by simp))

theorem execGainChange_kept (g k : Nat) (up : Bool) (s : State) : KeptBy s (execGainChange g k up s) := by
  unfold execGainChange; dsimp only; (repeat' split) <;> exact .next (.of_view (by simp))

theorem execHeatSample_kept (m : Nat) (s : State) : KeptBy s (execHeatSample m s) := by
  unfold execHeatSample; (repeat' split) <;> exact .next (.of_view (by simp))

theorem execIntervalClose_kept (kind unit : Nat) (s : State) : KeptBy s (execIntervalClose kind unit s) := by
  unfold execIntervalClose; (repeat' split) <;> exact .next (.of_view (by simp))

theorem execPeriodicCapture_kept (us fails : Nat) (s : State) : KeptBy s (execPeriodicCapture us fails s) := by
  unfold execPeriodicCapture; (repeat' split) <;> exact .next (.of_view (by simp))

theorem execClearGroup_kept (w : Who) (g confirm : Nat) (s : State) : KeptBy s (execClearGroup w g confirm s) := by
  unfold execClearGroup; exact .next (State.submit_kept _ _ _)

theorem execClearMeter_kept (w : Who) (m confirm : Nat) (s : State) : KeptBy s (execClearMeter w m confirm s) := by
  unfold execClearMeter; exact .next (State.submit_kept _ _ _)

theorem execClearAll_kept (w : Who) (confirm : Nat) (s : State) : KeptBy s (execClearAll w confirm s) := by
  unfold execClearAll; exact .next (State.submit_kept _ _ _)

theorem execUnsAck_kept (w : Who) (s : State) : KeptBy s (execUnsAck w s) := by
  unfold execUnsAck; exact .next (State.submit_kept _ _ _)

theorem execNrgClrStats_kept (w : Who) (s : State) : KeptBy s (execNrgClrStats w s) := by
  unfold execNrgClrStats; exact .next (State.submit_kept _ _ _)

theorem execPartnerCodeChange_kept (code : Nat) (parity : Bool) (s : State) : KeptBy s (execPartnerCodeChange code parity s) := by
  unfold execPartnerCodeChange; dsimp only; (repeat' split) <;> exact .next (.of_view (by simp))

theorem execGateOpen_kept (gapNs : Nat) (s : State) : KeptBy s (execGateOpen gapNs s) := by
  unfold execGateOpen; dsimp only; (repeat' split) <;> exact .next (.of_view (by simp))

theorem execWatchdogFire_kept (cause : Nat) (s : State) : KeptBy s (execWatchdogFire cause s) := by
  unfold execWatchdogFire; (repeat' split) <;> exact .next (.of_view (by simp))

theorem execWatchdogReset_kept (s : State) : KeptBy s (execWatchdogReset s) := by
  unfold execWatchdogReset; dsimp only; (repeat' split) <;> first | exact .next (.refl s) | exact .next (.of_view (by simp)) | exact .next (.of_quiet ((State.pulseReset_quiet _ _ _).after (by simp)))

theorem execHeartbeatSend_kept (s : State) : KeptBy s (execHeartbeatSend s) := by
  unfold execHeartbeatSend; (repeat' split) <;> exact .next (.of_view (by simp))

@[simp] theorem State.followHand_view (s : State) (h : Heartbeat) : (s.followHand h).view = s.view := by
  unfold State.followHand; split <;> simp

theorem execHeartbeatFrame_kept (ok : Bool) (h : Heartbeat) (s : State) : KeptBy s (execHeartbeatFrame ok h s) := by
  unfold execHeartbeatFrame; (repeat' split) <;> exact .next (.of_view (by simp))

theorem execHbPathLost_kept (s : State) : KeptBy s (execHbPathLost s) := by
  unfold execHbPathLost; (repeat' split) <;> exact .next (.of_view (by simp))

theorem execLinkPathLost_kept (s : State) : KeptBy s (execLinkPathLost s) := by
  unfold execLinkPathLost; (repeat' split) <;> exact .next (.of_view (by simp))

theorem execPathRestored_kept (hb : Bool) (s : State) : KeptBy s (execPathRestored hb s) := by
  unfold execPathRestored; dsimp only; (repeat' split) <;> exact .next (.of_view (by simp))

theorem execKillInEnergised_kept (s : State) : KeptBy s (execKillInEnergised s) := by
  unfold execKillInEnergised; dsimp only; (repeat' split) <;> exact .next (.of_view (by simp))

theorem execKillInReleased_kept (s : State) : KeptBy s (execKillInReleased s) := by
  unfold execKillInReleased; dsimp only; (repeat' split) <;> exact .next (.of_view (by simp))

theorem execKillOutRelease_kept (s : State) : KeptBy s (execKillOutRelease s) := by
  unfold execKillOutRelease; dsimp only; (repeat' split) <;> exact .next (.of_view (by simp))

theorem execWaitTimeout_kept (s : State) : KeptBy s (execWaitTimeout s) := by
  unfold execWaitTimeout; dsimp only; (repeat' split) <;> exact .next (.of_view (by simp))

theorem execJoinFrame_kept (ok roleB ir4800 : Bool) (minor major seq : Nat) (digest : Bytes) (s : State) :
    KeptBy s (execJoinFrame ok roleB ir4800 minor major seq digest s) := by
  unfold execJoinFrame; dsimp only; (repeat' split) <;> exact .next (.of_view (by simp))

theorem execCalendarSyncStep_kept (s : State) : KeptBy s (execCalendarSyncStep s) := by
  unfold execCalendarSyncStep; (repeat' split) <;> exact .next (.of_view (by simp))

theorem execStaleTimeout_kept (s : State) : KeptBy s (execStaleTimeout s) := by
  unfold execStaleTimeout; dsimp only; (repeat' split) <;> exact .next (.of_view (by simp))

theorem execTagsFrame_kept (ok : Bool) (epoch : Nat) (tags : Machine.Table Machine.TagVal) (s : State) : KeptBy s (execTagsFrame ok epoch tags s) := by
  unfold execTagsFrame; (repeat' split) <;> exact .next (.of_view (by simp))

theorem execResyncComplete_kept (passed : Bool) (s : State) : KeptBy s (execResyncComplete passed s) := by
  unfold execResyncComplete; dsimp only; (repeat' split) <;> exact .next (.of_view (by simp))

theorem execImmediateFrame_kept (ok : Bool) (src : Source) (addr : Nat) (w : Word) (s : State) : KeptBy s (execImmediateFrame ok src addr w s) := by
  unfold execImmediateFrame; (repeat' split) <;> exact .next (.of_view (by simp))

theorem execChangeFrame_kept (ok : Bool) (epoch : Nat) (seq : Nat) (digest : Bytes) (sects : Option (List Machine.Sect)) (s : State) : KeptBy s (execChangeFrame ok epoch seq digest sects s) := by
  unfold execChangeFrame; (repeat' split) <;> exact .next (.of_view (by simp))

theorem execHandoverFrame_kept (ok : Bool) (epoch cause : Nat) (s : State) : KeptBy s (execHandoverFrame ok epoch cause s) := by
  unfold execHandoverFrame; (repeat' split) <;> exact .next (.of_view (by simp))

theorem execHandoverStart_kept (s : State) : KeptBy s (execHandoverStart s) := by
  unfold execHandoverStart; dsimp only; (repeat' split) <;> exact .next (.of_view (by simp))

theorem execHandoverEnd_kept (s : State) : KeptBy s (execHandoverEnd s) := by
  unfold execHandoverEnd; dsimp only; (repeat' split) <;> exact .next (.of_view (by simp))

theorem execTakeBack_kept (s : State) : KeptBy s (execTakeBack s) := by
  unfold execTakeBack; (repeat' split) <;> exact .next (.of_view (by simp))

theorem execOutputsFrame_kept (ok : Bool) (items : List CmpItem) (s : State) : KeptBy s (execOutputsFrame ok items s) := by
  unfold execOutputsFrame; dsimp only; (repeat' split) <;> exact .next (.of_view (by simp [view_foldl]))

theorem execDivergeFrame_kept (ok : Bool) (kind index : Nat) (value : Word) (s : State) : KeptBy s (execDivergeFrame ok kind index value s) := by
  unfold execDivergeFrame; (repeat' split) <;> exact .next (.of_view (by simp))

theorem execDivergenceResolve_kept (s : State) : KeptBy s (execDivergenceResolve s) := by
  unfold execDivergenceResolve; dsimp only; (repeat' split) <;> exact .next (.of_view (by simp))

theorem execSelftestPeriodic_kept (test : Nat) (passed : Bool) (s : State) : KeptBy s (execSelftestPeriodic test passed s) := by
  unfold execSelftestPeriodic; (repeat' split) <;> exact .next (.of_view (by simp))

theorem execParSwitch_kept (w : Who) (s : State) : KeptBy s (execParSwitch w s) := by
  unfold execParSwitch; exact .next (State.submit_kept _ _ _)

theorem execDivClr_kept (w : Who) (s : State) : KeptBy s (execDivClr w s) := by
  unfold execDivClr; exact .next (State.submit_kept _ _ _)

theorem execParSelftest_kept (w : Who) (s : State) : KeptBy s (execParSelftest w s) := by
  unfold execParSelftest; exact .next (State.submit_kept _ _ _)

theorem execParClrStats_kept (w : Who) (s : State) : KeptBy s (execParClrStats w s) := by
  unfold execParClrStats; exact .next (State.submit_kept _ _ _)

theorem execLinkChange_kept (p : Nat) (up gig : Bool) (s : State) : KeptBy s (execLinkChange p up gig s) := by
  unfold execLinkChange; (repeat' split) <;> exact .next (.of_view (by simp))

theorem execEthFrameRx_kept (p : Nat) (f : EthFrame) (s : State) : KeptBy s (execEthFrameRx p f s) := by
  unfold execEthFrameRx; dsimp only; (repeat' split) <;> exact .next (.of_view (by simp))

theorem execPrpSupervision_kept (s : State) : KeptBy s (execPrpSupervision s) := by
  unfold execPrpSupervision; dsimp only; (repeat' split) <;> exact .next (.of_view (by simp))

theorem execArpRequest_kept (p ip asker : Nat) (s : State) : KeptBy s (execArpRequest p ip asker s) := by
  unfold execArpRequest; (repeat' split) <;> exact .next (.of_view (by simp))

theorem execIcmpEcho_kept (p ip ident : Nat) (data : List Nat) (s : State) : KeptBy s (execIcmpEcho p ip ident data s) := by
  unfold execIcmpEcho; (repeat' split) <;> exact .next (.of_view (by simp))

theorem execReassemblyTimeout_kept (dg : Nat) (s : State) : KeptBy s (execReassemblyTimeout dg s) := by
  unfold execReassemblyTimeout; exact .next (.of_view (by simp))

theorem execPtpAnnounce_kept (d port dom : Nat) (ds : List Nat) (utc : Int) (s : State) : KeptBy s (execPtpAnnounce d port dom ds utc s) := by
  unfold execPtpAnnounce; (repeat' split) <;> exact .next (.of_view (by simp))

theorem execPtpSync_kept (d port : Nat) (t1 corr logI : Int) (ago : Nat) (s : State) : KeptBy s (execPtpSync d port t1 corr logI ago s) := by
  unfold execPtpSync; dsimp only; (repeat' split) <;> exact .next (.of_view (by simp))

theorem execDelayReq_kept (d : Nat) (s : State) : KeptBy s (execDelayReq d s) := by
  unfold execDelayReq; dsimp only; (repeat' split) <;> exact .next (.of_view (by simp))

theorem execDelayResp_kept (d seq : Nat) (t4 : Int) (s : State) : KeptBy s (execDelayResp d seq t4 s) := by
  unfold execDelayResp; dsimp only; (repeat' split) <;> exact .next (.of_view (by simp))

theorem execPtpSyncLoss_kept (d : Nat) (s : State) : KeptBy s (execPtpSyncLoss d s) := by
  unfold execPtpSyncLoss; dsimp only; (repeat' split) <;> exact .next (.of_view (by simp))

theorem execPtpReturn_kept (s : State) : KeptBy s (execPtpReturn s) := by
  unfold execPtpReturn; dsimp only; (repeat' split) <;> exact .next (.of_view (by simp))

theorem execAddendWrite_kept (w : Who) (d : Nat) (v : Word) (s : State) : KeptBy s (execAddendWrite w d v s) := by
  unfold execAddendWrite; split; exact .next (State.submit_kept _ _ _); exact .next (.refl s)

theorem execServoOff_kept (w : Who) (off0 off1 : Bool) (s : State) : KeptBy s (execServoOff w off0 off1 s) := by
  unfold execServoOff; exact .next (State.submit_kept _ _ _)

theorem execPtpCapture_kept (w : Who) (s : State) : KeptBy s (execPtpCapture w s) := by
  unfold execPtpCapture; exact .next (State.submit_kept _ _ _)

theorem execPtpLoadArm_kept (w : Who) (clock sec : Nat) (s : State) : KeptBy s (execPtpLoadArm w clock sec s) := by
  unfold execPtpLoadArm; exact .next (State.submit_kept _ _ _)

theorem execPtpArmedLoad_kept (d : Nat) (s : State) : KeptBy s (execPtpArmedLoad d s) := by
  unfold execPtpArmedLoad; dsimp only; (repeat' split) <;> exact .next (.of_view (by simp))

theorem execPtpLoadStep_kept (w : Who) (clock sec ns : Nat) (s : State) : KeptBy s (execPtpLoadStep w clock sec ns s) := by
  unfold execPtpLoadStep; exact .next (State.submit_kept _ _ _)

theorem execPtpClrStats_kept (w : Who) (off0 off1 : Bool) (s : State) : KeptBy s (execPtpClrStats w off0 off1 s) := by
  unfold execPtpClrStats; exact .next (State.submit_kept _ _ _)

theorem execEthClrStats_kept (w : Who) (s : State) : KeptBy s (execEthClrStats w s) := by
  unfold execEthClrStats; exact .next (State.submit_kept _ _ _)

theorem execYraSessionTimeout_kept (session : Nat) (s : State) : KeptBy s (execYraSessionTimeout session s) := by
  unfold execYraSessionTimeout; (repeat' split) <;> exact .next (.of_view (by simp))

theorem execTelemetry_kept (f : TelFrame) (s : State) : KeptBy s (execTelemetry f s) := by
  unfold execTelemetry; (repeat' split) <;> exact .next (.of_view (by simp))

theorem execYspSyncSend_kept (sub : Nat) (s : State) : KeptBy s (execYspSyncSend sub s) := by
  unfold execYspSyncSend; dsimp only; (repeat' split) <;> exact .next (.of_view (by simp))

theorem execCanFrameRx_kept (c : Nat) (f : CanFrame) (s : State) : KeptBy s (execCanFrameRx c f s) := by
  unfold execCanFrameRx; dsimp only; (repeat' split) <;> exact .next (.of_view (by simp))

theorem execCanObjectTimeout_kept (c id : Nat) (s : State) : KeptBy s (execCanObjectTimeout c id s) := by
  unfold execCanObjectTimeout; dsimp only; (repeat' split) <;> exact .next (.of_view (by simp))

theorem execCanFrameEnd_kept (c how code : Nat) (clash : Bool) (s : State) : KeptBy s (execCanFrameEnd c how code clash s) := by
  unfold execCanFrameEnd; (repeat' split) <;> exact .next (.of_view (by simp))

theorem execBusOff_kept (c : Nat) (s : State) : KeptBy s (execBusOff c s) := by
  unfold execBusOff; dsimp only; (repeat' split) <;> exact .next (.of_view (by simp))

theorem execBusOffRecovery_kept (c : Nat) (s : State) : KeptBy s (execBusOffRecovery c s) := by
  unfold execBusOffRecovery; dsimp only; (repeat' split) <;> exact .next (.of_view (by simp))

theorem execCanSend_kept (w : Who) (s : State) : KeptBy s (execCanSend w s) := by
  unfold execCanSend; exact .next (State.submit_kept _ _ _)

theorem execCanCancel_kept (w : Who) (s : State) : KeptBy s (execCanCancel w s) := by
  unfold execCanCancel; exact .next (State.submit_kept _ _ _)

theorem execCanRelease_kept (w : Who) (s : State) : KeptBy s (execCanRelease w s) := by
  unfold execCanRelease; exact .next (State.submit_kept _ _ _)

theorem execCanSleep_kept (w : Who) (c : Nat) (s : State) : KeptBy s (execCanSleep w c s) := by
  unfold execCanSleep; split; exact .next (State.submit_kept _ _ _); exact .next (.refl s)

theorem execCanWake_kept (w : Who) (c : Nat) (s : State) : KeptBy s (execCanWake w c s) := by
  unfold execCanWake; split; exact .next (State.submit_kept _ _ _); exact .next (.refl s)

theorem execWakeEdge_kept (c : Nat) (s : State) : KeptBy s (execWakeEdge c s) := by
  unfold execWakeEdge; (repeat' split) <;> exact .next (.of_view (by simp))

theorem execWakeFrame_kept (c : Nat) (f : CanFrame) (s : State) : KeptBy s (execWakeFrame c f s) := by
  unfold execWakeFrame; (repeat' split) <;> exact .next (.of_view (by simp))

theorem execCanClrStats_kept (w : Who) (s : State) : KeptBy s (execCanClrStats w s) := by
  unfold execCanClrStats; exact .next (State.submit_kept _ _ _)

theorem execVbakSwitch_kept (railMv vbakMv : Nat) (s : State) : KeptBy s (execVbakSwitch railMv vbakMv s) := by
  unfold execVbakSwitch; (repeat' split) <;> exact .next (.of_view (by simp))

theorem execVbakReturn_kept (railMv vbakMv : Nat) (s : State) : KeptBy s (execVbakReturn railMv vbakMv s) := by
  unfold execVbakReturn; dsimp only; split
  · exact .next (.of_view (by rw [view_modClk, State.journal_view]; split <;> simp))
  · exact .next (.refl s)

theorem execVbakMeasure_kept (mv : Nat) (s : State) : KeptBy s (execVbakMeasure mv s) := by
  unfold execVbakMeasure; exact .next (.of_view (by simp))

theorem execClkCapture_kept (w : Who) (s : State) : KeptBy s (execClkCapture w s) := by
  unfold execClkCapture; exact .next (State.submit_kept _ _ _)

theorem execClkLoadArm_kept (w : Who) (sec : Nat) (s : State) : KeptBy s (execClkLoadArm w sec s) := by
  unfold execClkLoadArm; exact .next (State.submit_kept _ _ _)

theorem execCalendarArmedLoad_kept (s : State) : KeptBy s (execCalendarArmedLoad s) := by
  unfold execCalendarArmedLoad; (repeat' split) <;> exact .next (.of_view (by simp))

theorem execClkLoadStep_kept (w : Who) (sec sub : Nat) (s : State) : KeptBy s (execClkLoadStep w sec sub s) := by
  unfold execClkLoadStep; exact .next (State.submit_kept _ _ _)

theorem execTemperatureTrim_kept (temp : Int) (s : State) : KeptBy s (execTemperatureTrim temp s) := by
  unfold execTemperatureTrim; exact .next (.of_view (by simp))

theorem execMainsWindow_kept (s : State) : KeptBy s (execMainsWindow s) := by
  unfold execMainsWindow; dsimp only; (repeat' split) <;> exact .next (.of_view (by simp))

theorem execPtpReferenceCompare_kept (s : State) : KeptBy s (execPtpReferenceCompare s) := by
  unfold execPtpReferenceCompare; dsimp only; (repeat' split) <;> exact .next (.of_view (by simp))

theorem execAutomaticStep_kept (s : State) : KeptBy s (execAutomaticStep s) := by
  unfold execAutomaticStep; (repeat' split) <;> exact .next (.of_view (by simp))

theorem execReferenceTimeout_kept (s : State) : KeptBy s (execReferenceTimeout s) := by
  unfold execReferenceTimeout; (repeat' split) <;> exact .next (.of_view (by simp))

theorem execDstTransition_kept (s : State) : KeptBy s (execDstTransition s) := by
  unfold execDstTransition; exact .next (.of_view (by simp))

theorem execAlarmFire_kept (n : Nat) (s : State) : KeptBy s (execAlarmFire n s) := by
  unfold execAlarmFire; dsimp only; (repeat' split) <;> exact .next (.of_view (by simp))

theorem execAlarmArm_kept (w : Who) (n : Nat) (s : State) : KeptBy s (execAlarmArm w n s) := by
  unfold execAlarmArm; split; exact .next (State.submit_kept _ _ _); exact .next (.refl s)

theorem execAlarmDisarm_kept (w : Who) (n : Nat) (s : State) : KeptBy s (execAlarmDisarm w n s) := by
  unfold execAlarmDisarm; split; exact .next (State.submit_kept _ _ _); exact .next (.refl s)

theorem execAlarmFiredClear_kept (w : Who) (map : Word) (s : State) : KeptBy s (execAlarmFiredClear w map s) := by
  unfold execAlarmFiredClear; exact .next (State.submit_kept _ _ _)

theorem execProvision_kept (w : Who) (c : SignedCmd) (s : State) : KeptBy s (execProvision w c s) := by
  unfold execProvision; exact .next (State.submit_kept _ _ _)

theorem execEnrol_kept (w : Who) (c : SignedCmd) (s : State) : KeptBy s (execEnrol w c s) := by
  unfold execEnrol; exact .next (State.submit_kept _ _ _)

theorem execEnrolPub_kept (w : Who) (c : SignedCmd) (s : State) : KeptBy s (execEnrolPub w c s) := by
  unfold execEnrolPub; exact .next (State.submit_kept _ _ _)

theorem execRevoke_kept (w : Who) (c : SignedCmd) (s : State) : KeptBy s (execRevoke w c s) := by
  unfold execRevoke; exact .next (State.submit_kept _ _ _)

theorem execDeploy_kept (w : Who) (c : SignedCmd) (s : State) : KeptBy s (execDeploy w c s) := by
  unfold execDeploy; exact .next (State.submit_kept _ _ _)

theorem execReturnModule_kept (w : Who) (c : SignedCmd) (s : State) : KeptBy s (execReturnModule w c s) := by
  unfold execReturnModule; exact .next (State.submit_kept _ _ _)

theorem execScrap_kept (w : Who) (c : SignedCmd) (s : State) : KeptBy s (execScrap w c s) := by
  unfold execScrap; exact .next (State.submit_kept _ _ _)

theorem execSecSettings_kept (w : Who) (c : SignedCmd) (s : State) : KeptBy s (execSecSettings w c s) := by
  unfold execSecSettings; exact .next (State.submit_kept _ _ _)

theorem execTamperAck_kept (w : Who) (c : SignedCmd) (s : State) : KeptBy s (execTamperAck w c s) := by
  unfold execTamperAck; exact .next (State.submit_kept _ _ _)

theorem execForceClaim_kept (w : Who) (c : SignedCmd) (s : State) : KeptBy s (execForceClaim w c s) := by
  unfold execForceClaim; exact .next (State.submit_kept _ _ _)

theorem execDebugUnlock_kept (w : Who) (c : SignedCmd) (s : State) : KeptBy s (execDebugUnlock w c s) := by
  unfold execDebugUnlock; exact .next (State.submit_kept _ _ _)

theorem execDbgReq_kept (w : Who) (s : State) : KeptBy s (execDbgReq w s) := by
  unfold execDbgReq; exact .next (State.submit_kept _ _ _)

theorem execDbgLock_kept (w : Who) (s : State) : KeptBy s (execDbgLock w s) := by
  unfold execDbgLock; exact .next (State.submit_kept _ _ _)

theorem execDbgOpenNext_kept (w : Who) (s : State) : KeptBy s (execDbgOpenNext w s) := by
  unfold execDbgOpenNext; exact .next (State.submit_kept _ _ _)

theorem execChallengeExpiry_kept (s : State) : KeptBy s (execChallengeExpiry s) := by
  unfold execChallengeExpiry; (repeat' split) <;> exact .next (.of_view (by simp))

theorem execPartialTimeout_kept (s : State) : KeptBy s (execPartialTimeout s) := by
  unfold execPartialTimeout; (repeat' split) <;> exact .next (.of_view (by simp))

theorem execAttGo_kept (w : Who) (chal : List Word) (s : State) : KeptBy s (execAttGo w chal s) := by
  unfold execAttGo; exact .next (State.submit_kept _ _ _)

theorem execDrbgReseed_kept (s : State) : KeptBy s (execDrbgReseed s) := by
  unfold execDrbgReseed; (repeat' split) <;> exact .next (.of_view (by simp))

theorem execPowerOnRelease_kept (vsupMv : Nat) (s : State) : KeptBy s (execPowerOnRelease vsupMv s) := by
  unfold execPowerOnRelease; (repeat' split) <;> exact .next (.of_view (by simp))

theorem execPfWarning_kept (vsupMv : Nat) (s : State) : KeptBy s (execPfWarning vsupMv s) := by
  unfold execPfWarning; dsimp only; (repeat' split) <;> exact .next (.of_view (by simp))

theorem execPfWarningEnd_kept (vsupMv : Nat) (s : State) : KeptBy s (execPfWarningEnd vsupMv s) := by
  unfold execPfWarningEnd; dsimp only; (repeat' split) <;> exact .next (.of_view (by simp))

theorem execResetNRelease_kept (s : State) : KeptBy s (execResetNRelease s) := by
  unfold execResetNRelease; exact .next (.of_view (by simp))

theorem execRstWarm_kept (w : Who) (s : State) : KeptBy s (execRstWarm w s) := by
  unfold execRstWarm; exact .next (State.submit_kept _ _ _)

theorem execRstCold_kept (w : Who) (s : State) : KeptBy s (execRstCold w s) := by
  unfold execRstCold; exact .next (State.submit_kept _ _ _)

theorem execBlockResetCp_kept (w : Who) (s : State) : KeptBy s (execBlockResetCp w s) := by
  unfold execBlockResetCp; exact .next (State.submit_kept _ _ _)

theorem execBlockResetSolver_kept (w : Who) (s : State) : KeptBy s (execBlockResetSolver w s) := by
  unfold execBlockResetSolver; exact .next (State.submit_kept _ _ _)

theorem execBlockResetAsm_kept (w : Who) (s : State) : KeptBy s (execBlockResetAsm w s) := by
  unfold execBlockResetAsm; exact .next (State.submit_kept _ _ _)

theorem execBlockResetEth_kept (w : Who) (s : State) : KeptBy s (execBlockResetEth w s) := by
  unfold execBlockResetEth; exact .next (State.submit_kept _ _ _)

theorem execBlockResetCan_kept (w : Who) (s : State) : KeptBy s (execBlockResetCan w s) := by
  unfold execBlockResetCan; exact .next (State.submit_kept _ _ _)

theorem execBlockResetMgt_kept (w : Who) (s : State) : KeptBy s (execBlockResetMgt w s) := by
  unfold execBlockResetMgt; exact .next (State.submit_kept _ _ _)

theorem execModeCommission_kept (w : Who) (s : State) : KeptBy s (execModeCommission w s) := by
  unfold execModeCommission; exact .next (State.submit_kept _ _ _)

theorem execModeRun_kept (w : Who) (s : State) : KeptBy s (execModeRun w s) := by
  unfold execModeRun; exact .next (State.submit_kept _ _ _)

theorem execModeTune_kept (w : Who) (s : State) : KeptBy s (execModeTune w s) := by
  unfold execModeTune; exact .next (State.submit_kept _ _ _)

theorem execModeSafehold_kept (w : Who) (s : State) : KeptBy s (execModeSafehold w s) := by
  unfold execModeSafehold; exact .next (State.submit_kept _ _ _)

theorem execStartMode_kept (w : Who) (commission : Bool) (s : State) : KeptBy s (execStartMode w commission s) := by
  unfold execStartMode; exact .next (State.submit_kept _ _ _)

theorem execUpdOffer_kept (w : Who) (words : List Word) (s : State) : KeptBy s (execUpdOffer w words s) := by
  unfold execUpdOffer; exact .next (State.submit_kept _ _ _)

theorem execUpdChunk_kept (w : Who) (ofs : Nat) (words : List Word) (s : State) : KeptBy s (execUpdChunk w ofs words s) := by
  unfold execUpdChunk; exact .next (State.submit_kept _ _ _)

theorem execEndOffer_kept (w : Who) (s : State) : KeptBy s (execEndOffer w s) := by
  unfold execEndOffer; exact .next (State.submit_kept _ _ _)

theorem execUpdAbort_kept (w : Who) (s : State) : KeptBy s (execUpdAbort w s) := by
  unfold execUpdAbort; exact .next (State.submit_kept _ _ _)

theorem execLockTimeout_kept (s : State) : KeptBy s (execLockTimeout s) := by
  unfold execLockTimeout; (repeat' split) <;> exact .next (.of_view (by simp))

theorem execInstallation_kept (bad : Nat) (s : State) : KeptBy s (execInstallation bad s) := by
  unfold execInstallation; dsimp only; (repeat' split) <;> exact .next (.of_view (by simp [view_foldl]))

theorem execUpdSwap_kept (w : Who) (s : State) : KeptBy s (execUpdSwap w s) := by
  unfold execUpdSwap; exact .next (State.submit_kept _ _ _)

theorem execUpdConfirm_kept (w : Who) (s : State) : KeptBy s (execUpdConfirm w s) := by
  unfold execUpdConfirm; exact .next (State.submit_kept _ _ _)

theorem execTrialConfirmed_kept (s : State) : KeptBy s (execTrialConfirmed s) := by
  unfold execTrialConfirmed; (repeat' split) <;> exact .next (.of_view (by simp))

theorem execUpdRevert_kept (w : Who) (s : State) : KeptBy s (execUpdRevert w s) := by
  unfold execUpdRevert; exact .next (State.submit_kept _ _ _)

theorem execUpdFloor_kept (w : Who) (s : State) : KeptBy s (execUpdFloor w s) := by
  unfold execUpdFloor; exact .next (State.submit_kept _ _ _)

theorem execMgtFrameDiscard_kept (why : Nat) (s : State) : KeptBy s (execMgtFrameDiscard why s) := by
  unfold execMgtFrameDiscard; (repeat' split) <;> exact .next (.of_view (by simp))

theorem execMgtSessionTimeout_kept (session : Nat) (s : State) : KeptBy s (execMgtSessionTimeout session s) := by
  unfold execMgtSessionTimeout; (repeat' split) <;> exact .next (.of_view (by simp))

theorem execSpeedChange_kept (s : State) : KeptBy s (execSpeedChange s) := by
  unfold execSpeedChange; (repeat' split) <;> exact .next (.of_view (by simp))

theorem execCloseAll_kept (w : Who) (s : State) : KeptBy s (execCloseAll w s) := by
  unfold execCloseAll; exact .next (State.submit_kept _ _ _)

theorem execMgtClrStats_kept (w : Who) (s : State) : KeptBy s (execMgtClrStats w s) := by
  unfold execMgtClrStats; exact .next (State.submit_kept _ _ _)

theorem execDramUncorrectable_kept (row reader len : Nat) (s : State) : KeptBy s (execDramUncorrectable row reader len s) := by
  unfold execDramUncorrectable; (repeat' split) <;> exact .next (.of_view (by simp))

theorem execDramCorrected_kept (row : Nat) (s : State) : KeptBy s (execDramCorrected row s) := by
  unfold execDramCorrected; dsimp only; (repeat' split) <;> exact .next (.of_view (by simp))

theorem execOvertempChange_kept (temp : Int) (s : State) : KeptBy s (execOvertempChange temp s) := by
  unfold execOvertempChange; exact .next (.of_view (by simp))

theorem execSysClrStats_kept (w : Who) (s : State) : KeptBy s (execSysClrStats w s) := by
  unfold execSysClrStats; exact .next (State.submit_kept _ _ _)

theorem execTamperInputInactive_kept (n : Nat) (s : State) : KeptBy s (execTamperInputInactive n s) := by
  unfold execTamperInputInactive; exact .next (.of_view (by simp))

theorem execPulseEdge_kept (n : Nat) (s : State) : KeptBy s (execPulseEdge n s) := by
  unfold execPulseEdge; (repeat' split) <;> exact .next (.of_view (by simp))

theorem execDinSample_kept (n : Nat) (level : Bool) (s : State) : KeptBy s (execDinSample n level s) := by
  unfold execDinSample; (repeat' split) <;> exact .next (.of_view (by simp))

theorem execPwmPeriodStart_kept (n : Nat) (s : State) : KeptBy s (execPwmPeriodStart n s) := by
  unfold execPwmPeriodStart; dsimp only; (repeat' split) <;> exact .next (.of_view (by simp))

theorem execBusIntegration_kept (c : Nat) (s : State) : KeptBy s (execBusIntegration c s) := by
  unfold execBusIntegration; (repeat' split) <;> exact .next (.of_view (by simp))

theorem execBusOffRecoveryComplete_kept (c : Nat) (s : State) : KeptBy s (execBusOffRecoveryComplete c s) := by
  unfold execBusOffRecoveryComplete; dsimp only; (repeat' split) <;> exact .next (.of_view (by simp))

theorem execSelftestFrame_kept (ok passed : Bool) (s : State) : KeptBy s (execSelftestFrame ok passed s) := by
  unfold execSelftestFrame; (repeat' split) <;> exact .next (.of_view (by simp))

theorem execSelftestComplete_kept (loop logic sram gate : Bool) (s : State) : KeptBy s (execSelftestComplete loop logic sram gate s) := by
  unfold execSelftestComplete; (repeat' split) <;> exact .next (.of_view (by simp))

theorem execBulkFrame_kept (ok : Bool) (image : Option BulkImage) (s : State) : KeptBy s (execBulkFrame ok image s) := by
  unfold execBulkFrame; dsimp only; (repeat' split) <;> exact .next (.of_view (by simp))

theorem execAttestationComplete_kept (s : State) : KeptBy s (execAttestationComplete s) := by
  unfold execAttestationComplete; (repeat' split) <;> exact .next (.of_view (by simp))

theorem execTakingActiveCode_kept (s : State) : KeptBy s (execTakingActiveCode s) := by
  unfold execTakingActiveCode; dsimp only; (repeat' split) <;> exact .next (.of_view (by simp))

end Sys2Proof.Machine
end

