-- ==== Sys2Proof/Laws/KeptRest.lean ====
section
/-! SUPPORT. What each command keeps, continued: the commands that end runs, move banks, open or close transactions and
sessions, and SECURITY_COMMAND_END, the one that may change the lifecycle. -/

namespace Sys2Proof.Machine

theorem KeptBy.quiet {s t : State} (h : Quiet s t) : KeptBy s (.next t) := .next (.of_quiet h)
theorem KeptBy.cleared {s t : State} (h : Cleared s t) : KeptBy s (.next t) := .next (.of_cleared h)
theorem KeptBy.view {s t : State} (h : t.view = s.view) : KeptBy s (.next t) := .next (.of_view h)
theorem KeptBy.same (s : State) : KeptBy s (.next s) := .next (.refl s)

/-! Resets. -/

theorem execPowerOnReset_kept (s : State) : KeptBy s (execPowerOnReset s) := by
  unfold execPowerOnReset; dsimp only
  split
  · exact .same s
  · exact .quiet (((State.assertReset_quiet _ _ _).after
      ((view_ite_self (view_modAsm _ _)).trans (view_ite_self (view_modMgt _ _)))).then (view_modPwr _ _))

theorem execPfWarmReset_kept (s : State) : KeptBy s (execPfWarmReset s) := by
  unfold execPfWarmReset
  (repeat' split) <;> first | exact .same s | exact .quiet (State.pulseReset_quiet _ _ _)

theorem execResetNRequest_kept (s : State) : KeptBy s (execResetNRequest s) := by
  unfold execResetNRequest
  split
  · exact .quiet (State.assertReset_quiet _ _ _)
  · exact .same s

theorem execModuleResetExecute_kept (s : State) : KeptBy s (execModuleResetExecute s) := by
  unfold execModuleResetExecute
  (repeat' split) <;> first | exact .same s | exact .quiet (State.pulseReset_quiet _ _ _)

theorem execBlockResetExecute_kept (cpOk mgtOk : Bool) (s : State) : KeptBy s (execBlockResetExecute cpOk mgtOk s) := by
  unfold execBlockResetExecute; dsimp only
  have h : ∀ l : List Nat, ∀ s : State, (l.foldl (fun s b => (s.resetBlock b).journal 23 (ev2 b 0)) s).view = s.view :=
    fun l s => view_foldl _ (fun x b => by simp) _ _
  split
  · exact .same s
  · split
    · exact .quiet ((State.pulseReset_quiet _ _ _).after (by rw [h, view_modPwr]))
    · exact .view (by rw [h, view_modPwr])

theorem execLockstepMismatch_kept (imageOk : Bool) (s : State) : KeptBy s (execLockstepMismatch imageOk s) := by
  unfold execLockstepMismatch; dsimp only
  split
  · exact .same s
  · split
    · exact .view (by simp)
    · exact .quiet ((State.pulseReset_quiet _ _ _).after (by simp))

theorem execCpFirmwareWatchdog_kept (imageOk : Bool) (s : State) : KeptBy s (execCpFirmwareWatchdog imageOk s) := by
  unfold execCpFirmwareWatchdog; dsimp only
  split
  · exact .same s
  · split
    · exact .view (by simp)
    · exact .quiet ((State.pulseReset_quiet _ _ _).after (by simp))

theorem execSwapPoint_kept (s : State) : KeptBy s (execSwapPoint s) := by
  unfold execSwapPoint
  split
  · exact .same s
  · split
    · exact .same s
    · split
      · exact .view (by split <;> simp)
      · split
        · exact .same s
        · exact .quiet (State.swap_quiet _ _)

theorem execTrialFailure_kept (s : State) : KeptBy s (execTrialFailure s) := by
  unfold execTrialFailure
  (repeat' split) <;> first | exact .same s | exact .quiet (State.revertTrial_quiet _ _)

theorem execBackupDomainLoss_kept (s : State) : KeptBy s (execBackupDomainLoss s) := by
  unfold execBackupDomainLoss
  refine .view ?_
  rw [view_modSec _ _ rfl, view_modClk]

/-! Boot and load. -/

theorem openOwner_lifecycle (x : Sec) : x.openOwner.lifecycle = x.lifecycle := by
  unfold Sec.openOwner
  split
  · split
    · rfl
    · show (List.foldl _ _ _ : Sec).lifecycle = x.lifecycle
      exact List.foldlRecOn (motive := fun y : Sec => y.lifecycle = x.lifecycle) _ _ rfl fun y hy a _ => hy
  · rfl

theorem derive_lifecycle (x : Sec) (n : Nat) (l : List Bytes) : (x.derive n l).lifecycle = x.lifecycle := by
  unfold Sec.derive
  dsimp only
  have h : ∀ (c : Prop) [Decidable c] (a b : Sec), a.lifecycle = x.lifecycle → b.lifecycle = x.lifecycle →
      (if c then a else b).lifecycle = x.lifecycle := by
    intro c _ a b h1 h2; split <;> assumption
  split
  · exact h _ _ _ (h _ _ _ (h _ _ _ rfl rfl) (h _ _ _ rfl rfl)) (h _ _ _ rfl rfl)
  · refine h _ _ _ ?_ (h _ _ _ ?_ ((openOwner_lifecycle _).trans ?_)) <;>
      exact h _ _ _ (h _ _ _ (h _ _ _ rfl rfl) (h _ _ _ rfl rfl)) (h _ _ _ rfl rfl)

theorem execBootEnd_kept (imagesOk rsOk settingsOk : Bool) (s : State) : KeptBy s (execBootEnd imagesOk rsOk settingsOk s) := by
  unfold execBootEnd; dsimp only
  split
  · exact .same s
  split
  · exact .cleared (State.bootFails_cleared _ _)
  split
  · exact .cleared (State.bootFails_cleared _ _)
  split
  · exact .cleared (State.tamperBoot_cleared _)
  split
  · exact .cleared (State.bootFails_cleared _ _)
  have h : ∀ (c : Prop) [Decidable c] (x : State), x.view = s.view → Cleared s (if c then x.startBare 3 else x.enterLoad) := by
    intro c _ x hx
    split
    · exact (State.startBare_cleared _ _).of_view_left hx
    · exact (State.enterLoad_cleared _).of_view_left hx
  exact .cleared (h _ _ (by rw [view_modUpd, view_modSec _ _ (derive_lifecycle _ _ _)]))

theorem tryCasting_view (s : State) (slot : Nat) : (s.tryCasting slot).1.view = s.view := by simp

theorem execLoadComplete_kept (s : State) : KeptBy s (execLoadComplete s) := by
  unfold execLoadComplete
  dsimp only
  split
  · exact .same s
  split
  · exact .cleared ((State.noAttempt_cleared _ _).of_view_left (view_modCst _ _))
  split
  · exact .cleared ((State.noAttempt_cleared _ _).of_view_left (view_modCst _ _))
  split
  · exact .cleared ((State.loadFails_cleared _).of_view_left (by simp))
  split
  · exact .cleared ((State.install_cleared _ _ _ _).of_view_left (by rw [tryCasting_view, view_modCst]))
  split
  · exact .cleared ((State.loadFails_cleared _).of_view_left (by rw [tryCasting_view, view_modCst]))
  split
  · exact .cleared ((State.install_cleared _ _ _ _).of_view_left (by rw [tryCasting_view, tryCasting_view, view_modCst]))
  · exact .cleared ((State.loadFails_cleared _).of_view_left (by rw [tryCasting_view, tryCasting_view, view_modCst]))

/-! The boundary. -/

theorem Quiet.prev {s t : State} (h : Quiet s t) (hp : s.prev = none) : t.prev = none := by
  rcases h with h | h
  · exact (View.congr_prev h).trans hp
  · exact h.prev

theorem State.commitStaged_prev (s : State) (h : s.prev = none) : s.commitStaged.prev = none := by
  unfold State.commitStaged
  exact (((State.commitWinners_quiet _ _ _).then (State.commitTail_view _ _ _)).after
    (State.commitCounts_view _ _ _ _)).prev h

/-- With no bank before the published one left, the next may be prepared. -/
theorem Kept.prepare {s t : State} (h : Kept s t) (hp : t.prev = none) (b : Bank) : Kept s { t with prep := some b } :=
  ⟨h.pending, h.now, fun hi => ⟨(h.inv hi).numbers, (h.inv hi).given, (h.inv hi).intact, (h.inv hi).beside, fun _ => hp, (h.inv hi).room⟩,
    h.lifecycle⟩

theorem State.reannounce_view (s : State) : s.reannounce.view = s.view := by
  unfold State.reannounce
  dsimp only
  split
  · rfl
  · exact (view_out _ _).trans ((view_modMgt _ _).trans (view_modEth _ _))

/-- The counter of an announced boundary, whatever follows it. -/
theorem State.boundary_view (x : State) (f : Lpe → Lpe) : (x.reannounce.modLpe f).checkLiveness.latchCalendar.view = x.view := by
  rw [State.latchCalendar_view, State.checkLiveness_view, view_modLpe, State.reannounce_view]

theorem State.newEpoch_any (s : State) : s.newEpoch.view.anyEpoch = s.finishPour.reclaim.view.anyEpoch := by
  unfold State.newEpoch; dsimp only
  rw [anyEpoch_modEpc, State.boundary_view, anyEpoch_modEpc, view_modLgc]

theorem State.newEpoch_kept (s : State) : Kept s s.newEpoch :=
  ((State.finishPour_kept s).trans (State.reclaim_kept _)).trans (.of_any (State.newEpoch_any s))

theorem State.newEpoch_prev (s : State) : s.newEpoch.prev = none := by
  have h := State.newEpoch_any s
  have hr := State.reclaim_prev s.finishPour
  generalize s.newEpoch = n at h ⊢
  generalize s.finishPour.reclaim = r at h hr
  exact (show n.prev = r.prev from congrArg View.prev h).trans hr

theorem View.congr_pouring {s t : State} (h : t.view = s.view) : t.live.epc.pouring = s.live.epc.pouring := congrArg View.pouring h

theorem State.modEpc_epoch (s : State) (f : Epc → Epc) (h : ∀ e, (f e).epoch = e.epoch) : (s.modEpc f).live.epc.epoch = s.live.epc.epoch := h _

theorem State.modEpc_pouring (s : State) (f : Epc → Epc) (h : ∀ e, (f e).pouring = e.pouring) :
    (s.modEpc f).live.epc.pouring = s.live.epc.pouring := h _

theorem View.congr_epoch {s t : State} (h : t.view = s.view) : t.live.epc.epoch = s.live.epc.epoch := congrArg View.epoch h

theorem State.reclaim_epoch (s : State) : s.reclaim.live.epc.epoch = s.live.epc.epoch := by
  unfold State.reclaim
  exact View.congr_epoch (s := { s with prev := none, txns := s.txns.filter fun t => t.readEpoch = (s.pub.map Bank.epoch).getD 0 })
    (view_foldl _ (fun x t => by rw [State.answer_view, view_modEpc _ _ rfl rfl]) _ _)

theorem State.finishPour_epoch (s : State) : s.finishPour.live.epc.epoch = s.live.epc.epoch := by
  unfold State.finishPour
  split
  · rfl
  · have h : ∀ (c : Prop) [Decidable c] (x : State) (d : Bytes), x.live.epc.epoch = s.live.epc.epoch →
        (if c then x.journal 0 d true else x).live.epc.epoch = s.live.epc.epoch := by
      intro c _ x d hx
      exact (View.congr_epoch (s := x) (by rw [view_ite, State.journal_view _ _ _ _, ite_self])).trans hx
    exact h _ _ _ rfl

/-- R16: the counter advances by one. -/
theorem State.newEpoch_epoch (s : State) : s.newEpoch.live.epc.epoch = s.live.epc.epoch + 1 := by
  have hr := (State.reclaim_epoch s.finishPour).trans (State.finishPour_epoch s)
  unfold State.newEpoch; dsimp only
  generalize s.finishPour.reclaim = r at hr ⊢
  rw [← hr, State.modEpc_epoch, View.congr_epoch (State.boundary_view _ _)]
  · rfl
  · intro e; rfl

/-- R28: the pour of the boundary has begun. -/
theorem State.newEpoch_pouring (s : State) : s.newEpoch.live.epc.pouring = true := by
  unfold State.newEpoch; dsimp only
  generalize s.finishPour.reclaim = r
  rw [State.modEpc_pouring, View.congr_pouring (State.boundary_view _ _)]
  · rfl
  · intro e; rfl

theorem execEpochBoundary_kept (s : State) : KeptBy s (execEpochBoundary s) := by
  unfold execEpochBoundary; dsimp only
  have h2 := (State.newEpoch_kept s).trans (State.commitStaged_kept _)
  have h3 := State.commitStaged_prev _ (State.newEpoch_prev s)
  generalize s.newEpoch.commitStaged = c at h2 h3 ⊢
  split
  · exact .same s
  split
  · exact .next h2
  · have hv : (if c.live.epc.casting = true then c.castingBoundary else c).view = c.view := view_ite_self (State.castingBoundary_view c)
    exact .next ((h2.then hv).prepare ((View.congr_prev hv).trans h3) _)

theorem execPourComplete_kept (s : State) : KeptBy s (execPourComplete s) := .next (State.finishPour_kept s)

/-! Transactions. -/

theorem KeptBy.of_kept {s t : State} (h : Kept s t) : KeptBy s (.next t) := .next h

theorem execBurstOpen_kept (as : List Access) (s : State) : KeptBy s (execBurstOpen as s) := by
  unfold execBurstOpen; dsimp only
  have hv : ∀ f : Sec → Sec, (∀ x, (f x).lifecycle = x.lifecycle) → (s.modSec f).view = s.view := fun f hf => view_modSec _ _ (hf _)
  split
  · exact .same s
  split
  · exact .view (hv _ fun _ => rfl)
  split
  · exact .next (((Kept.of_view (hv _ fun _ => rfl)).trans (Kept.number _)).then (State.answer_view _ _ _ _))
  · rename_i hp
    have hk : Kept s (s.modSec fun x => { x with lastBurst := s.now }) := .of_view (hv _ fun _ => rfl)
    refine .next (hk.trans (Kept.trans ?_ (State.burstAll_kept _ _ _)))
    refine Kept.open _ _ rfl (pub_epoch ?_)
    simpa using hp

theorem execBurstClose_kept (s : State) : KeptBy s (execBurstClose s) := by
  unfold execBurstClose
  split
  · exact .next (State.closeBurst_kept _ _)
  · exact .same s

theorem execBurstTimeout_kept (s : State) : KeptBy s (execBurstTimeout s) := by
  unfold execBurstTimeout
  (repeat' split) <;> first | exact .same s | exact .next (State.closeBurst_kept _ _)

theorem State.applyImmediate_kept (s : State) (x : Source × Nat × Word) : Kept s (s.applyImmediate x) := by
  unfold State.applyImmediate
  (repeat' split) <;> first | exact .refl s | exact (Kept.number s).then (State.immediate_view _ _ _ _ _)

theorem execLoopTick_kept (us : Nat) (s : State) : KeptBy s (execLoopTick us s) := by
  unfold execLoopTick
  exact .next (((Kept.of_view (view_modPar _ _)).trans (Kept.foldl _ State.applyImmediate_kept _ _)).then (State.loopTick_view _ _))

/-! The assembler and the pair. -/

@[simp] theorem State.adoptSnapshot_view (s : State) (e : Nat) (g : Option (List (Nat × Dy × Bool))) :
    (s.adoptSnapshot e g).view = s.view := by
  unfold State.adoptSnapshot; split <;> simp

@[simp] theorem State.nextLadle_view (s : State) (first : Bool) : (s.nextLadle first).view = s.view := by
  unfold State.nextLadle; dsimp only
  rw [view_ite_self (State.endAssembly_view _), view_ite_self (view_modSlv _ _),
    view_ite_self ((State.requestWindow_view _).trans (view_modAsm _ _)), view_modAsm]

theorem execLadleReady_kept (s : State) : KeptBy s (execLadleReady s) := by
  unfold execLadleReady; dsimp only
  (repeat' split) <;> first | exact .same s | exact .view (by simp)

theorem prep_map_view (s : State) (f : Bank → Bank) : ({ s with prep := s.prep.map f } : State).view = s.view := by
  simp [State.view]

@[simp] theorem State.followPasses_view (s : State) : s.followPasses.view = s.view := by
  unfold State.followPasses
  exact view_foldl _ (fun x g => by simp only [view_ite, State.setGrp_view, ite_self]) _ _

theorem State.adoptRun_any (s : State) (epoch : Nat) (runId : Word) : (s.adoptRun epoch runId).view.anyEpoch = s.view.anyEpoch := by
  unfold State.adoptRun
  dsimp only
  rw [view_ite, State.journal_view _ _ _ _, ite_self, view_modPar, State.followPasses_view, view_modLpe,
    view_ite_self (view_foldl _ (fun x u => by rw [view_modNrg]) _ _), anyEpoch_modEpc,
    view_ite_self (view_foldl _ (fun x u => State.closeInterval_view _ _ _ _) _ _)]

theorem execEpochFrame_kept (ok : Bool) (epoch : Nat) (runId : Word) (counts : Nat) (ofsNs : Int) (s : State) :
    KeptBy s (execEpochFrame ok epoch runId counts ofsNs s) := by
  unfold execEpochFrame; dsimp only
  split
  · exact .same s
  split
  · exact .view (by simp)
  split
  · exact .same s
  split
  · exact .next (.of_any (by rw [State.repour_view, view_modClk, anyEpoch_modEpc]))
  · refine .next (.of_any ?_)
    rw [prep_map_view, State.adoptRun_any, view_modClk, anyEpoch_modEpc]

theorem execCommitFrame_kept (ok : Bool) (epoch : Nat) (writes : List CommitWrite)
    (snap steps : Option (List (Nat × Machine.Dy × Bool))) (commits : List Nat) (s : State) :
    KeptBy s (execCommitFrame ok epoch writes snap steps commits s) := by
  unfold execCommitFrame; dsimp only
  split
  · exact .same s
  split
  · exact .view (by simp)
  · have hm : externalStaged (writes.map fun w => ({ txn := w.txn, src := w.src, role := w.role, addr := w.addr, val := w.val, readEpoch := epoch, closedAt := s.now, mirror := true } : Staged)) = 0 := by
      simp [externalStaged, List.filter_eq_nil_iff]
    have hk : ∀ x : State, x.view = s.view → Kept s { x with staged := x.staged ++ writes.map fun w => ({ txn := w.txn, src := w.src, role := w.role, addr := w.addr, val := w.val, readEpoch := epoch, closedAt := s.now, mirror := true } : Staged) } := by
      intro x hx
      refine ⟨View.congr_pending (t := x) hx, View.congr_now (t := x) hx, fun hi => ?_, View.congr_lifecycle (t := x) hx⟩
      have hx' : x.Inv := by unfold State.Inv; rw [hx]; exact hi
      refine ⟨hx'.numbers, hx'.given, hx'.intact, hx'.beside, hx'.one, ?_⟩
      show externalStaged (x.staged ++ _) ≤ stagingMax
      rw [externalStaged_append, hm]
      exact hx'.room
    exact .next (hk _ (by rw [view_modEpc _ _ rfl rfl]; simp))

/-! Sessions. -/

@[simp] theorem fill_view (s : State) (a b c : Nat) (d : Bool) (e : Bytes) : (s.modSec fun x => x.fill a b c d e).view = s.view :=
  view_modSec _ _ rfl

theorem execYraOpen_kept (role : Nat) (hostNonce : Bytes) (ctr : Nat) (s : State) : KeptBy s (execYraOpen role hostNonce ctr s) := by
  unfold execYraOpen; dsimp only
  have hn : ∀ x : State, x.view = s.view → Kept s { x with nextTxn := s.nextTxn + 1 } := by
    intro x hx
    have := (Kept.of_view hx).trans (Kept.number x)
    rwa [View.congr_nextTxn hx] at this
  split
  · exact .same s
  split
  · split
    · exact .next ((hn (s.random 128).2 (State.random_view s 128)).then (by simp))
    · exact .view (by simp)
  · exact .view (by simp)

theorem execYraProve_kept (session : Nat) (mac : Bytes) (ctr : Nat) (s : State) : KeptBy s (execYraProve session mac ctr s) := by
  unfold execYraProve; dsimp only
  (repeat' split) <;> first
    | exact .same s
    | exact .view (by simp)

theorem State.yraRequest_kept (s : State) (session ctr : Nat) (tagOk : Bool) (serve : Session → State → State)
    (h : ∀ x s, Kept s (serve x s)) : Kept s (s.yraRequest session ctr tagOk serve) := by
  unfold State.yraRequest
  (repeat' split) <;> first
    | exact .refl s
    | exact .of_view (by simp)
    | exact (Kept.of_view (view_modEth s _)).trans (h _ _)

theorem execYraData_kept (session ctr : Nat) (tagOk : Bool) (as : List Access) (dur : Nat) (s : State) :
    KeptBy s (execYraData session ctr tagOk as dur s) :=
  .next (State.yraRequest_kept _ _ _ _ _ fun _ _ => State.transact_kept _ _ _ _ _ _ _)

theorem execYraClose_kept (session ctr : Nat) (tagOk : Bool) (s : State) : KeptBy s (execYraClose session ctr tagOk s) :=
  .next (State.yraRequest_kept _ _ _ _ _ fun _ _ => .of_view (by simp))

theorem State.mgtRequest_kept (s : State) (cmd session ctr : Nat) (tagOk : Bool) (serve : Role → State → State)
    (h : ∀ x s, Kept s (serve x s)) : Kept s (s.mgtRequest cmd session ctr tagOk serve) := by
  unfold State.mgtRequest; dsimp only
  have h1 : ∀ f : Mgt → Mgt, Kept s (s.modMgt f) := fun f => .of_view (view_modMgt _ _)
  have h2 : ∀ f g : Mgt → Mgt, Kept s ((s.modMgt f).modMgt g) := fun f g => .of_view (by simp)
  (repeat' split) <;> first
    | exact .refl s
    | exact (h1 _).trans (h _ _)
    | exact (h2 _ _).trans (h _ _)
    | exact .of_view (by simp)

theorem execMgtHello_kept (ctr : Nat) (s : State) : KeptBy s (execMgtHello ctr s) :=
  .next (State.mgtRequest_kept _ _ _ _ _ _ fun _ _ => .of_view (by simp))

theorem execMgtOpen_kept (role : Nat) (hostNonce : Bytes) (ctr : Nat) (s : State) : KeptBy s (execMgtOpen role hostNonce ctr s) := by
  refine .next (State.mgtRequest_kept _ _ _ _ _ _ fun _ s => ?_)
  dsimp only
  have hn : ∀ x : State, x.view = s.view → Kept s { x with nextTxn := s.nextTxn + 1 } := by
    intro x hx
    have := (Kept.of_view hx).trans (Kept.number x)
    rwa [View.congr_nextTxn hx] at this
  split
  · split
    · exact (hn (s.random 128).2 (State.random_view s 128)).then (by simp)
    · exact .of_view (by simp)
  · exact .of_view (by simp)

theorem execMgtProve_kept (session : Nat) (mac : Bytes) (ctr : Nat) (s : State) : KeptBy s (execMgtProve session mac ctr s) := by
  refine .next (State.mgtRequest_kept _ _ _ _ _ _ fun _ s => ?_)
  dsimp only
  (repeat' split) <;> first
    | exact .of_view (by simp)

theorem execMgtClose_kept (session ctr : Nat) (tagOk : Bool) (s : State) : KeptBy s (execMgtClose session ctr tagOk s) :=
  .next (State.mgtRequest_kept _ _ _ _ _ _ fun _ s => .of_view (by split <;> simp))

theorem execMgtHealth_kept (session ctr : Nat) (tagOk : Bool) (s : State) : KeptBy s (execMgtHealth session ctr tagOk s) :=
  .next (State.mgtRequest_kept _ _ _ _ _ _ fun _ s => .of_view (by simp))

theorem execMgtJournal_kept (session ctr : Nat) (tagOk : Bool) (fromSeq count : Nat) (s : State) :
    KeptBy s (execMgtJournal session ctr tagOk fromSeq count s) :=
  .next (State.mgtRequest_kept _ _ _ _ _ _ fun _ s => .of_view (by dsimp only; (repeat' split) <;> simp))

theorem execMgtRegs_kept (session ctr : Nat) (tagOk : Bool) (as : List Access) (dur : Nat) (s : State) :
    KeptBy s (execMgtRegs session ctr tagOk as dur s) := by
  refine .next (State.mgtRequest_kept _ _ _ _ _ _ fun _ s => ?_)
  split
  · exact .of_view (by simp)
  · exact State.transact_kept _ _ _ _ _ _ _

theorem execMgtReset_kept (session ctr : Nat) (tagOk : Bool) (module blocks : Nat) (s : State) :
    KeptBy s (execMgtReset session ctr tagOk module blocks s) := by
  refine .next (State.mgtRequest_kept _ _ _ _ _ _ fun _ s => ?_)
  dsimp only
  (repeat' split) <;> first | exact .of_view (by simp) | exact .of_view (by rw [State.requestResets_view]; split <;> simp)

/-! Tamper. -/

@[simp] theorem State.tamperMark_view (s : State) (n : Nat) : (s.tamperMark n).view = s.view := by
  unfold State.tamperMark; dsimp only
  rw [view_ite, view_modSec _ _ rfl, State.journal_view _ _ _ _, view_modClk, ite_self]

@[simp] theorem State.tamperArm_view (s : State) : s.tamperArm.view = s.view := by
  unfold State.tamperArm
  rw [State.abortKeyOps_view, view_modSec _ _ rfl, view_modClk]

theorem State.tamperRespond_quiet (s : State) : Quiet s s.tamperRespond := by
  unfold State.tamperRespond; dsimp only
  split
  · exact .inl (view_modSec _ _ rfl)
  · split
    · exact .refl s
    · exact .inr (State.tamperBoot_cleared s)
  · exact .inr ((State.loadFails_cleared _).of_view_left (by rw [State.noteErr_view, view_modCst, view_modSec _ _ rfl]))
  · exact .inl (State.tamperRunning_view _ _)

theorem execTamperActivation_kept (n : Nat) (s : State) : KeptBy s (execTamperActivation n s) := by
  unfold execTamperActivation
  split
  · exact .same s
  split
  · exact .view (by simp)
  · exact .quiet ((State.tamperRespond_quiet _).after (by simp))

/-! SECURITY_COMMAND_END. -/

/-- What SECURITY_COMMAND_END keeps: all that the others keep but the lifecycle. -/
structure Stays (s t : State) : Prop where
  pending : t.pending = s.pending
  now : t.now = s.now
  inv : s.Inv → t.Inv

theorem Kept.stays {s t : State} (h : Kept s t) : Stays s t := ⟨h.pending, h.now, h.inv⟩
theorem Stays.then {a b c : State} (h : Stays a b) (h2 : Kept b c) : Stays a c :=
  ⟨h2.pending.trans h.pending, h2.now.trans h.now, h2.inv ∘ h.inv⟩
theorem Stays.view {a b c : State} (h : Stays a b) (h2 : c.view = b.view) : Stays a c := h.then (.of_view h2)
theorem Stays.sec (s : State) (f : Sec → Sec) : Stays s (s.modSec f) :=
  ⟨rfl, rfl, fun h => ⟨h.numbers, h.given, h.intact, h.beside, h.one, h.room⟩⟩
theorem Stays.trans {a b c : State} (h : Stays a b) (h2 : Stays b c) : Stays a c :=
  ⟨h2.pending.trans h.pending, h2.now.trans h.now, h2.inv ∘ h.inv⟩
theorem Stays.ite_sec {a b : State} (h : Stays a b) (c : Prop) [Decidable c] (f : Sec → Sec) : Stays a (if c then b.modSec f else b) := by
  split
  · exact h.trans (.sec _ _)
  · exact h

theorem State.cmdEffect_stays (s : State) (r : SecRun) : Stays s (s.cmdEffect r).2 := by
  unfold State.cmdEffect; dsimp only
  split
  · unfold State.provisionModule; dsimp only
    refine Stays.view (Stays.view (Stays.view ?_ (view_modUpd _ _)) (view_modCst _ _)) (State.closeSessions_view _ _)
    exact .sec _ _
  · exact (Kept.of_view (by simp)).stays
  · exact (Kept.of_view (by simp)).stays
  · exact (Kept.of_view (by simp)).stays
  · exact ⟨rfl, rfl, fun h => ⟨h.numbers, h.given, h.intact, h.beside, h.one, h.room⟩⟩
  · unfold State.returnToVendor; dsimp only
    refine Stays.view (Stays.view ?_ (State.closeSessions_view _ _)) (State.safehold_view _ _)
    exact .sec _ _
  · unfold State.scrapModule; dsimp only
    refine Stays.view (Stays.view ?_ (State.closeSessions_view _ _)) (State.safehold_view _ _)
    exact .sec _ _
  · exact ⟨rfl, rfl, fun h => ⟨h.numbers, h.given, h.intact, h.beside, h.one, h.room⟩⟩
  · exact (Kept.refl s).stays
  · exact (Kept.of_view (State.forceClaim_view _ _ _ _ _)).stays
  · exact ⟨rfl, rfl, fun h => ⟨h.numbers, h.given, h.intact, h.beside, h.one, h.room⟩⟩
  · exact (Kept.refl s).stays

theorem State.tamperAck_kept (s : State) : Kept s s.tamperAck := by
  unfold State.tamperAck; dsimp only
  split
  · refine .of_cleared ((State.enterLoad_cleared _).of_view_left ?_)
    rw [view_modSec _ _ (openOwner_lifecycle _), view_modSec _ _ rfl]
  split
  · exact .of_quiet ((State.pulseReset_quiet _ _ _).after (view_modSec _ _ rfl))
  · exact .of_view (view_modSec _ _ rfl)

theorem execSecurityCommandEnd_stays (s t : State) (h : execSecurityCommandEnd s = .next t) : Stays s t := by
  revert h
  unfold execSecurityCommandEnd; dsimp only
  split
  · intro h; cases h; exact (Kept.refl s).stays
  rename_i r hr
  intro h
  injection h with h
  subst h
  have h0 : Stays s (s.modSec fun x => { x with running := none }) := .sec _ _
  generalize (s.modSec fun x => { x with running := none }) = a at h0 ⊢
  have h1 : Stays s (if a.cmdCheck r = 1 then a.cmdEffect r else (a.cmdCheck r, a)).2 := by
    split
    · exact h0.trans (State.cmdEffect_stays _ _)
    · exact h0
  generalize (if a.cmdCheck r = 1 then a.cmdEffect r else (a.cmdCheck r, a)) = p at h1 ⊢
  have h2 := ((h1.ite_sec (p.1 = 1 ∧ 0 < cmdSeq_ r.bytes) fun x => { x with cmdSeq := cmdSeq_ r.bytes }).ite_sec
    (cmdCode_ r.bytes = 11 ∧ p.1 ≠ 1) fun x => { x with dbgFails := satAdd 4 x.dbgFails 1, lockout := x.lockout || decide (7 ≤ x.dbgFails), challenge := none })
  have h3 := h2.view (State.cmdResult_view _ 2 p.1 (cmdCode_ r.bytes % 256) (cmdSeq_ r.bytes))
  split
  · exact (h3.view (State.journal_view _ _ _ _)).then (State.tamperAck_kept _)
  · exact h3.view (State.journal_view _ _ _ _)

end Sys2Proof.Machine
end

