-- ==== Sys2Proof/Laws/Idle.lean ====
section
/-! SUPPORT. What the idle cycle of the step keeps: all that the commands keep, but the time. -/

namespace Sys2Proof.Machine

theorem State.idle_kept (s : State) : Kept { s with now := s.now + 10 } s.idle := by
  unfold State.idle
  refine Kept.trans (.of_view ?_) (State.closeDue_kept _)
  rw [view_foldl _ (fun x n => by simp), State.advanceGroups_view, view_modClk]
  rfl

/-- The idle cycle keeps the queue, the invariant and the lifecycle, and takes 10 ns. -/
theorem State.idle_pending (s : State) : s.idle.pending = s.pending := s.idle_kept.pending
theorem State.idle_now (s : State) : s.idle.now = s.now + 10 := s.idle_kept.now
theorem State.idle_inv (s : State) (h : s.Inv) : s.idle.Inv :=
  s.idle_kept.inv ⟨h.numbers, h.given, h.intact, h.beside, h.one, h.room⟩
theorem State.idle_lifecycle (s : State) : s.idle.live.sec.lifecycle = s.live.sec.lifecycle := s.idle_kept.lifecycle

end Sys2Proof.Machine
end

