-- ==== Sys2Proof/Laws/Sessions.lean ====
section
/-! SUPPORT. How a request of a session is taken on YRA and on YML: served when its counter is new, else answered as before or dropped. -/

namespace Sys2Proof.Machine

open Sys2Proof

variable {s : State} {cmd i ctr c : Nat} {ok : Bool} {x : Session} {m : OutMsg}

/-! YRA (R383). -/

theorem yraRequest_new {serve : Session → State → State} (h : s.hears .yra = true)
    (hx : s.live.eth.sessions.find? (fun (y : Session) => y.id = i) = some x) (hc : ∀ c, x.ctr = some c → c < ctr) :
    s.yraRequest i ctr true serve = serve x (s.modEth fun e => { e with
      sessions := e.sessions.map fun y => if y.id = i then { y with ctr := some ctr, lastReply := none, lastAt := s.now } else y }) := by
  simp only [State.yraRequest, h, hx, Bool.not_true, Bool.false_eq_true, if_false]
  cases hq : x.ctr with
  | none => rfl
  | some c => have := hc c hq; simp only; rw [if_neg (by omega), if_neg (by omega)]

theorem yraRequest_untagged {serve : Session → State → State} (h : s.hears .yra = true)
    (hx : s.live.eth.sessions.find? (fun (y : Session) => y.id = i) = some x) : s.yraRequest i ctr false serve = s.yraAuthFail := by
  simp [State.yraRequest, h, hx]

theorem yraRequest_repeated {serve : Session → State → State} (h : s.hears .yra = true)
    (hx : s.live.eth.sessions.find? (fun (y : Session) => y.id = i) = some x) (hc : x.ctr = some ctr) (hm : x.lastReply = some m) :
    s.yraRequest i ctr true serve = s.send m := by
  simp [State.yraRequest, h, hx, hc, hm]

theorem yraRequest_old {serve : Session → State → State} (h : s.hears .yra = true)
    (hx : s.live.eth.sessions.find? (fun (y : Session) => y.id = i) = some x) (hc : x.ctr = some c)
    (ho : ctr < c ∨ (ctr = c ∧ x.lastReply = none)) : s.yraRequest i ctr true serve = s := by
  simp only [State.yraRequest, h, hx, hc, Bool.not_true, Bool.false_eq_true, if_false]
  rcases ho with ho | ⟨ho, hn⟩
  · rw [if_pos ho]
  · rw [if_neg (by omega), if_pos ho, hn]

theorem yraRequest_unknown {serve : Session → State → State}
    (h : s.hears .yra = false ∨ s.live.eth.sessions.find? (fun (y : Session) => y.id = i) = none) : s.yraRequest i ctr ok serve = s := by
  rcases h with h | h
  · simp [State.yraRequest, h]
  · simp only [State.yraRequest, h, ite_self]

/-! YML (R526, R530). -/

theorem mgtRequest_open {serve : Role → State → State} (h : s.mgtServes = true) :
    s.mgtRequest cmd 0 ctr ok serve = serve .nobody (s.modMgt fun m => { m with rx := satAdd 16 m.rx 1 }) := by
  simp [State.mgtRequest, h]

theorem mgtRequest_new {serve : Role → State → State} (h : s.mgtServes = true) (hi : i ≠ 0)
    (hx : s.live.mgt.sessions.find? (fun (y : Session) => y.id = i) = some x) (hc : ∀ c, x.ctr = some c → c < ctr) :
    s.mgtRequest cmd i ctr true serve = serve x.role ((s.modMgt fun m => { m with rx := satAdd 16 m.rx 1 }).modMgt fun m => { m with
      sessions := m.sessions.map fun y => if y.id = i then { y with ctr := some ctr, lastReply := none, lastAt := s.now } else y }) := by
  have hx' : (s.modMgt fun m => { m with rx := satAdd 16 m.rx 1 }).live.mgt.sessions.find? (fun (y : Session) => y.id = i) = some x := hx
  simp only [State.mgtRequest, h, hi, hx', Bool.not_true, Bool.false_eq_true, if_false]
  cases hq : x.ctr with
  | none => rfl
  | some c => have := hc c hq; simp only; rw [if_neg (by omega), if_neg (by omega)]; rfl

theorem mgtRequest_noSession {serve : Role → State → State} (h : s.mgtServes = true) (hi : i ≠ 0)
    (hx : s.live.mgt.sessions.find? (fun (y : Session) => y.id = i) = none) :
    s.mgtRequest cmd i ctr ok serve = (s.modMgt fun m => { m with rx := satAdd 16 m.rx 1 }).mgtReply cmd i ctr 3 none [] := by
  have hx' : (s.modMgt fun m => { m with rx := satAdd 16 m.rx 1 }).live.mgt.sessions.find? (fun (y : Session) => y.id = i) = none := hx
  simp only [State.mgtRequest, h, hi, hx', Bool.not_true, Bool.false_eq_true, if_false]

theorem mgtRequest_untagged {serve : Role → State → State} (h : s.mgtServes = true) (hi : i ≠ 0)
    (hx : s.live.mgt.sessions.find? (fun (y : Session) => y.id = i) = some x) :
    s.mgtRequest cmd i ctr false serve = (s.modMgt fun m => { m with rx := satAdd 16 m.rx 1 }).mgtAuthFail := by
  have hx' : (s.modMgt fun m => { m with rx := satAdd 16 m.rx 1 }).live.mgt.sessions.find? (fun (y : Session) => y.id = i) = some x := hx
  simp only [State.mgtRequest, h, hi, hx', Bool.not_true, Bool.not_false, Bool.false_eq_true, if_false, if_true]

theorem mgtRequest_repeated {serve : Role → State → State} (h : s.mgtServes = true) (hi : i ≠ 0)
    (hx : s.live.mgt.sessions.find? (fun (y : Session) => y.id = i) = some x) (hc : x.ctr = some ctr) (hm : x.lastReply = some m) :
    s.mgtRequest cmd i ctr true serve =
      ((s.modMgt fun m => { m with rx := satAdd 16 m.rx 1 }).send m).modMgt fun y => { y with tx := satAdd 16 y.tx 1 } := by
  have hx' : (s.modMgt fun m => { m with rx := satAdd 16 m.rx 1 }).live.mgt.sessions.find? (fun (y : Session) => y.id = i) = some x := hx
  simp only [State.mgtRequest, h, hi, hx', hc, hm, Bool.not_true, Bool.false_eq_true, if_false, Nat.lt_irrefl, if_true]

theorem mgtRequest_old {serve : Role → State → State} (h : s.mgtServes = true) (hi : i ≠ 0)
    (hx : s.live.mgt.sessions.find? (fun (y : Session) => y.id = i) = some x) (hc : x.ctr = some c)
    (ho : ctr < c ∨ (ctr = c ∧ x.lastReply = none)) :
    s.mgtRequest cmd i ctr true serve = s.modMgt fun m => { m with rx := satAdd 16 m.rx 1 } := by
  have hx' : (s.modMgt fun m => { m with rx := satAdd 16 m.rx 1 }).live.mgt.sessions.find? (fun (y : Session) => y.id = i) = some x := hx
  simp only [State.mgtRequest, h, hi, hx', hc, Bool.not_true, Bool.false_eq_true, if_false]
  rcases ho with ho | ⟨ho, hn⟩
  · rw [if_pos ho]
  · rw [if_neg (by omega), if_pos ho, hn]

theorem mgtRequest_unserved {serve : Role → State → State} (h : s.mgtServes = false) : s.mgtRequest cmd i ctr ok serve = s := by
  simp [State.mgtRequest, h]

end Sys2Proof.Machine
end

