-- ==== Sys2Proof/Laws/Transact.lean ====
section
/-! SUPPORT. What a register transaction does, once for every command that is one: writes that wait for the boundary are staged and
answered, writes that act at their access act, RST_ writes ask for resets. -/

namespace Sys2Proof.Machine

/-- A write of a register none of whose fields acts at the access. -/
def Waits (addr : Nat) (v : Word) : Prop :=
  ∃ r, regAt addr = some r ∧ addr ≠ 0x284 ∧ addr ≠ 0x288 ∧ r.w1c = 0 ∧ r.rw = 0 ∧ (v.toNat &&& r.imm) = 0 ∧ stagedPart addr v = true

theorem State.access_waits (s : State) (t : Txn) (addr : Nat) (v : Word) (h : Waits addr v) :
    s.access t (.wr addr v) = (s, { t with accesses := t.accesses + 1, lastAccess := s.now, writes := t.writes ++ [(addr, v)] }) := by
  obtain ⟨r, hr, h1, h2, h3, h4, h5, h6⟩ := h
  unfold State.access
  simp only [hr, h1, h2, h3, h4, h5, h6, if_true, if_false]
  simp

theorem State.access_waits_all (s : State) (ws : List (Nat × Word)) (h : ∀ p ∈ ws, Waits p.1 p.2) (t : Txn) (ht : t.lastAccess = s.now) :
    s.accessAll t (ws.map fun p => Access.wr p.1 p.2)
      = (s, { t with accesses := t.accesses + ws.length, writes := t.writes ++ ws }) := by
  unfold State.accessAll
  induction ws generalizing t with
  | nil => simp
  | cons p ws ih =>
    rw [List.map_cons, List.foldl_cons, State.access_waits _ _ _ _ (h p (by simp)),
      ih (fun q hq => h q (by simp [hq])) _ rfl]
    simp [Nat.add_assoc, Nat.add_comm 1, ht]

/-- A transaction whose writes all keep their rules and find room closes: they are staged, it is answered. -/
theorem State.closeTxn_stages (s : State) (t : Txn) (hm : t.moduleReset = 0) (hb : t.blockBits = 0) (hx : ∀ x ∈ s.txns, x.id ≠ t.id)
    (hr : externalStaged s.staged + t.writes.length ≤ stagingMax)
    (hw : ∀ p ∈ t.writes, s.writeOk (s.bankOf t.readEpoch) t.src t.writes p.1 p.2 = true) (hne : t.writes ≠ []) (h0 : t.dropped = 0) :
    s.closeTxn t = ({ s with staged := s.staged ++ t.writes.map fun (p : Nat × Word) =>
        ({ txn := t.id, src := t.src, role := t.role, addr := p.1, val := p.2, readEpoch := t.readEpoch,
           closedAt := s.now, session := t.session } : Staged) }).answer t .ok (some (s.live.epc.epoch + 1)) := by
  have hf : s.txns.filter (fun x => decide (x.id ≠ t.id)) = s.txns := List.filter_eq_self.mpr (by simpa using hx)
  have hbad : t.writes.filter (fun x => !s.writeOk (s.bankOf t.readEpoch) t.src t.writes x.1 x.2) = [] :=
    List.filter_eq_nil_iff.mpr fun p hp => by simp [hw p hp]
  have hgood : t.writes.filter (fun x => s.writeOk (s.bankOf t.readEpoch) t.src t.writes x.1 x.2) = t.writes :=
    List.filter_eq_self.mpr fun p hp => hw p hp
  have hcap : ¬ (stagingMax < (s.staged.filter fun x => x.src ≠ .dp && !x.mirror).length + t.writes.length) := by
    have : (s.staged.filter fun x => x.src ≠ .dp && !x.mirror).length = externalStaged s.staged := rfl
    omega
  unfold State.closeTxn
  have hs : ({ s with txns := s.txns.filter fun x => decide (x.id ≠ t.id) } : State) = s := by rw [hf]
  simp only [hs, hm, hb, State.requestResets]
  have hcap' : ¬ (stagingMax < (s.staged.filter fun x => !decide (x.src = .dp) && !x.mirror).length + t.writes.length) := by
    simpa using hcap
  simp [hcap', hbad, hgood, h0, hne, hm, hb]
  cases t
  dsimp only at hm hb h0
  subst hm hb h0
  rfl

/-- The bank that the published epoch names. -/
theorem State.bankOf_pub (s : State) (b : Bank) (h : s.pub = some b) : s.bankOf b.epoch = b.core := by
  simp [State.bankOf, h]

/-- A transaction of writes that wait, none refused, closing at once: all its writes are staged. -/
theorem State.transact_stages (s : State) (src : Source) (role : Role) (session : Nat) (ws : List (Nat × Word)) (b : Bank)
    (hinv : s.Inv) (hp : s.pub = some b) (hw : ∀ p ∈ ws, Waits p.1 p.2) (hne : ws ≠ []) (hlen : ws.length ≤ 1024)
    (ha : ∀ p ∈ ws, s.live.permits src role (.wr p.1 p.2) = true) (hlock : src = .dbg → s.live.sec.locked = false)
    (hact : s.isActive = true ∨ ∀ p ∈ ws, isLocal p.1 = true) (hroom : externalStaged s.staged + ws.length ≤ stagingMax)
    (hok : ∀ p ∈ ws, ({ s with nextTxn := s.nextTxn + 1 } : State).writeOk b.core src ws p.1 p.2 = true) :
    s.transact src role session 0 .none (ws.map fun p => .wr p.1 p.2)
      = ({ s with nextTxn := s.nextTxn + 1, staged := s.staged ++ ws.map fun (p : Nat × Word) =>
          ({ txn := s.nextTxn, src := src, role := role, addr := p.1, val := p.2, readEpoch := b.epoch, closedAt := s.now
             session := session } : Staged) }).send (.txn src .none .ok 0 b.epoch (some (s.live.epc.epoch + 1)) []) := by
  have hden : ¬ (((ws.map fun p => Access.wr p.1 p.2).any fun a => !s.live.permits src role a) ∨ (src = .dbg ∧ s.live.sec.locked)) := by
    rintro (h | ⟨h1, h2⟩)
    · simp only [List.any_map, List.any_eq_true, Function.comp] at h
      obtain ⟨p, hp1, hp2⟩ := h
      simp [ha p hp1] at hp2
    · rw [hlock h1] at h2; cases h2
  have hmir : ¬ (((ws.map fun p => Access.wr p.1 p.2).any mirroredWrite) ∧ !s.isActive) := by
    rintro ⟨h1, h2⟩
    rcases hact with h | h
    · simp [h] at h2
    · simp only [List.any_map, List.any_eq_true, Function.comp] at h1
      obtain ⟨p, hp1, hp2⟩ := h1
      simp [mirroredWrite, h p hp1] at hp2
  have href : ({ s with nextTxn := s.nextTxn + 1 } : State).refuses src role (ws.map fun p => .wr p.1 p.2) = none := by
    unfold State.refuses
    rw [if_neg (by simp; omega), if_neg hden, if_neg (show ¬ (_ ∧ (!({ s with nextTxn := s.nextTxn + 1 } : State).isActive) = true) from hmir)]
  unfold State.transact
  dsimp only
  rw [if_neg (by simp [hp]), href]
  dsimp only
  rw [if_pos rfl, State.access_waits_all _ _ hw _ rfl]
  rw [State.closeTxn_stages]
  · simp [State.answer, emptyTxn, hp]
  all_goals simp [emptyTxn, hp, hne]
  · intro x hx; exact Nat.ne_of_lt (hinv.given x hx)
  · exact hroom
  · intro a v hav
    rw [State.bankOf_pub _ b (by simpa using hp)]
    exact hok _ hav

/-- A heard sender other than the debug port: a transaction of its own. -/
theorem State.submit_other (s : State) (w : Who) (as : List Access) (role : Role) (h : s.hears w.src = true) (hr : s.whoRole w = some role)
    (hs : w.src ≠ .dbg) : s.submit w as = s.transact w.src role w.session w.dur .none as := by
  unfold State.submit
  rw [if_neg (by simp [h]), hr]
  dsimp only
  split
  · exact absurd ‹_› hs
  · exact absurd ‹_› hs
  · rfl

/-- The debug port with no burst open: a transaction of its own, the instant noted (R456). -/
theorem State.submit_dbg (s : State) (w : Who) (as : List Access) (role : Role) (h : s.hears w.src = true) (hr : s.whoRole w = some role)
    (hs : w.src = .dbg) (hb : s.burst? = none) :
    s.submit w as = (s.modSec fun x => { x with lastBurst := s.now }).transact .dbg role 0 w.dur .none as := by
  unfold State.submit
  rw [if_neg (by simp [h]), hr]
  dsimp only
  rw [hs, hb]

end Sys2Proof.Machine
end

