-- ==== Sys2Proof/WellFormed.lean ====
section
/-! DEFINITION. Well-formed commands: a requester outside the device, and every number within the range the spec gives its unit. -/

namespace Sys2Proof

/-- A requester: one of the three outside sources (R34). -/
def Who.wf (w : Who) : Bool := w.src ≠ .dp

/-- The operands name units that the device has: channels (R248), groups and slices (R260), loop slots (R197), drivers (R285), metering
units (R299, R308), ports (R363), clocks (R372), CAN controllers (R392), alarms (R427), tamper inputs (R431), window sizes (R108, R446, R505). -/
def Instr.wf : Instr → Bool
  | .registerWrite w addr _ => w.wf && decide (addr < 0x10000)
  | .epcClrStats w => w.wf
  | .bootStart ratio => decide (ratio ≤ 1023)
  | .seriesSubmit w words => w.wf && decide (words.length ≤ 64)
  | .refreshAll w _ => w.wf
  | .identHold w _ => w.wf
  | .asmClrStats w _ => w.wf
  | .asmRelease w _ => w.wf
  | .paramOverride w _ => w.wf
  | .knownAnswerTest bad => (bad.all fun p => decide (p < 36))
  | .entryStart l => decide (l < 32)
  | .entryEnd l _ => decide (l < 32)
  | .crucibleFault l _ bad => decide (l < 32 ∧ (bad.all fun p => decide (p < 36)) = true)
  | .coldNext w => w.wf
  | .slvClrStats w => w.wf
  | .islCmdEnter w => w.wf
  | .islCmdLeave w => w.wf
  | .plnClrStats w => w.wf
  | .setpointWrite w n _ => w.wf && decide (n < 192)
  | .lpeHand w => w.wf
  | .lpeAuto w => w.wf
  | .lpeAutoAll w => w.wf
  | .lpeHandValue w _ => w.wf
  | .injArm w => w.wf
  | .injAbort w => w.wf
  | .lpeClrStats w => w.wf
  | .lgcRestart w => w.wf
  | .forceSet w tag _ => w.wf && decide (tag < 2 ^ 27)
  | .forceRemove w tag => w.wf && decide (tag < 2 ^ 27)
  | .forceRemoveAll w => w.wf
  | .hostTagWrite w k tag _ => w.wf && decide (k < 8 ∧ tag < 2 ^ 27)
  | .lgcClrStats w => w.wf
  | .passStart g samples => decide (g < 16 ∧ (samples.all fun x => decide (x.1 / 6 = g) && decide (x.2.1 < 4)) = true)
  | .fchStart w n => w.wf && decide (n < 96)
  | .fchUrgent w n => w.wf && decide (n < 96)
  | .fchHand w n => w.wf && decide (n < 96)
  | .fchAuto w n => w.wf && decide (n < 96)
  | .fltReset w n => w.wf && decide (n < 96)
  | .fchHandValue w n _ => w.wf && decide (n < 96)
  | .calibrationVisitEnd k _ _ _ _ => decide (k < 18)
  | .sliceStuck k => decide (k < 18)
  | .calZero w n => w.wf && decide (n < 96)
  | .calSpan w n => w.wf && decide (n < 96)
  | .calAverageDone n => decide (n < 96)
  | .calAccept w n => w.wf && decide (n < 96)
  | .calDiscard w n => w.wf && decide (n < 96)
  | .calFactory w n => w.wf && decide (n < 96)
  | .outputFaultTimer n _ _ => decide (n < 96)
  | .stageTrip n => decide (n < 96)
  | .tripRetry n => decide (n < 96)
  | .shuntOpen n => decide (n < 96)
  | .shuntRetry n => decide (n < 96)
  | .fchClrStats w => w.wf
  | .kickEnd d => decide (d < 32)
  | .retryWaitEnd d => decide (d < 32)
  | .tachLoss d => decide (d < 32)
  | .lowSpeedRekick d => decide (d < 32)
  | .tachRecovery d => decide (d < 32)
  | .stallRetry d => decide (d < 32)
  | .fanRestart w _ => w.wf
  | .fanClrStats w => w.wf
  | .referencePeriodEnd g _ => decide (g < 8)
  | .referenceSwitch g => decide (g < 8)
  | .forcedPeriodClose g _ => decide (g < 8)
  | .gainChange g k _ => decide (g < 8 ∧ k < 4)
  | .heatSample m => decide (m < 64)
  | .intervalClose kind unit => decide ((kind = 1 ∧ unit < 8) ∨ (kind = 2 ∧ unit < 64))
  | .clearGroup w g confirm => w.wf && decide (g < 8 ∧ confirm < 2 ^ 16)
  | .clearMeter w m confirm => w.wf && decide (m < 64 ∧ confirm < 2 ^ 16)
  | .clearAll w confirm => w.wf && decide (confirm < 2 ^ 16)
  | .unsAck w => w.wf
  | .nrgClrStats w => w.wf
  | .partnerCodeChange code _ => decide (code < 8)
  | .watchdogFire cause => decide (cause ≤ 4)
  | .heartbeatFrame _ h => decide (h.pstate < 16 ∧ h.mode < 16)
  | .joinFrame _ _ _ _ _ _ digest => decide (digest.length = 48)
  | .commitFrame _ _ _ _ _ commits => decide (commits.length ≤ 3)
  | .changeFrame _ _ _ digest _ => decide (digest.length = 48)
  | .handoverFrame _ _ cause => decide (cause < 16)
  | .divergeFrame _ kind _ _ => decide (kind < 3)
  | .selftestPeriodic test _ => decide (test < 4)
  | .parSwitch w => w.wf
  | .divClr w => w.wf
  | .parSelftest w => w.wf
  | .parClrStats w => w.wf
  | .linkChange p _ _ => decide (p < 2)
  | .ethFrameRx p _ => decide (p < 2)
  | .arpRequest p _ _ => decide (p < 2)
  | .icmpEcho p _ _ _ => decide (p < 2)
  | .ptpAnnounce d port _ _ _ => decide (d < 2 ∧ port < 2)
  | .ptpSync d port _ _ _ _ => decide (d < 2 ∧ port < 2)
  | .delayReq d => decide (d < 2)
  | .delayResp d _ _ => decide (d < 2)
  | .ptpSyncLoss d => decide (d < 2)
  | .addendWrite w d _ => w.wf && decide (d < 2)
  | .servoOff w _ _ => w.wf
  | .ptpCapture w => w.wf
  | .ptpLoadArm w clock _ => w.wf && decide (clock < 2)
  | .ptpArmedLoad d => decide (d < 2)
  | .ptpLoadStep w clock _ ns => w.wf && decide (clock < 2 ∧ ns < 1000000000)
  | .ptpClrStats w _ _ => w.wf
  | .ethClrStats w => w.wf
  | .yraOpen _ hostNonce _ => decide (hostNonce.length = 16)
  | .telemetry f => decide (f.sub < 2 ^ 16)
  | .yspSyncSend sub => decide (sub < 1024)
  | .canFrameRx c f => decide (c < 4 ∧ f.data.length ≤ 64)
  | .canObjectTimeout c id => decide (c < 4 ∧ id < 2048)
  | .canFrameEnd c how _ _ => decide (c < 4 ∧ how < 3)
  | .busOff c => decide (c < 4)
  | .busOffRecovery c => decide (c < 4)
  | .canSend w => w.wf
  | .canCancel w => w.wf
  | .canRelease w => w.wf
  | .canSleep w c => w.wf && decide (c < 4)
  | .canWake w c => w.wf && decide (c < 4)
  | .wakeEdge c => decide (c < 4)
  | .wakeFrame c f => decide (c < 4 ∧ f.data.length ≤ 64)
  | .canClrStats w => w.wf
  | .clkCapture w => w.wf
  | .clkLoadArm w _ => w.wf
  | .clkLoadStep w _ sub => w.wf && decide (sub < 32768)
  | .alarmFire n => decide (n < 16)
  | .alarmArm w n => w.wf && decide (n < 16)
  | .alarmDisarm w n => w.wf && decide (n < 16)
  | .alarmFiredClear w _ => w.wf
  | .tamperActivation n => decide (n < 2)
  | .provision w c => w.wf && decide (c.body.length ≤ 112 ∧ c.sig.length ≤ 64)
  | .enrol w c => w.wf && decide (c.body.length ≤ 112 ∧ c.sig.length ≤ 64)
  | .enrolPub w c => w.wf && decide (c.body.length ≤ 112 ∧ c.sig.length ≤ 64)
  | .revoke w c => w.wf && decide (c.body.length ≤ 112 ∧ c.sig.length ≤ 64)
  | .deploy w c => w.wf && decide (c.body.length ≤ 112 ∧ c.sig.length ≤ 64)
  | .returnModule w c => w.wf && decide (c.body.length ≤ 112 ∧ c.sig.length ≤ 64)
  | .scrap w c => w.wf && decide (c.body.length ≤ 112 ∧ c.sig.length ≤ 64)
  | .secSettings w c => w.wf && decide (c.body.length ≤ 112 ∧ c.sig.length ≤ 64)
  | .tamperAck w c => w.wf && decide (c.body.length ≤ 112 ∧ c.sig.length ≤ 64)
  | .forceClaim w c => w.wf && decide (c.body.length ≤ 112 ∧ c.sig.length ≤ 64)
  | .debugUnlock w c => w.wf && decide (c.body.length ≤ 112 ∧ c.sig.length ≤ 64)
  | .dbgReq w => w.wf
  | .dbgLock w => w.wf
  | .dbgOpenNext w => w.wf
  | .attGo w chal => w.wf && decide (chal.length = 4)
  | .rstWarm w => w.wf
  | .rstCold w => w.wf
  | .blockResetCp w => w.wf
  | .blockResetSolver w => w.wf
  | .blockResetAsm w => w.wf
  | .blockResetEth w => w.wf
  | .blockResetCan w => w.wf
  | .blockResetMgt w => w.wf
  | .modeCommission w => w.wf
  | .modeRun w => w.wf
  | .modeTune w => w.wf
  | .modeSafehold w => w.wf
  | .startMode w _ => w.wf
  | .updOffer w words => w.wf && decide (words.length ≤ 128)
  | .updChunk w _ words => w.wf && decide (words.length ≤ 128)
  | .endOffer w => w.wf
  | .updAbort w => w.wf
  | .updSwap w => w.wf
  | .updConfirm w => w.wf
  | .updRevert w => w.wf
  | .updFloor w => w.wf
  | .mgtOpen _ hostNonce _ => decide (hostNonce.length = 16)
  | .mgtReset _ _ _ module blocks => decide (module < 4 ∧ blocks < 64)
  | .closeAll w => w.wf
  | .mgtClrStats w => w.wf
  | .sysClrStats w => w.wf
  | .tamperInputInactive n => decide (n < 2)
  | .pulseEdge n => decide (n < 96)
  | .dinSample n _ => decide (n < 96)
  | .pwmPeriodStart n => decide (n < 96)
  | .busIntegration c => decide (c < 4)
  | .busOffRecoveryComplete c => decide (c < 4)
  | .epochBoundary | .pourComplete | .livenessStage | .dpAbsent | .crystalLoss | .bootEnd _ _ _ | .loadComplete | .openingEpoch
  | .ladleReady | .horizonStepBoundary | .paramSave | .solveDeadline | .holdEnd | .gridLossConfirm | .islandEnter | .gridRestore
  | .islandLeave | .groupRestore | .loopTick _ | .outputInstant | .preSamplesDone | .injectionDone | .logicCycle _ _
  | .logicWatchdog _ | .onlineChangeCheck | .changeEpoch | .sliceHandover | .vfldLow _ | .vfldRestored _ | .periodicCapture _ _
  | .gateOpen _ | .watchdogReset | .heartbeatSend | .hbPathLost | .linkPathLost | .pathRestored _ | .killInEnergised
  | .killInReleased | .killOutRelease | .waitTimeout | .epochFrame _ _ _ _ _ | .calendarSyncStep | .staleTimeout
  | .tagsFrame _ _ _ | .resyncComplete _ | .immediateFrame _ _ _ _ | .handoverStart | .handoverEnd | .takeBack
  | .outputsFrame _ _ | .divergenceResolve | .prpSupervision | .reassemblyTimeout _ | .ptpReturn | .yraProve _ _ _
  | .yraData _ _ _ _ _ | .yraClose _ _ _ | .yraSessionTimeout _ | .vbakSwitch _ _ | .vbakReturn _ _ | .vbakMeasure _
  | .calendarArmedLoad | .temperatureTrim _ | .mainsWindow | .ptpReferenceCompare | .automaticStep | .referenceTimeout
  | .dstTransition | .challengeExpiry | .partialTimeout | .burstOpen _ | .burstClose | .burstTimeout | .drbgReseed
  | .powerOnReset | .powerOnRelease _ | .pfWarning _ | .pfWarningEnd _ | .pfWarmReset | .resetNRequest | .resetNRelease
  | .moduleResetExecute | .blockResetExecute _ _ | .lockstepMismatch _ | .cpFirmwareWatchdog _ | .lockTimeout | .installation _
  | .swapPoint | .trialConfirmed | .trialFailure | .mgtHello _ | .mgtProve _ _ _ | .mgtClose _ _ _ | .mgtHealth _ _ _
  | .mgtJournal _ _ _ _ _ | .mgtRegs _ _ _ _ _ | .mgtFrameDiscard _ | .mgtSessionTimeout _ | .speedChange
  | .dramUncorrectable _ _ _ | .dramCorrected _ | .overtempChange _ | .backupDomainLoss | .selftestFrame _ _
  | .selftestComplete _ _ _ _ | .bulkFrame _ _ | .securityCommandEnd | .attestationComplete | .takingActiveCode => true

end Sys2Proof
end

