-- ==== Sys2Proof/Tests/Slice0.lean ====
section
/-! SUPPORT. Tests: worked examples of the spec, ill-formed commands that the check refuses, and for every statement with hypotheses a
state and operands that meet them, clause by clause. -/

set_option maxRecDepth 20000

namespace Sys2Proof.Tests

open Sys2Proof Sys2Proof.Machine Sys2Proof.Claims


/-- Bytes, a record, a section, from numbers. -/
def bs (l : List Nat) : Bytes := l.map (BitVec.ofNat 8)
def rc (t i : Nat) (l : List Nat) : Rec := { rtype := t, index := i, body := bs l }
def sc (t : Nat) (l : List Rec) : Sect := { stype := t, recs := l }

/-- An instant 100 000 s after the origin. -/
def T : Nat := 100000000000000

/-- The SYSTEM record of a pair mode, with an optimiser of one scenario and two substations. -/
def sysRec (pair : Nat) : Rec := rc 0x101 0 [0, 0, pair, 0, 0, 0, 0, 0, 2, 0, 0, 0, 15, 0, 4, 1, 2, 0, 1, 0, 0, 0, 0, 0, 0, 0, 0, 0]

/-- A casting with something of everything: channels 0 to 9 of the types 0 to 9, a metering group and a heat meter, three fan drivers, both ports and
PTP slots, a CAN controller, a slot, a program, an islanding configuration, the mains as the calendar's reference. -/
def sections (pair : Nat) : List Sect := [
  sc 0x10 [sysRec pair],
  sc 0x22 [rc 0x221 0 [1], rc 0x222 0 ([1, 0, 0, 0, 0, 0, 0, 0] ++ List.replicate 16 0)],
  sc 0x30 [rc 0x301 0 (List.replicate 64 0)],
  sc 0x31 [rc 0x310 0 [0, 0, 0, 0, 0, 0, 0, 0, 100, 0, 0, 0, 0, 0, 0, 0]],
  sc 0x40 ([rc 0x401 0 [100, 0, 0, 0], rc 0x402 0 [16, 39, 0, 0]] ++
    (List.range 10).map fun n => rc 0x403 n ([n, 0, 1, 0, 0, 0, 0, 0] ++ List.replicate 40 0)),
  sc 0x41 ([0, 1, 2].map fun d => rc 0x411 d ([9 + d, if d = 0 then 255 else 5, 255, 0, 0, 2, 2, 0, 64, 156, 0, 0, 0, 0, 0, 0, 100, 0, 10, 0, 100, 0] ++
    List.replicate 90 0)),
  sc 0x50 [rc 0x501 0 (List.replicate 64 0), rc 0x502 0 (List.replicate 32 1)],
  sc 0x60 ([0, 1].map (fun p => rc 0x601 p ([2, 1, 1, 0, 1, 0, 0, 10, 2, 0, 0, 10] ++ List.replicate 20 0)) ++
    [0, 1].map (fun d => rc 0x602 d ([0, 1, 3, 10, 0, 0, 60, 0] ++ List.replicate 16 0)) ++ [rc 0x603 0 [0, 0, 0, 0, 0, 0, 0, 0, 0, 0, 0, 0, 8, 0, 0, 0]]),
  sc 0x61 ([0, 1].map (fun c => rc 0x611 c ([1 + c, 1 + c, 0, 0, 0, 0, 0, 0, 0, 0, 0, 0, 0, 0, 2, 0, 100, 0] ++ List.replicate 6 0)) ++
    [rc 0x612 5 [1, 8, 100, 0], rc 0x612 6 [2, 8, 0, 0], rc 0x613 0 [6, 0, 0, 0], rc 0x615 1 (List.replicate 24 0)]),
  sc 0x70 [rc 0x700 0 ([0, 0, 20, 0, 0, 0, 0, 0, 0, 0, 10, 0] ++ List.replicate 20 0)],
  sc 0x90 [rc 0x901 0 [1, 5, 50, 0, 10, 0, 1, 0]]]

/-- The blocks of a module that runs such a casting, at a boundary. -/
def liveCore (pair : Nat) : Core := {
  epc := { served := true, casting := true, epoch := 8, periodMs := 10, planP := 4, pouring := true, boundaryAt := T }
  cst := { sects := sections pair }
  pwr := { mode := .active, powered := true, bootStarted := true, cpRunning := true }
  fch := { configured := true }
  eth := { port0 := { up := true }, port1 := { up := true } }
  par := { gate := decide (pair = 0) } }

/-- It as a machine: alone, and in a pair as a standby in READY. -/
def solo : State := { now := T, pub := some { epoch := 8, core := liveCore 0 }, live := liveCore 0 }
def duo : State := { now := T, pub := some { epoch := 8, core := liveCore 1 }, live := { liveCore 1 with
  par := { pstate := 4, code := 2, linkOk := true, hbOk := true, adopted := true } } }

/-- The sections with channel 9 on the field supply's range. -/
def stretched : List Sect := (sections 0).map fun x => if x.stype = 0x40 then
  { x with recs := x.recs.map fun r => if r.rtype = 0x403 ∧ r.index = 9 then { r with body := bs ([9, 1] ++ List.replicate 46 0) } else r } else x

/-- The sections with the network's time as the calendar's reference. -/
def byNetwork : List Sect := (sections 0).map fun x => if x.stype = 0x90 then { x with recs := [rc 0x901 0 [2, 5, 50, 0, 10, 0, 1, 0]] } else x

/-- The sections with a stability time of 2 ms on channel 5. -/
def debounced : List Sect := (sections 0).map fun x => if x.stype = 0x40 then
  { x with recs := x.recs.map fun r => if r.rtype = 0x403 ∧ r.index = 5 then { r with body := bs ([5, 0, 1] ++ List.replicate 44 0 ++ [20]) } else r } else x

/-- A signed command of a code: SCRAP's form, nothing in its body. -/
def cmd (code : Nat) : Bytes := bs ([0x59, 0x53, 0x43, 0x4D, code, 0, 0, 0] ++ List.replicate 8 0 ++ [1] ++ List.replicate 71 0)

/-- The same, deployed, with the Owner material open. -/
def deployed : State := solo.modSec fun x => { x with lifecycle := .deployed, ownerOpen := true, slots := [(roleSlot .owner, { cls := 1, key := [1] }), (3, { cls := 1, key := [1] }), (4, { cls := 1, key := [1] })] }

/-! Worked examples of the spec. -/

/-- The state after a command. -/
def after (c : Instr) (s : State) : State := match exec c s with | .next t => t | _ => s

/-- Chapter 0: Q16.16 0xFFFF_8000 is −0.5. -/
theorem test_q16_minus_half : Dy.ofQ16 0xFFFF8000 = { m := -32768, e := -16 } := by decide

/-- Chapter 3: the SYSTEM record of the worked example. -/
def exampleSystem : Cst := { sects := [sc 0x10 [rc 0x101 0 [0x0A, 0, 0, 0, 0x70, 0x17, 0, 0, 0xC8, 0, 0, 0, 0x0F, 0, 0x30, 8, 0, 4, 0xC8, 0,
  0x70, 0x17, 0, 0, 1, 0, 0, 0, 0, 0, 0, 0]]] }
theorem test_system_record : (exampleSystem.deadline, exampleSystem.horizon, exampleSystem.scenarios, exampleSystem.iterMax,
    exampleSystem.stagingWords) = (200, 48, 8, 200, 6000) := by decide

/-- Chapter 4: −1.0 times 0x0000_4CCD times 0x0015_4CCD, written to Q8.24, gives 0xF99C_24A4. -/
theorem test_param_value_product :
    let term := ((q16 0xFFFF0000).mul (q16 0x00004CCD)).mul (q16 0x00154CCD)
    BitVec.ofInt 32 (writeFrac { frac := 24, lo := -(2 ^ 31), hi := 2 ^ 31 - 1 } term.raw term.frac 1).1 = 0xF99C24A4 := by decide

/-- Chapter 6: scenario values 78.5 and 81.25 under weights 0.75 and 0.25 are written as 0x13CC_0000 in Q10.22; the point's transform
a = 1, b = −2 gives 0x429A_6000. -/
def examplePoint : Bytes := bs (List.replicate 12 0 ++ [0, 0, 0x80, 0x3F, 0, 0, 0, 0xC0] ++ [0, 0, 0x80, 0xFF, 0, 0, 0x80, 0x7F] ++ List.replicate 20 0)
theorem test_point_value : (pointValue examplePoint { frac := 22, lo := -(2 ^ 31), hi := 2 ^ 31 - 1 } 0x13CC0000).1 = 0x429A6000 := by decide

/-- Chapter 8: a TON at 12,400.2 ms executed 0.40 ms later against PT = 10 s reads 0x8000_3070. -/
theorem test_timer_word : ((TagVal.ton { word := timerWord 12400200 false, et := 12400200, inp := true, last := 5000 } true 10000000 5400).et,
    (TagVal.ton { word := timerWord 12400200 false, et := 12400200, inp := true, last := 5000 } true 10000000 5400).word)
      = (12400600, 0x80003070) := by decide

/-- Chapter 8: a new R_TRIG whose input is 1 stores its input first and yields Q = 0. -/
theorem test_new_edge_detector : (TagVal.edge { fresh := true } true true).word = 1 := by decide

/-- Chapter 9: system calibration from m_z = 4.015 625 and m_s = 19.953 125 against 4.0 and 20.0. -/
theorem test_calibration : (calGain 0x40800000 0x41A00000 0x40808000 0x419FA000, calOffset 0x40800000 0x41A00000 0x40808000 0x419FA000)
    = (0x3F808081, 0x3D000000) := by decide

/-- Chapter 9: the corrected value of q_f = 8.0 is 8.0, and the channel's value 2.5. -/
theorem test_calibrated_value : (fMul (fSub 0x41000000 0x3D000000) 0x3F808081, fAdd (fMul 0x3F200000 0x41000000) 0xC0200000)
    = (0x41000000, 0x40200000) := by decide

/-- Chapter 10: driver 5 in STALL after four attempts, journalled and alarmed, reads 0x0000_1064. -/
theorem test_fan_stall : readFan { (liveCore 0) with
    cst := { sects := [sc 0x41 [rc 0x411 5 ([60, 61, 255] ++ List.replicate 109 0)]] }
    fan := { drivers := [(5, { st := 4, attempt := 4, stallSeen := true })] } } 0x2550 = 0x1064 := by decide

/-- Chapters 12 and 13: NCLAIM of each code in the takeover. -/
theorem test_nclaim : ([(41, 5), (42, 7), (42, 4), (43, 5)].map fun p => ({ gen := p.1, code := p.2 } : Par).nclaim)
    = [333, 343, 340, 349] := by decide

/-- Chapter 15: the forward step to 10:16:20 skips 10:15:00 of alarm 3, which fires LATE and goes on at 10:30:00. -/
def exampleAlarms : State := State.reset.modClk fun c => { c with alarms := [
  (3, { conf := true, periodic := true, at_ := 1767225600, period := 900, armed := true, next := 1767262500 }),
  (5, { conf := true, at_ := 1767262800, armed := true, next := 1767262800 })] }
theorem test_alarm_skipped :
    let s := exampleAlarms.stepAlarm (1767262490 * 32768) (1767262580 * 32768) 3
    (s.live.clk.late, (tget s.live.clk.alarms 3 {}).next) = (0x8, 1767263400) := by decide

/-- Chapter 15: after the backward step to 10:29:40 alarm 3 is realigned to 10:30:00 and fires again as REP. -/
theorem test_alarm_repeated :
    let s := exampleAlarms.modClk fun c => { c with alarms := [(3, { tget c.alarms 3 {} with next := 1767264300, lastFired := some 1767263400 })] }
    let t := s.stepAlarm (1767263410 * 32768) (1767263380 * 32768) 3
    ((tget t.live.clk.alarms 3 {}).next, (t.fireAlarm 3 1767263400 false none).live.clk.rep) = (1767263400, 0x8) := by decide

/-- Chapter 16: SEC_TAMPER and SEC_STATUS of a DEPLOYED module in SAFEHOLD with the latch held, and SEC_CMD_RES after TAMPER_ACK 18. -/
theorem test_tamper_held : let x := { (liveCore 0) with sec := { lifecycle := .deployed, keysOk := true, tSleep := true, ackPending := true, tamperCount := 1 } }
    (readSec x 0x3E00, readSec x 0x3E04) = (0x42, 0x124) := by decide
theorem test_tamper_ack_result : readSec { (liveCore 0) with sec := { cmdState := 2, cmdResult := 1, cmdCode := 9, cmdResSeq := 18 } } 0x3E3C = 0x00120906 := by
  decide
/-- Chapter 16: SEALED_HOLD in CST_ERR0. -/
theorem test_sealed_hold : readCst { (liveCore 0) with cst := { err0 := { code := cSealedHold } } } 0x404 = 0x15 := by decide

/-- Chapter 17: the causes POWER_ON and RESET_N, and the strap at 333 per mille. -/
theorem test_reset_cause : readPwr { (liveCore 0) with pwr := { sources := [.resetN, .powerOn] } } 0x280 = 0x1405 := by decide
theorem test_strap : (strapOf 333, readPwr { (liveCore 0) with pwr := { strapCode := 5, strapValid := true, strapRatio := 333 } } 0x21C)
    = (some 5, 0x00053555) := by decide

/-- Chapter 18: the replies of the pre-empted upload. -/
theorem test_update_replies :
    let u : Upd := { bankYml := { result := 2, holder := 1, role := 2, kind := 2, stage := 2 }, bankYra := { result := 14, holder := 2, role := 1, kind := 1, stage := 2 } }
    let k := { (liveCore 0) with upd := u }
    (readUpd k k .yml 0x048C, readUpd k k .yra 0x048C) = (0x2922, 0x24CE) := by decide

/-- Chapter 14: STATE 0, RESULT 2 (cancelled) and ID 0x120. -/
theorem test_mailbox_cancelled : readCan { (liveCore 0) with
    cst := { sects := [sc 0x61 [rc 0x611 0 [1], rc 0x613 0 [0x20, 1, 0, 8]]] }, can := { mbs := [(0, { result := 2 })] } } 0x3984 = 0x01200008 := by decide

/-- Chapter 20: the write of 20 to EPC_PERIOD from YRA. -/
theorem test_stray_write :
    let s := after (.registerWrite { src := .yra, role := .owner } 0x0108 20) ((solo.modSys fun x => { x with werr := 5 }).modSec fun x => { x with
      lifecycle := .deployed, ownerOpen := true, slots := [(roleSlot .owner, { cls := 1, key := [1] })] })
    (readSys s.live 0x08, readSys s.live 0x0C) = (6, 0x00210108) := by decide

/-! Well-formed commands, and an ill-formed one for every check. -/

/-- A requester. -/
def yml : Who := { src := .yml, role := .owner }

theorem test_wellFormed_1 : ([
  .registerWrite yml 0 0,
  .epcClrStats yml,
  .bootStart 0,
  .seriesSubmit yml [],
  .refreshAll yml false,
  .identHold yml false,
  .asmClrStats yml false,
  .asmRelease yml false,
  .paramOverride yml 0,
  .knownAnswerTest [],
  .entryStart 0,
  .entryEnd 0 0,
  .crucibleFault 0 false [],
  .coldNext yml,
  .slvClrStats yml,
  .islCmdEnter yml,
  .islCmdLeave yml,
  .plnClrStats yml,
  .setpointWrite yml 0 0,
  .lpeHand yml,
  .lpeAuto yml,
  .lpeAutoAll yml,
  .lpeHandValue yml 0,
  .injArm yml,
  .injAbort yml,
  .lpeClrStats yml,
  .lgcRestart yml,
  .forceSet yml 0 0,
  .forceRemove yml 0,
  .forceRemoveAll yml,
  .hostTagWrite yml 0 0 0,
  .lgcClrStats yml,
  .passStart 0 [],
  .fchStart yml 0,
  .fchUrgent yml 0,
  .fchHand yml 0,
  .fchAuto yml 0,
  .fltReset yml 0,
  .fchHandValue yml 0 0,
  .calibrationVisitEnd 0 0 0 0 0,
  .sliceStuck 0,
  .calZero yml 0] : List Instr).all (fun c => c.wf = true) = true := by decide

theorem test_wellFormed_2 : ([
  .calSpan yml 0,
  .calAverageDone 0,
  .calAccept yml 0,
  .calDiscard yml 0,
  .calFactory yml 0,
  .outputFaultTimer 0 false false,
  .stageTrip 0,
  .tripRetry 0,
  .shuntOpen 0,
  .shuntRetry 0,
  .fchClrStats yml,
  .kickEnd 0,
  .retryWaitEnd 0,
  .tachLoss 0,
  .lowSpeedRekick 0,
  .tachRecovery 0,
  .stallRetry 0,
  .fanRestart yml 0,
  .fanClrStats yml,
  .referencePeriodEnd 0 ({ n := 0, vi := [], qi := [], vv := [], ii := [], residual := 0 }),
  .referenceSwitch 0,
  .forcedPeriodClose 0 ({ n := 0, vi := [], qi := [], vv := [], ii := [], residual := 0 }),
  .gainChange 0 0 false,
  .heatSample 0,
  .intervalClose 1 0,
  .clearGroup yml 0 0,
  .clearMeter yml 0 0,
  .clearAll yml 0,
  .unsAck yml,
  .nrgClrStats yml,
  .partnerCodeChange 0 false,
  .watchdogFire 0,
  .heartbeatFrame false ({ nclaim := 0, pstate := 0, mode := 0, health := 0, stale := false }),
  .joinFrame false false false 0 0 0 (List.replicate 48 0),
  .commitFrame false 0 [] none none [],
  .changeFrame false 0 0 (List.replicate 48 0) none,
  .handoverFrame false 0 0,
  .divergeFrame false 0 0 0,
  .selftestPeriodic 0 false,
  .parSwitch yml,
  .divClr yml,
  .parSelftest yml] : List Instr).all (fun c => c.wf = true) = true := by decide

theorem test_wellFormed_3 : ([
  .parClrStats yml,
  .linkChange 0 false false,
  .ethFrameRx 0 ({ len := 64, cls := 0 }),
  .arpRequest 0 0 0,
  .icmpEcho 0 0 0 [],
  .ptpAnnounce 0 0 0 [] 0,
  .ptpSync 0 0 0 0 0 0,
  .delayReq 0,
  .delayResp 0 0 0,
  .ptpSyncLoss 0,
  .addendWrite yml 0 0,
  .servoOff yml false false,
  .ptpCapture yml,
  .ptpLoadArm yml 0 0,
  .ptpArmedLoad 0,
  .ptpLoadStep yml 0 0 0,
  .ptpClrStats yml false false,
  .ethClrStats yml,
  .yraOpen 0 (List.replicate 16 0) 0,
  .telemetry ({ addr := 0, ver := 0, sub := 0, nclaim := 0, fcnt := 0, len := 0, tagOk := true, echo := 0, state := 0, count := 0, entries := [] }),
  .yspSyncSend 0,
  .canFrameRx 0 ({ id := 0 }),
  .canObjectTimeout 0 0,
  .canFrameEnd 0 0 0 false,
  .busOff 0,
  .busOffRecovery 0,
  .canSend yml,
  .canCancel yml,
  .canRelease yml,
  .canSleep yml 0,
  .canWake yml 0,
  .wakeEdge 0,
  .wakeFrame 0 ({ id := 0 }),
  .canClrStats yml,
  .clkCapture yml,
  .clkLoadArm yml 0,
  .clkLoadStep yml 0 0,
  .alarmFire 0,
  .alarmArm yml 0,
  .alarmDisarm yml 0,
  .alarmFiredClear yml 0,
  .tamperActivation 0] : List Instr).all (fun c => c.wf = true) = true := by decide

theorem test_wellFormed_4 : ([
  .provision yml ({ serial := 0, seq := 1 }),
  .enrol yml ({ serial := 0, seq := 1 }),
  .enrolPub yml ({ serial := 0, seq := 1 }),
  .revoke yml ({ serial := 0, seq := 1 }),
  .deploy yml ({ serial := 0, seq := 1 }),
  .returnModule yml ({ serial := 0, seq := 1 }),
  .scrap yml ({ serial := 0, seq := 1 }),
  .secSettings yml ({ serial := 0, seq := 1 }),
  .tamperAck yml ({ serial := 0, seq := 1 }),
  .forceClaim yml ({ serial := 0, seq := 1 }),
  .debugUnlock yml ({ serial := 0, seq := 1 }),
  .dbgReq yml,
  .dbgLock yml,
  .dbgOpenNext yml,
  .attGo yml (List.replicate 4 0),
  .rstWarm yml,
  .rstCold yml,
  .blockResetCp yml,
  .blockResetSolver yml,
  .blockResetAsm yml,
  .blockResetEth yml,
  .blockResetCan yml,
  .blockResetMgt yml,
  .modeCommission yml,
  .modeRun yml,
  .modeTune yml,
  .modeSafehold yml,
  .startMode yml false,
  .updOffer yml [],
  .updChunk yml 0 [],
  .endOffer yml,
  .updAbort yml,
  .updSwap yml,
  .updConfirm yml,
  .updRevert yml,
  .updFloor yml,
  .mgtOpen 0 (List.replicate 16 0) 0,
  .mgtReset 0 0 false 0 0,
  .closeAll yml,
  .mgtClrStats yml,
  .sysClrStats yml,
  .tamperInputInactive 0] : List Instr).all (fun c => c.wf = true) = true := by decide

theorem test_wellFormed_5 : ([
  .pulseEdge 0,
  .dinSample 0 false,
  .pwmPeriodStart 0,
  .busIntegration 0,
  .busOffRecoveryComplete 0] : List Instr).all (fun c => c.wf = true) = true := by decide

theorem test_illFormed_1 : ([
  .registerWrite yml 65536 0,
  .registerWrite ({ src := .dp, role := .nobody }) 0 0,
  .epcClrStats ({ src := .dp, role := .nobody }),
  .bootStart 1024,
  .seriesSubmit yml (List.replicate 65 0),
  .seriesSubmit ({ src := .dp, role := .nobody }) [],
  .refreshAll ({ src := .dp, role := .nobody }) false,
  .identHold ({ src := .dp, role := .nobody }) false,
  .asmClrStats ({ src := .dp, role := .nobody }) false,
  .asmRelease ({ src := .dp, role := .nobody }) false,
  .paramOverride ({ src := .dp, role := .nobody }) 0,
  .knownAnswerTest [36],
  .entryStart 32,
  .entryEnd 32 0,
  .crucibleFault 32 false [],
  .crucibleFault 0 false [36],
  .coldNext ({ src := .dp, role := .nobody }),
  .slvClrStats ({ src := .dp, role := .nobody }),
  .islCmdEnter ({ src := .dp, role := .nobody }),
  .islCmdLeave ({ src := .dp, role := .nobody }),
  .plnClrStats ({ src := .dp, role := .nobody }),
  .setpointWrite yml 192 0,
  .setpointWrite ({ src := .dp, role := .nobody }) 0 0,
  .lpeHand ({ src := .dp, role := .nobody }),
  .lpeAuto ({ src := .dp, role := .nobody }),
  .lpeAutoAll ({ src := .dp, role := .nobody }),
  .lpeHandValue ({ src := .dp, role := .nobody }) 0,
  .injArm ({ src := .dp, role := .nobody }),
  .injAbort ({ src := .dp, role := .nobody }),
  .lpeClrStats ({ src := .dp, role := .nobody }),
  .lgcRestart ({ src := .dp, role := .nobody }),
  .forceSet yml 134217728 0,
  .forceSet ({ src := .dp, role := .nobody }) 0 0,
  .forceRemove yml 134217728,
  .forceRemove ({ src := .dp, role := .nobody }) 0,
  .forceRemoveAll ({ src := .dp, role := .nobody }),
  .hostTagWrite yml 8 0 0,
  .hostTagWrite yml 0 134217728 0,
  .hostTagWrite ({ src := .dp, role := .nobody }) 0 0 0,
  .lgcClrStats ({ src := .dp, role := .nobody }),
  .passStart 16 [],
  .passStart 0 [(6, 0, 0, true)]] : List Instr).all (fun c => c.wf = false) = true := by decide

theorem test_illFormed_2 : ([
  .passStart 0 [(5, 4, 0, true)],
  .fchStart yml 96,
  .fchStart ({ src := .dp, role := .nobody }) 0,
  .fchUrgent yml 96,
  .fchUrgent ({ src := .dp, role := .nobody }) 0,
  .fchHand yml 96,
  .fchHand ({ src := .dp, role := .nobody }) 0,
  .fchAuto yml 96,
  .fchAuto ({ src := .dp, role := .nobody }) 0,
  .fltReset yml 96,
  .fltReset ({ src := .dp, role := .nobody }) 0,
  .fchHandValue yml 96 0,
  .fchHandValue ({ src := .dp, role := .nobody }) 0 0,
  .calibrationVisitEnd 18 0 0 0 0,
  .sliceStuck 18,
  .calZero yml 96,
  .calZero ({ src := .dp, role := .nobody }) 0,
  .calSpan yml 96,
  .calSpan ({ src := .dp, role := .nobody }) 0,
  .calAverageDone 96,
  .calAccept yml 96,
  .calAccept ({ src := .dp, role := .nobody }) 0,
  .calDiscard yml 96,
  .calDiscard ({ src := .dp, role := .nobody }) 0,
  .calFactory yml 96,
  .calFactory ({ src := .dp, role := .nobody }) 0,
  .outputFaultTimer 96 false false,
  .stageTrip 96,
  .tripRetry 96,
  .shuntOpen 96,
  .shuntRetry 96,
  .fchClrStats ({ src := .dp, role := .nobody }),
  .kickEnd 32,
  .retryWaitEnd 32,
  .tachLoss 32,
  .lowSpeedRekick 32,
  .tachRecovery 32,
  .stallRetry 32,
  .fanRestart ({ src := .dp, role := .nobody }) 0,
  .fanClrStats ({ src := .dp, role := .nobody }),
  .referencePeriodEnd 8 ({ n := 0, vi := [], qi := [], vv := [], ii := [], residual := 0 }),
  .referenceSwitch 8] : List Instr).all (fun c => c.wf = false) = true := by decide

theorem test_illFormed_3 : ([
  .forcedPeriodClose 8 ({ n := 0, vi := [], qi := [], vv := [], ii := [], residual := 0 }),
  .gainChange 8 0 false,
  .gainChange 0 4 false,
  .heatSample 64,
  .intervalClose 1 8,
  .intervalClose 0 0,
  .intervalClose 3 0,
  .clearGroup yml 8 0,
  .clearGroup yml 0 65536,
  .clearGroup ({ src := .dp, role := .nobody }) 0 0,
  .clearMeter yml 64 0,
  .clearMeter yml 0 65536,
  .clearMeter ({ src := .dp, role := .nobody }) 0 0,
  .clearAll yml 65536,
  .clearAll ({ src := .dp, role := .nobody }) 0,
  .unsAck ({ src := .dp, role := .nobody }),
  .nrgClrStats ({ src := .dp, role := .nobody }),
  .partnerCodeChange 8 false,
  .watchdogFire 5,
  .heartbeatFrame false ({ nclaim := 0, pstate := 16, mode := 0, health := 0, stale := false }),
  .heartbeatFrame false ({ nclaim := 0, pstate := 0, mode := 16, health := 0, stale := false }),
  .joinFrame false false false 0 0 0 (List.replicate 47 0),
  .joinFrame false false false 0 0 0 (List.replicate 49 0),
  .commitFrame false 0 [] none none (List.replicate 4 0),
  .changeFrame false 0 0 (List.replicate 47 0) none,
  .changeFrame false 0 0 (List.replicate 49 0) none,
  .handoverFrame false 0 16,
  .divergeFrame false 3 0 0,
  .selftestPeriodic 4 false,
  .parSwitch ({ src := .dp, role := .nobody }),
  .divClr ({ src := .dp, role := .nobody }),
  .parSelftest ({ src := .dp, role := .nobody }),
  .parClrStats ({ src := .dp, role := .nobody }),
  .linkChange 2 false false,
  .ethFrameRx 2 ({ len := 64, cls := 0 }),
  .arpRequest 2 0 0,
  .icmpEcho 2 0 0 [],
  .ptpAnnounce 2 0 0 [] 0,
  .ptpAnnounce 0 2 0 [] 0,
  .ptpSync 2 0 0 0 0 0,
  .ptpSync 0 2 0 0 0 0,
  .delayReq 2] : List Instr).all (fun c => c.wf = false) = true := by decide

theorem test_illFormed_4 : ([
  .delayResp 2 0 0,
  .ptpSyncLoss 2,
  .addendWrite yml 2 0,
  .addendWrite ({ src := .dp, role := .nobody }) 0 0,
  .servoOff ({ src := .dp, role := .nobody }) false false,
  .ptpCapture ({ src := .dp, role := .nobody }),
  .ptpLoadArm yml 2 0,
  .ptpLoadArm ({ src := .dp, role := .nobody }) 0 0,
  .ptpArmedLoad 2,
  .ptpLoadStep yml 2 0 0,
  .ptpLoadStep yml 0 0 1000000000,
  .ptpLoadStep ({ src := .dp, role := .nobody }) 0 0 0,
  .ptpClrStats ({ src := .dp, role := .nobody }) false false,
  .ethClrStats ({ src := .dp, role := .nobody }),
  .yraOpen 0 (List.replicate 15 0) 0,
  .yraOpen 0 (List.replicate 17 0) 0,
  .telemetry ({ addr := 0, ver := 0, sub := 65536, nclaim := 0, fcnt := 0, len := 0, tagOk := true, echo := 0, state := 0, count := 0, entries := [] }),
  .yspSyncSend 1024,
  .canFrameRx 4 ({ id := 0 }),
  .canFrameRx 0 ({ id := 0, data := List.replicate 65 0 }),
  .canObjectTimeout 4 0,
  .canObjectTimeout 0 2048,
  .canFrameEnd 4 0 0 false,
  .canFrameEnd 0 3 0 false,
  .busOff 4,
  .busOffRecovery 4,
  .canSend ({ src := .dp, role := .nobody }),
  .canCancel ({ src := .dp, role := .nobody }),
  .canRelease ({ src := .dp, role := .nobody }),
  .canSleep yml 4,
  .canSleep ({ src := .dp, role := .nobody }) 0,
  .canWake yml 4,
  .canWake ({ src := .dp, role := .nobody }) 0,
  .wakeEdge 4,
  .wakeFrame 4 ({ id := 0 }),
  .wakeFrame 0 ({ id := 0, data := List.replicate 65 0 }),
  .canClrStats ({ src := .dp, role := .nobody }),
  .clkCapture ({ src := .dp, role := .nobody }),
  .clkLoadArm ({ src := .dp, role := .nobody }) 0,
  .clkLoadStep yml 0 32768,
  .clkLoadStep ({ src := .dp, role := .nobody }) 0 0,
  .alarmFire 16] : List Instr).all (fun c => c.wf = false) = true := by decide

theorem test_illFormed_5 : ([
  .alarmArm yml 16,
  .alarmArm ({ src := .dp, role := .nobody }) 0,
  .alarmDisarm yml 16,
  .alarmDisarm ({ src := .dp, role := .nobody }) 0,
  .alarmFiredClear ({ src := .dp, role := .nobody }) 0,
  .tamperActivation 2,
  .provision yml ({ serial := 0, seq := 1, body := List.replicate 113 0 }),
  .provision yml ({ serial := 0, seq := 1, sig := List.replicate 65 0 }),
  .provision ({ src := .dp, role := .nobody }) ({ serial := 0, seq := 1 }),
  .enrol yml ({ serial := 0, seq := 1, body := List.replicate 113 0 }),
  .enrol yml ({ serial := 0, seq := 1, sig := List.replicate 65 0 }),
  .enrol ({ src := .dp, role := .nobody }) ({ serial := 0, seq := 1 }),
  .enrolPub yml ({ serial := 0, seq := 1, body := List.replicate 113 0 }),
  .enrolPub yml ({ serial := 0, seq := 1, sig := List.replicate 65 0 }),
  .enrolPub ({ src := .dp, role := .nobody }) ({ serial := 0, seq := 1 }),
  .revoke yml ({ serial := 0, seq := 1, body := List.replicate 113 0 }),
  .revoke yml ({ serial := 0, seq := 1, sig := List.replicate 65 0 }),
  .revoke ({ src := .dp, role := .nobody }) ({ serial := 0, seq := 1 }),
  .deploy yml ({ serial := 0, seq := 1, body := List.replicate 113 0 }),
  .deploy yml ({ serial := 0, seq := 1, sig := List.replicate 65 0 }),
  .deploy ({ src := .dp, role := .nobody }) ({ serial := 0, seq := 1 }),
  .returnModule yml ({ serial := 0, seq := 1, body := List.replicate 113 0 }),
  .returnModule yml ({ serial := 0, seq := 1, sig := List.replicate 65 0 }),
  .returnModule ({ src := .dp, role := .nobody }) ({ serial := 0, seq := 1 }),
  .scrap yml ({ serial := 0, seq := 1, body := List.replicate 113 0 }),
  .scrap yml ({ serial := 0, seq := 1, sig := List.replicate 65 0 }),
  .scrap ({ src := .dp, role := .nobody }) ({ serial := 0, seq := 1 }),
  .secSettings yml ({ serial := 0, seq := 1, body := List.replicate 113 0 }),
  .secSettings yml ({ serial := 0, seq := 1, sig := List.replicate 65 0 }),
  .secSettings ({ src := .dp, role := .nobody }) ({ serial := 0, seq := 1 }),
  .tamperAck yml ({ serial := 0, seq := 1, body := List.replicate 113 0 }),
  .tamperAck yml ({ serial := 0, seq := 1, sig := List.replicate 65 0 }),
  .tamperAck ({ src := .dp, role := .nobody }) ({ serial := 0, seq := 1 }),
  .forceClaim yml ({ serial := 0, seq := 1, body := List.replicate 113 0 }),
  .forceClaim yml ({ serial := 0, seq := 1, sig := List.replicate 65 0 }),
  .forceClaim ({ src := .dp, role := .nobody }) ({ serial := 0, seq := 1 }),
  .debugUnlock yml ({ serial := 0, seq := 1, body := List.replicate 113 0 }),
  .debugUnlock yml ({ serial := 0, seq := 1, sig := List.replicate 65 0 }),
  .debugUnlock ({ src := .dp, role := .nobody }) ({ serial := 0, seq := 1 }),
  .dbgReq ({ src := .dp, role := .nobody }),
  .dbgLock ({ src := .dp, role := .nobody }),
  .dbgOpenNext ({ src := .dp, role := .nobody })] : List Instr).all (fun c => c.wf = false) = true := by decide

theorem test_illFormed_6 : ([
  .attGo yml (List.replicate 3 0),
  .attGo yml (List.replicate 5 0),
  .attGo ({ src := .dp, role := .nobody }) (List.replicate 4 0),
  .rstWarm ({ src := .dp, role := .nobody }),
  .rstCold ({ src := .dp, role := .nobody }),
  .blockResetCp ({ src := .dp, role := .nobody }),
  .blockResetSolver ({ src := .dp, role := .nobody }),
  .blockResetAsm ({ src := .dp, role := .nobody }),
  .blockResetEth ({ src := .dp, role := .nobody }),
  .blockResetCan ({ src := .dp, role := .nobody }),
  .blockResetMgt ({ src := .dp, role := .nobody }),
  .modeCommission ({ src := .dp, role := .nobody }),
  .modeRun ({ src := .dp, role := .nobody }),
  .modeTune ({ src := .dp, role := .nobody }),
  .modeSafehold ({ src := .dp, role := .nobody }),
  .startMode ({ src := .dp, role := .nobody }) false,
  .updOffer yml (List.replicate 129 0),
  .updOffer ({ src := .dp, role := .nobody }) [],
  .updChunk yml 0 (List.replicate 129 0),
  .updChunk ({ src := .dp, role := .nobody }) 0 [],
  .endOffer ({ src := .dp, role := .nobody }),
  .updAbort ({ src := .dp, role := .nobody }),
  .updSwap ({ src := .dp, role := .nobody }),
  .updConfirm ({ src := .dp, role := .nobody }),
  .updRevert ({ src := .dp, role := .nobody }),
  .updFloor ({ src := .dp, role := .nobody }),
  .mgtOpen 0 (List.replicate 15 0) 0,
  .mgtOpen 0 (List.replicate 17 0) 0,
  .mgtReset 0 0 false 4 0,
  .mgtReset 0 0 false 0 64,
  .closeAll ({ src := .dp, role := .nobody }),
  .mgtClrStats ({ src := .dp, role := .nobody }),
  .sysClrStats ({ src := .dp, role := .nobody }),
  .tamperInputInactive 2,
  .pulseEdge 96,
  .dinSample 96 false,
  .pwmPeriodStart 96,
  .busIntegration 4,
  .busOffRecoveryComplete 4] : List Instr).all (fun c => c.wf = false) = true := by decide

/-! Witnesses, one theorem per statement, clause by clause. -/

theorem witness_StepRunsTheFrontCommand :
    ∃ (c : _) (rest : _) (s : State), s.pending = c :: rest :=
  ⟨.modeRun { src := .yml, role := .owner }, [], { State.reset with pending := [.modeRun { src := .yml, role := .owner }] }, rfl⟩

theorem witness_AnEmptyQueueIdles :
    ∃ (s : State), s.pending = [] :=
  ⟨State.reset, rfl⟩

theorem witness_CommandsKeepQueueAndTime :
    ∃ (c : _) (s : State) (t : _), exec c s = .next t :=
  ⟨.powerOnReset, State.reset, _, rfl⟩

theorem witness_OnlySignedCommandsMoveTheLifecycle :
    ∃ (c : _) (s : State) (t : _), c ≠ .securityCommandEnd ∧ exec c s = .next t :=
  ⟨.powerOnReset, State.reset, _, by decide, rfl⟩

theorem witness_StepKeepsTheInvariant :
    ∃ (s : State) (t : _), s.Inv ∧ step s = .next t :=
  ⟨State.reset, _, ⟨by decide, by decide, fun _ h => (nomatch h), by decide, by decide, by decide⟩, rfl⟩

theorem witness_RunsAreSafe :
    ∃ (s : State), s.Inv :=
  ⟨State.reset, ⟨by decide, by decide, fun _ h => (nomatch h), by decide, by decide, by decide⟩⟩

theorem witness_RegisterWritesAreStaged :
    ∃ (c : _) (w : _) (ws : _) (s : State) (role : _) (b : _), StagedWrite c w ws ∧ Ready s w role b ws ∧ w.dur = 0 :=
  ⟨.startMode { src := .yml, role := .owner } true, _, _, deployed, .owner, _, .startMode _ _, ⟨⟨⟨by decide, by decide, fun _ h => (nomatch h),
    by decide, by decide, by decide⟩, by decide, rfl, by decide, by decide, rfl, by decide, by decide⟩, by decide, by decide⟩, rfl⟩

theorem witness_RegisterWritesMayStayOpen :
    (∃ (c : _) (w : _) (ws : _) (s : State) (role : _) (b : _), StagedWrite c w ws ∧ Heard s w role b ws ∧ w.dur ≠ 0) ∧
    (∃ (c : _) (w : _) (ws : _) (s : State) (t : _), StagedWrite c w ws ∧ w.src = .dbg ∧ s.hears .dbg = true ∧ s.burst? = some t) :=
  ⟨⟨.startMode { src := .yml, role := .owner, dur := 7 } true, _, _, deployed, .owner, _, .startMode _ _, ⟨⟨by decide, by decide,
    fun _ h => (nomatch h), by decide, by decide, by decide⟩, by decide, rfl, by decide, by decide, rfl, by decide, by decide⟩, by decide⟩,
  ⟨.closeAll { src := .dbg, role := .owner }, _, _,
    { ((solo.modSec fun x => { x with lifecycle := .deployed, ownerOpen := true, debug := 3, slots := [(roleSlot .owner, { cls := 1, key := [1] }), (3, { cls := 1, key := [1] }), (4, { cls := 1, key := [1] })] })) with nextTxn := 6, txns := [{ emptyTxn solo .dbg .owner 0 .none with id := 5, closeAt := none }] },
    { emptyTxn solo .dbg .owner 0 .none with id := 5, closeAt := none }, .closeAll _, rfl, by decide, by decide⟩⟩

theorem witness_RegisterWritesAreTurnedAway :
    (∃ (c : _) (w : _) (ws : _) (s : State) (role : _), StagedWrite c w ws ∧ s.hears w.src = true ∧ s.whoRole w = some role ∧ (w.src = .dbg → s.burst?
      = none) ∧ s.pub = none) ∧
    (∃ (c : _) (w : _) (ws : _) (s : State) (role : _) (b : _), StagedWrite c w ws ∧ s.hears w.src = true ∧ s.whoRole w = some role ∧ (w.src = .dbg →
      s.burst? = none) ∧ s.pub = some b ∧ ((∃ p ∈ ws, s.live.permits w.src role (.wr p.1 p.2) = false) ∨ (w.src = .dbg ∧ s.live.sec.locked = true))) ∧
    (∃ (c : _) (w : _) (ws : _) (s : State) (role : _) (b : _), StagedWrite c w ws ∧ s.hears w.src = true ∧ s.whoRole w = some role ∧ (w.src = .dbg →
      s.burst? = none) ∧ s.pub = some b ∧ (∀ p ∈ ws, s.live.permits w.src role (.wr p.1 p.2) = true) ∧ (w.src = .dbg → s.live.sec.locked = false) ∧
      s.isActive = false ∧ (∃ p ∈ ws, isLocal p.1 = false)) ∧
    (∃ (c : _) (w : _) (ws : _) (s : State) (role : _) (b : _), StagedWrite c w ws ∧ Heard s w role b ws ∧ w.dur = 0 ∧ stagingMax < externalStaged
      s.staged + ws.length) ∧
    (∃ (c : _) (w : _) (ws : _) (s : State), StagedWrite c w ws ∧ (s.hears w.src = false ∨ s.whoRole w = none)) :=
  ⟨⟨.startMode { src := .yml, role := .owner } true, _, _, { deployed with pub := none }, .owner, .startMode _ _, by decide, rfl, by decide, rfl⟩,
  ⟨.modeRun { src := .yml, role := .nobody }, _, _, deployed, .nobody, _, .modeRun _, by decide, rfl, by decide, rfl, by decide⟩,
  ⟨.setpointWrite { src := .yml, role := .owner } 0 0, _, _,
    ({ deployed with live := { deployed.live with cst := { sects := sections 1 }, par := { pstate := 4, code := 2 } } }), .owner, _, .setpointWrite _ _
    _ (by decide), by decide, rfl, by decide, rfl, by decide, by decide, by decide, by decide⟩,
  ⟨.modeRun { src := .yml, role := .owner }, _, _,
    { deployed with staged := List.replicate 2048 { txn := 1, src := .yra, role := .owner, addr := 0x0208, val := 1, readEpoch := 8, closedAt := 0 }, nextTxn := 2 },
    .owner, _, .modeRun _, ⟨⟨by decide, by decide, fun _ h => (nomatch h), by decide, by decide, by decide⟩, by decide, rfl, by decide, by decide, rfl,
    by decide, by decide⟩, rfl, by decide⟩,
  ⟨.modeRun { src := .yml, role := .owner }, _, _, State.reset, .modeRun _, by decide⟩⟩

theorem witness_WrongWritesAreDropped :
    (∃ (c : _) (w : _) (a : _) (v : _) (s : State) (role : _) (b : _), StagedWrite c w [(a, v)] ∧ Heard s w role b [(a, v)] ∧ w.dur = 0 ∧
      externalStaged s.staged + 1 ≤ stagingMax ∧ s.writeOk b.core w.src [(a, v)] a v = false) ∧
    (∃ (w : _) (a : _) (v : _) (s : State) (role : _) (b : _), regAt a = none ∧ Heard s w role b [(a, v)] ∧ w.dur = 0) :=
  ⟨⟨.setpointWrite { src := .yml, role := .owner } 0 0x7F800000, _, _, _, deployed, .owner, _, .setpointWrite _ _ _ (by decide), ⟨⟨by decide,
    by decide, fun _ h => (nomatch h), by decide, by decide, by decide⟩, by decide, rfl, by decide, by decide, rfl, by decide, by decide⟩, rfl,
    by decide, by decide⟩,
  ⟨{ src := .yml, role := .owner }, 0xFFFC, 0, deployed, .owner, _, by decide, ⟨⟨by decide, by decide, fun _ h => (nomatch h), by decide, by decide,
    by decide⟩, by decide, rfl, by decide, by decide, rfl, by decide, by decide⟩, rfl⟩⟩

theorem witness_InstantWritesAct :
    (∃ (c : _) (w : _) (a : _) (v : _) (s : State) (role : _) (b : _), InstantWrite c w a v ∧ Heard s w role b [(a, v)] ∧ w.dur = 0) ∧
    (∃ (w : _) (map : _) (s : State) (role : _) (b : _), Heard s w role b [(0x3C90, map)] ∧ w.dur = 0) :=
  ⟨⟨.clkCapture { src := .yml, role := .owner }, _, _, _, deployed, .owner, _, .clkCapture _, ⟨⟨by decide, by decide, fun _ h => (nomatch h),
    by decide, by decide, by decide⟩, by decide, rfl, by decide, by decide, rfl, by decide, by decide⟩, rfl⟩,
  ⟨{ src := .yml, role := .owner }, 3, deployed, .owner, _, ⟨⟨by decide, by decide, fun _ h => (nomatch h), by decide, by decide, by decide⟩,
    by decide, rfl, by decide, by decide, rfl, by decide, by decide⟩, rfl⟩⟩

theorem witness_ResetWritesArePending :
    (∃ (c : _) (w : _) (m : _) (bits : _) (s : State) (role : _) (b : _) (a : _), ResetWrite c w m bits ∧ Heard s w role b [(a, word (m + bits))] ∧ a
      = (if m = 0 then 0x0288 else 0x0284) ∧ w.dur = 0) ∧
    (∃ (m : _), m ≠ 0) ∧
    (∃ (bits : _), bits ≠ 0) :=
  ⟨⟨.blockResetMgt { src := .yml, role := .owner }, _, _, _, deployed, .owner, _, _, .blockResetMgt _, ⟨⟨by decide, by decide, fun _ h => (nomatch h),
    by decide, by decide, by decide⟩, by decide, rfl, by decide, by decide, rfl, by decide, by decide⟩, rfl, rfl⟩,
  ⟨1, by decide⟩,
  ⟨1, by decide⟩⟩

theorem witness_TheBoundaryAdvances :
    (∃ (s : State), s.boundaryDue = true ∧ (∀ x ∈ s.staged, s.now ≤ x.closedAt)) ∧
    (∃ (s : State), s.boundaryDue = true) ∧
    (∃ (s : State), s.boundaryDue = false) ∧
    (∃ (s : State) (b : _), s.prep = some b ∧ s.now - s.live.epc.boundaryAt ≤ 120000) ∧
    (∃ (s : State) (b : _), s.prep = some b ∧ 120000 < s.now - s.live.epc.boundaryAt) ∧
    (∃ (s : State), s.prep = none) :=
  ⟨⟨(solo.modEpc fun x => { x with boundaryAt := T - 10000000 }), by decide⟩,
  ⟨(solo.modEpc fun x => { x with boundaryAt := T - 10000000 }), by decide⟩,
  ⟨State.reset, by decide⟩,
  ⟨{ solo with prep := solo.pub }, _, rfl, by decide⟩,
  ⟨{ solo with prep := solo.pub, now := T + 200000 }, _, rfl, by decide⟩,
  ⟨State.reset, by decide⟩⟩

theorem witness_StagedWritesCommit :
    (∃ (s : State) (x : Staged), s.staged = [x] ∧ x.closedAt < s.now ∧ s.live.epc.pouring = true ∧ collideGroup x.src x.addr ≠ 1) ∧
    (∃ (s : State) (x : Staged) (y : Staged), s.staged = [x, y] ∧ x.closedAt < y.closedAt ∧ y.closedAt < s.now ∧ s.live.epc.pouring = true ∧ x.addr =
      y.addr ∧ x.txn ≠ y.txn ∧ collideGroup x.src x.addr = 0 ∧ collideGroup y.src y.addr = 0) ∧
    (∃ (s : State) (x : Staged) (y : Staged), s.staged = [x, y] ∧ x.closedAt < s.now ∧ y.closedAt < s.now ∧ x.txn ≠ y.txn ∧ 2 ≤ collideGroup x.src
      x.addr ∧ collideGroup y.src y.addr = collideGroup x.src x.addr) ∧
    (∃ (s : State) (t : State), t.live.sys.werr ≤ s.live.sys.werr) ∧
    (∃ (s : State) (t : State) (x : Staged), s.live.sys.werr < t.live.sys.werr ∧ x.closedAt * 4 + srcCode x.src < s.live.sys.werrAt.order) ∧
    (∃ (s : State) (t : State) (x : Staged), s.live.sys.werr < t.live.sys.werr ∧ s.live.sys.werrAt.order ≤ x.closedAt * 4 + srcCode x.src) :=
  ⟨⟨{ solo with staged := [{ txn := 1, src := .yra, role := .owner, addr := 0x0208, val := 1, readEpoch := 8, closedAt := 0 }] }, _, rfl, by decide⟩,
  ⟨{ solo with staged := [{ txn := 1, src := .yra, role := .owner, addr := 0x0208, val := 1, readEpoch := 8, closedAt := 0 }, { txn := 2, src := .yml, role := .owner, addr := 0x0208, val := 0, readEpoch := 8, closedAt := 1 }] },
    _, _, rfl, by decide⟩,
  ⟨{ solo with staged := [{ txn := 1, src := .yra, role := .owner, addr := 0x2048, val := 1, readEpoch := 8, closedAt := 0 }, { txn := 2, src := .yml, role := .owner, addr := 0x2048, val := 2, readEpoch := 8, closedAt := 1 }] },
    _, _, rfl, by decide⟩,
  ⟨solo, solo, by decide⟩,
  ⟨(solo.modSys fun x => { x with werr := 1, werrAt := { order := 3 } }), (solo.modSys fun x => { x with werr := 2 }),
    { txn := 1, src := .yra, role := .owner, addr := 0x0204, val := 1, readEpoch := 8, closedAt := 0 }, by decide⟩,
  ⟨(solo.modSys fun x => { x with werr := 1, werrAt := { order := 3 } }), (solo.modSys fun x => { x with werr := 2 }),
    { txn := 1, src := .yra, role := .owner, addr := 0x0204, val := 1, readEpoch := 8, closedAt := 5 }, by decide⟩⟩

theorem witness_LivenessAndCrystalAreWatched :
    (∃ (s : State), s.runs = true) ∧
    (∃ (s : State), s.runs = false) ∧
    (∃ (s : State), DpAbsentDue s ∧ s.live.epc.casting = true) ∧
    (∃ (s : State), DpAbsentDue s ∧ s.live.epc.casting = false) ∧
    (∃ (s : State), ¬ DpAbsentDue s) ∧
    (∃ (s : State), CrystalInUse s) ∧
    (∃ (s : State) (p : _), s.live.sys.reserveOsc = true ∧ p < 2) ∧
    (∃ (s : State), s.live.sys.reserveOsc = true) ∧
    (∃ (s : State), CrystalInUse s ∧ s.live.pwr.inReset = false ∧ s.live.pwr.bootStarted = true ∧ s.live.pwr.mode ≠ .backup) ∧
    (∃ (s : State), CrystalInUse s) ∧
    (∃ (s : State), ¬ CrystalInUse s) :=
  ⟨⟨solo, by decide⟩,
  ⟨State.reset, by decide⟩,
  ⟨(solo.modEpc fun x => { x with liveMiss := 3 }), by decide⟩,
  ⟨(solo.modEpc fun x => { x with liveMiss := 3, casting := false }), by decide⟩,
  ⟨State.reset, by decide⟩,
  ⟨State.reset, by decide⟩,
  ⟨(solo.modSys fun x => { x with reserveOsc := true }), 0, by decide⟩,
  ⟨(solo.modSys fun x => { x with reserveOsc := true }), by decide⟩,
  ⟨solo, by decide⟩,
  ⟨State.reset, by decide⟩,
  ⟨(State.reset.modSys fun x => { x with reserveOsc := true }), by decide⟩⟩

theorem witness_BootRuns :
    (∃ (s : State) (t : _), BootDue s t) ∧
    (∃ (s : State), (∀ t, ¬ BootDue s t)) ∧
    (∃ (s : State), Booting s ∧ s.live.sec.lifecycle = .scrapped) ∧
    (∃ (s : State), Booting s ∧ s.live.sec.lifecycle ≠ .scrapped) ∧
    (∃ (s : State), Booting s ∧ s.live.sec.armed = true ∧ (s.live.clk.active0 = true ∨ s.live.clk.active1 = true)) ∧
    (∃ (b : _) (s : State), Booting s ∧ s.live.sec.lifecycle ≠ .scrapped ∧ ¬ (s.live.sec.armed = true ∧ (s.live.clk.active0 = true ∨
      s.live.clk.active1 = true)) ∧ (b = false ∨ s.live.sec.helperOk = false)) ∧
    (∃ (s : State), Booting s ∧ s.live.sec.lifecycle ≠ .scrapped ∧ ¬ (s.live.sec.armed = true ∧ (s.live.clk.active0 = true ∨ s.live.clk.active1 =
      true)) ∧ s.live.sec.helperOk = true) ∧
    (∃ (s : State), ¬ Booting s) :=
  ⟨⟨{ State.reset with now := 50000 }, 0, by decide⟩,
  ⟨State.reset, by rintro t ⟨h, -, h2⟩; cases h; exact absurd h2 (by decide)⟩,
  ⟨((State.reset.modPwr fun x => { x with bootStarted := true }).modSec fun x => { x with lifecycle := .scrapped }), by decide⟩,
  ⟨(State.reset.modPwr fun x => { x with bootStarted := true }), by decide⟩,
  ⟨((State.reset.modPwr fun x => { x with bootStarted := true }).modSec fun x => { x with lifecycle := .deployed }).modClk fun x =>
    { x with active0 := true }, by decide⟩,
  ⟨false, (State.reset.modPwr fun x => { x with bootStarted := true }), by decide⟩,
  ⟨(State.reset.modPwr fun x => { x with bootStarted := true }), by decide⟩,
  ⟨State.reset, by decide⟩⟩

theorem witness_LoadEnds :
    (∃ (s : State), Loading s ∧ s.live.cst.sfdp = 0) ∧
    (∃ (s : State), Loading s ∧ s.live.cst.sfdp ≠ 0 ∧ (loadBegun s).live.cst.chosen = none) ∧
    (∃ (s : State) (slot : _), Loading s ∧ s.live.cst.sfdp ≠ 0 ∧ (loadBegun s).live.cst.chosen = some slot ∧ s.live.sec.ownerHeld = true ∧
      s.live.sec.ackPending = true) ∧
    (∃ (s : State) (slot : _) (r : _), Loading s ∧ s.live.cst.sfdp ≠ 0 ∧ (loadBegun s).live.cst.chosen = some slot ∧ (s.live.sec.ownerHeld = false ∨
      s.live.sec.ackPending = false) ∧ (loadBegun s).tryCasting slot = (r, none) ∧ slotEmpty (r.live.cst.flash (1 - slot)) = true) ∧
    (∃ (s : State) (slot : _) (r : _), Loading s ∧ s.live.cst.sfdp ≠ 0 ∧ (loadBegun s).live.cst.chosen = some slot ∧ (s.live.sec.ownerHeld = false ∨
      s.live.sec.ackPending = false) ∧ (loadBegun s).tryCasting slot = (r, none) ∧ slotEmpty (r.live.cst.flash (1 - slot)) = false) ∧
    (∃ (s : State), ¬ Loading s) :=
  ⟨⟨((State.reset.modPwr fun x => { x with mode := .load }).modCst fun x => { x with sfdp := 0 }), by decide⟩,
  ⟨(State.reset.modPwr fun x => { x with mode := .load }), by decide⟩,
  ⟨(((State.reset.modPwr fun x => { x with mode := .load }).modCst fun x =>
    { x with flash0 := bs ([0x59, 0x43, 0x53, 0x54] ++ List.replicate 16 0 ++ [1] ++ List.replicate 107 0) }).modSec fun x =>
    { x with ownerHeld := true, ackPending := true }), 0, by decide⟩,
  ⟨((State.reset.modPwr fun x => { x with mode := .load }).modCst fun x =>
    { x with flash0 := bs ([0x59, 0x43, 0x53, 0x54] ++ List.replicate 16 0 ++ [1] ++ List.replicate 107 0) }), 0, _, by decide, by decide, by decide,
    by decide, rfl, by decide⟩,
  ⟨((State.reset.modPwr fun x => { x with mode := .load }).modCst fun x =>
    { x with flash0 := bs ([0x59, 0x43, 0x53, 0x54] ++ List.replicate 16 0 ++ [1] ++ List.replicate 107 0), flash1 := bs ([0x59, 0x43, 0x53, 0x54] ++ List.replicate 16 0 ++ [2] ++ List.replicate 107 0) }),
    1, _, by decide, by decide, by decide, by decide, rfl, by decide⟩,
  ⟨State.reset, by decide⟩⟩

theorem witness_TheAssemblerRuns :
    (∃ (s : State), OpeningDue s) ∧
    (∃ (s : State), ¬ OpeningDue s) ∧
    (∃ (s : State) (e : _) (x : _) (l : _), s.live.asm.cycle = some e ∧ s.live.asm.todo = x :: l ∧ (s.live.asm.ladles ≠ [] ∨ s.follows = false)) ∧
    (∃ (s : State) (e : _) (x : _) (l : _) (v : _), s.live.asm.cycle = some e ∧ s.live.asm.todo = x :: l ∧ s.live.asm.ladles = [] ∧ s.follows = true ∧
      s.live.par.snapIn = some (e, v)) ∧
    (∃ (s : State) (e : _) (x : _) (l : _), s.live.asm.cycle = some e ∧ s.live.asm.todo = x :: l ∧ s.live.asm.ladles = [] ∧ s.follows = true ∧ (∀ v,
      s.live.par.snapIn ≠ some (e, v)) ∧ e < s.live.epc.epoch) ∧
    (∃ (s : State) (e : _) (x : _) (l : _), s.live.asm.cycle = some e ∧ s.live.asm.todo = x :: l ∧ s.live.asm.ladles = [] ∧ s.follows = true ∧ (∀ v,
      s.live.par.snapIn ≠ some (e, v)) ∧ s.live.epc.epoch ≤ e) ∧
    (∃ (s : State), (s.live.asm.cycle = none ∨ s.live.asm.todo = [])) ∧
    (∃ (s : State), HorizonStepDue s ∧ s.follows = false) ∧
    (∃ (s : State), HorizonStepDue s ∧ s.follows = true ∧ s.live.asm.stepDue = none) ∧
    (∃ (s : State) (e : _) (v : _), HorizonStepDue s ∧ s.follows = true ∧ s.live.asm.stepDue = some e ∧ s.live.par.stepIn = some (e, v)) ∧
    (∃ (s : State) (e : _), HorizonStepDue s ∧ s.follows = true ∧ s.live.asm.stepDue = some e ∧ (∀ v, s.live.par.stepIn ≠ some (e, v))) ∧
    (∃ (s : State), ¬ HorizonStepDue s) ∧
    (∃ (s : State), SaveDue s) ∧
    (∃ (s : State), ¬ SaveDue s) :=
  ⟨⟨solo, by decide⟩,
  ⟨State.reset, by decide⟩,
  ⟨(solo.modAsm fun x => { x with cycle := some 8, todo := [(2, 0, 0)] }), 8, (2, 0, 0), [], by decide⟩,
  ⟨((duo.modAsm fun x => { x with cycle := some 8, todo := [(2, 0, 0)] }).modPar fun x => { x with snapIn := some (8, []) }), 8, (2, 0, 0), [], [],
    by decide⟩,
  ⟨(duo.modAsm fun x => { x with cycle := some 7, todo := [(2, 0, 0)] }), 7, (2, 0, 0), [], by decide, by decide, by decide, by decide, (fun v h =>
    by cases h), by decide⟩,
  ⟨(duo.modAsm fun x => { x with cycle := some 8, todo := [(2, 0, 0)] }), 8, (2, 0, 0), [], by decide, by decide, by decide, by decide, (fun v h =>
    by cases h), by decide⟩,
  ⟨State.reset, by decide⟩,
  ⟨(solo.modClk fun x => { x with bound := some (900 * 32768) }), by decide⟩,
  ⟨(duo.modClk fun x => { x with bound := some (900 * 32768) }), by decide⟩,
  ⟨(((duo.modClk fun x => { x with bound := some (900 * 32768) }).modAsm fun x => { x with stepDue := some 7 }).modPar fun x =>
    { x with stepIn := some (7, []) }), 7, [], by decide⟩,
  ⟨((duo.modClk fun x => { x with bound := some (900 * 32768) }).modAsm fun x => { x with stepDue := some 7 }), 7, by decide, by decide, by decide,
    (fun v h => by cases h)⟩,
  ⟨State.reset, by decide⟩,
  ⟨solo, by decide⟩,
  ⟨State.reset, by decide⟩⟩

theorem witness_TheSolverRuns :
    (∃ (s : State) (r : _), s.live.slv.run = some r ∧ r.katDone = false ∧ r.requestedAt ≠ none) ∧
    (∃ (s : State), (∀ r, s.live.slv.run = some r → r.katDone = true ∨ r.requestedAt = none)) ∧
    (∃ (l : _) (s : State), (s.entryReady l).isSome = true) ∧
    (∃ (l : _) (s : State), s.entryReady l = none) ∧
    (∃ (l : _) (s : State) (r : _) (e : _), s.live.slv.run = some r ∧ r.flight.contains l = true ∧ (s.live.cst.laneList l r.pass)[tget r.lanePos l 0]?
      = some e) ∧
    (∃ (l : _) (s : State), (∀ r, s.live.slv.run = some r → r.flight.contains l = false)) ∧
    (∃ (s : State) (r : _), DeadlinePassed s r) ∧
    (∃ (s : State), (∀ r, ¬ DeadlinePassed s r)) ∧
    (∃ (l : _) (s : State) (r : _), s.live.slv.run = some r ∧ r.pass ≠ 0 ∧ l < s.live.cst.lanes) ∧
    (∃ (l : _) (s : State), (∀ r, s.live.slv.run = some r → r.pass = 0 ∨ s.live.cst.lanes ≤ l)) :=
  ⟨⟨(solo.modSlv fun x => { x with run := some { openEpoch := 8, openedAt := 0, requestedAt := some 0, t0 := 0 } }),
    { openEpoch := 8, openedAt := 0, requestedAt := some 0, t0 := 0 }, by decide⟩,
  ⟨State.reset, fun r h => by cases h⟩,
  ⟨0, ((solo.modSlv fun x =>
    { x with run := some { openEpoch := 8, openedAt := 0, requestedAt := some 0, t0 := 0, pass := 1, katDone := true } }).modAsm fun x =>
    { x with cycle := some 8 }), by decide⟩,
  ⟨0, State.reset, by decide⟩,
  ⟨0, (solo.modSlv fun x =>
    { x with run := some { openEpoch := 8, openedAt := 0, requestedAt := some 0, t0 := 0, pass := 1, katDone := true, flight := [0] } }),
    { openEpoch := 8, openedAt := 0, requestedAt := some 0, t0 := 0, pass := 1, katDone := true, flight := [0] }, _, by decide, by decide, rfl⟩,
  ⟨0, State.reset, fun r h => by cases h⟩,
  ⟨(solo.modSlv fun x => { x with run := some { openEpoch := 8, openedAt := 0, requestedAt := some 0, t0 := 0, pass := 1, katDone := true } }),
    { openEpoch := 8, openedAt := 0, requestedAt := some 0, t0 := 0, pass := 1, katDone := true }, by decide⟩,
  ⟨State.reset, by rintro r ⟨h, -⟩; cases h⟩,
  ⟨0, (solo.modSlv fun x => { x with run := some { openEpoch := 8, openedAt := 0, requestedAt := some 0, t0 := 0, pass := 1, katDone := true } }),
    { openEpoch := 8, openedAt := 0, requestedAt := some 0, t0 := 0, pass := 1, katDone := true }, by decide⟩,
  ⟨0, State.reset, fun r h => by cases h⟩⟩

theorem witness_ThePlanRuns :
    (∃ (s : State) (r : _), HoldEndDue s r) ∧
    (∃ (s : State), (∀ r, ¬ HoldEndDue s r)) ∧
    (∃ (s : State) (b : _), LossConfirmed s b) ∧
    (∃ (s : State), s.live.pln.gridLost = false ∧ s.live.epc.casting = true ∧ s.live.cst.islGlobal = none) ∧
    (∃ (s : State), (s.live.pln.gridLost = true ∨ s.live.epc.casting = false ∨ (s.live.cst.islGlobal ≠ none ∧ ∀ b, ¬ LossConfirmed s b))) ∧
    (∃ (s : State), EnterDue s ∧ s.live.pln.island = false) ∧
    (∃ (s : State), EnterDue s ∧ s.live.pln.island = true) ∧
    (∃ (s : State), ¬ EnterDue s) ∧
    (∃ (s : State) (b : _) (t : _), GridHealthy s b t) ∧
    (∃ (s : State), s.live.pln.gridLost = true ∧ s.live.cst.islGlobal = none) ∧
    (∃ (s : State), (s.live.pln.gridLost = false ∨ (s.live.cst.islGlobal ≠ none ∧ ∀ b t, ¬ GridHealthy s b t))) ∧
    (∃ (s : State), LeaveDue s) ∧
    (∃ (s : State), ¬ LeaveDue s) ∧
    (∃ (s : State) (t : _), GroupDue s t) ∧
    (∃ (s : State), (∀ t, ¬ GroupDue s t)) :=
  ⟨⟨(solo.modPln fun x => { x with record := some {}, holdDone := false }), {}, by decide⟩,
  ⟨State.reset, by rintro r ⟨h, -⟩; cases h⟩,
  ⟨(solo.modPln fun x => { x with lossSince := [(0, 0)] }), _, by decide, by decide, rfl, by decide⟩,
  ⟨{ solo with live := { solo.live with cst := {} } }, by decide⟩,
  ⟨State.reset, .inr (.inl rfl)⟩,
  ⟨(solo.modPln fun x => { x with enterDue := true }), by decide⟩,
  ⟨(solo.modPln fun x => { x with enterDue := true, island := true }), by decide⟩,
  ⟨State.reset, by decide⟩,
  ⟨(solo.modPln fun x => { x with gridLost := true, healthySince := some 0 }), _, 0, by decide, rfl, by decide, by decide⟩,
  ⟨({ solo with live := { solo.live with cst := {} } }.modPln fun x => { x with gridLost := true }), by decide⟩,
  ⟨State.reset, .inl rfl⟩,
  ⟨(solo.modPln fun x => { x with leaveDue := true, island := true }), by decide⟩,
  ⟨State.reset, by decide⟩,
  ⟨(solo.modPln fun x => { x with restoreAt := some 0, shed := [1] }), 0, by decide⟩,
  ⟨State.reset, by rintro t ⟨h, -⟩; cases h⟩⟩

theorem witness_LoopsAndLogicRun :
    (∃ (s : State), OutputsDue s ∧ (s.outputs.paired && s.outputs.live.par.gate && s.outputs.linkRuns) = false) ∧
    (∃ (s : State), OutputsDue s ∧ (s.outputs.paired && s.outputs.live.par.gate && s.outputs.linkRuns) = true) ∧
    (∃ (s : State), PreSamplesTaken s) ∧
    (∃ (s : State), ¬ PreSamplesTaken s) ∧
    (∃ (s : State), InjectionOver s) ∧
    (∃ (s : State), ¬ InjectionOver s) ∧
    (∃ (us : _) (s : State), CycleRuns s us) ∧
    (∃ (us : _) (s : State), ¬ CycleRuns s us) ∧
    (∃ (s : State), s.logicRuns = true ∧ s.cycleDue = true) ∧
    (∃ (s : State), (s.logicRuns = false ∨ s.cycleDue = false)) ∧
    (∃ (s : State) (code : _), ChangeOffered s ∧ s.judgeChange = .inl code) ∧
    (∃ (s : State), ¬ ChangeOffered s) ∧
    (∃ (s : State) (e : _) (l : _) (seq : _) (d : _), ChangeDue s e l seq d) ∧
    (∃ (s : State), (∀ e l seq d, ¬ ChangeDue s e l seq d)) ∧
    (∃ (s : State), ¬ OutputsDue s) :=
  ⟨⟨(solo.modLpe fun x => { x with tickAt := some (T - 500000) }), by decide⟩,
  ⟨((duo.modPar fun x => { x with pstate := 7, gate := true, code := 5 }).modLpe fun x => { x with tickAt := some (T - 500000) }), by decide⟩,
  ⟨(solo.modLpe fun x => { x with injState := 1 }), by decide⟩,
  ⟨State.reset, by decide⟩,
  ⟨(solo.modLpe fun x => { x with injState := 2 }), by decide⟩,
  ⟨State.reset, by decide⟩,
  ⟨399, solo, by decide⟩,
  ⟨0, State.reset, by decide⟩,
  ⟨solo, by decide⟩,
  ⟨State.reset, by decide⟩,
  ⟨(solo.modLgc fun x => { x with offered := true }), 2, by decide⟩,
  ⟨State.reset, by decide⟩,
  ⟨(solo.modLgc fun x => { x with change := some (8, [], 1, []) }), 8, [], 1, [], by decide⟩,
  ⟨State.reset, by rintro e l q d ⟨h, -⟩; cases h⟩,
  ⟨State.reset, by decide⟩⟩

theorem witness_PassesAndSlicesRun :
    (∃ (g : _) (s : State) (k : _), PassDue (State.advanceGroup g 64 s.now s) g ∧ ((State.advanceGroup g 64 s.now s).grp g).slice = some k ∧
      ((State.advanceGroup g 64 s.now s).grp g).inPass = false) ∧
    (∃ (g : _) (s : State) (k : _), PassDue (State.advanceGroup g 64 s.now s) g ∧ ((State.advanceGroup g 64 s.now s).grp g).slice = some k ∧
      ((State.advanceGroup g 64 s.now s).grp g).inPass = true) ∧
    (∃ (g : _) (s : State), PassDue (State.advanceGroup g 64 s.now s) g ∧ ((State.advanceGroup g 64 s.now s).grp g).slice = none) ∧
    (∃ (g : _) (s : State), ¬ PassDue (State.advanceGroup g 64 s.now s) g) ∧
    (∃ (s : State) (g : _) (k : _), HandoverDue s.advanceGroups g k) ∧
    (∃ (s : State), (∀ g k, ¬ HandoverDue s.advanceGroups g k)) ∧
    (∃ (k : _) (zs : _) (rs : _) (ms : _) (q : _) (s : State), k < 18 ∧ (s.slice k).visiting = true ∧ visitFails zs rs ms q = true) ∧
    (∃ (k : _) (s : State), (18 ≤ k ∨ (s.slice k).visiting = false)) ∧
    (∃ (k : _) (s : State) (g : _) (j : _), s.serving k = some g ∧ (((stuckNoted s k).idleCal.or (stuckNoted s k).reserve).or (stuckNoted s
      k).visitor) = some j) ∧
    (∃ (k : _) (s : State) (g : _), s.serving k = some g ∧ (((stuckNoted s k).idleCal.or (stuckNoted s k).reserve).or (stuckNoted s k).visitor) =
      none) ∧
    (∃ (k : _) (s : State), s.serving k = none ∧ k < 18 ∧ (s.slice k).visiting = true) ∧
    (∃ (k : _) (s : State), s.serving k = none ∧ (18 ≤ k ∨ (s.slice k).visiting = false)) :=
  ⟨⟨0, (solo.setGrp 0 { slice := some 2, dueAt := T }), 2, by decide⟩,
  ⟨0, (solo.setGrp 0
    { slice := some 2, dueAt := T, inPass := true, rest := [{ ch := 1, startAt := T + 1, endAt := T + 2 }], running := some { ch := 1, startAt := T, endAt := T + 1000 } }),
    2, by decide⟩,
  ⟨0, (solo.setGrp 0 { dueAt := T }), by decide⟩,
  ⟨0, State.reset, by decide⟩,
  ⟨((solo.setGrp 0 { slice := some 2, dueAt := T }).setSlice 3 { idleSince := some 0 }), 0, 3, by decide⟩,
  ⟨State.reset, by rintro g k ⟨h, -⟩; exact nomatch h.symm.trans (show _ = none by decide)⟩,
  ⟨17, 100000, 0, 0, 0, (solo.setSlice 17 { visiting := true }), by decide⟩,
  ⟨0, State.reset, by decide⟩,
  ⟨2, (solo.setGrp 0 { slice := some 2 }), 0, 17, by decide⟩,
  ⟨2, ((List.range 18).foldl (fun (s : State) k => s.setSlice k { retired := decide (k ≠ 2) }) (solo.setGrp 0 { slice := some 2 })), 0, by decide⟩,
  ⟨17, (solo.modFch fun x => { x with slices := [(17, { visiting := true })] }), by decide⟩,
  ⟨0, State.reset, by decide⟩⟩

theorem witness_ChannelsAndInputsAreHandled :
    (∃ (n : _) (s : State), chType (s.chRec n) = 5 ∧ chDebounce (s.chRec n) = 0) ∧
    (∃ (n : _) (s : State), chType (s.chRec n) = 5 ∧ chDebounce (s.chRec n) ≠ 0 ∧ (∀ t, (s.chan n).edge = some t → s.now < t + chDebounce (s.chRec n)
      * 100000)) ∧
    (∃ (n : _) (s : State) (t : _), chType (s.chRec n) = 5 ∧ chDebounce (s.chRec n) ≠ 0 ∧ (s.chan n).edge = some t ∧ t + chDebounce (s.chRec n) *
      100000 ≤ s.now) ∧
    (∃ (n : _) (s : State), chType (s.chRec n) ≠ 5) ∧
    (∃ (n : _) (s : State), chType (s.chRec n) = 4) ∧
    (∃ (n : _) (s : State), chType (s.chRec n) ≠ 4) ∧
    (∃ (n : _) (s : State), AverageFull (s.chan n)) ∧
    (∃ (n : _) (s : State), ¬ AverageFull (s.chan n)) ∧
    (∃ (n : _) (ol : _) (on : _) (s : State), OutputFaultSeen s n ol on) ∧
    (∃ (n : _) (ol : _) (on : _) (s : State), ¬ OutputFaultSeen s n ol on) ∧
    (∃ (n : _) (s : State), StageDrives s n ∧ (recentTrips s n).length < 3) ∧
    (∃ (n : _) (s : State), StageDrives s n ∧ 3 ≤ (recentTrips s n).length) ∧
    (∃ (n : _) (s : State), ¬ StageDrives s n) ∧
    (∃ (n : _) (s : State), RetryDue s n) ∧
    (∃ (n : _) (s : State), ¬ RetryDue s n) ∧
    (∃ (n : _) (s : State), chType (s.chRec n) = 2 ∧ (s.chan n).shuntAt = none) ∧
    (∃ (n : _) (s : State), (chType (s.chRec n) ≠ 2 ∨ (s.chan n).shuntAt ≠ none)) ∧
    (∃ (n : _) (s : State), ShuntDue s n) ∧
    (∃ (n : _) (s : State), ¬ ShuntDue s n) ∧
    (∃ (mv : _) (s : State), mv < 16000 ∧ s.live.fch.vfldLow = false) ∧
    (∃ (mv : _) (s : State), mv < 16000 ∧ s.live.fch.vfldLow = true) ∧
    (∃ (mv : _), 16000 ≤ mv) ∧
    (∃ (mv : _) (s : State), 17000 < mv ∧ s.live.fch.vfldLow = true) ∧
    (∃ (mv : _) (s : State), 17000 < mv ∧ s.live.fch.vfldLow = false) ∧
    (∃ (mv : _), mv ≤ 17000) ∧
    (∃ (s : State) (n : _), (s.live.par.gate = false ∨ s.chRec n = [])) ∧
    (∃ (s : State), s.live.par.gate = true ∧ s.live.fch.configured = true ∧ s.live.pwr.mode ≠ .safehold ∧ s.live.fch.vfldLow = false) :=
  ⟨⟨5, solo, by decide⟩,
  ⟨5, { solo with live := { solo.live with cst := { sects := debounced } } }, by decide, by decide, fun t h => by cases h⟩,
  ⟨5, ({ solo with live := { solo.live with cst := { sects := debounced } } } : State).setChan 5 { edge := some 0 }, 0, by decide⟩,
  ⟨0, State.reset, by decide⟩,
  ⟨4, solo, by decide⟩,
  ⟨0, State.reset, by decide⟩,
  ⟨1, (solo.setChan 1 { calState := 1, calN := 256 }), by decide⟩,
  ⟨0, State.reset, by decide⟩,
  ⟨6, false, true, solo, by decide⟩,
  ⟨1, false, true, solo, by decide⟩,
  ⟨8, solo, by decide⟩,
  ⟨8, (solo.setChan 8 { tripAt := [T - 1, T - 9999999999] }), by decide⟩,
  ⟨0, State.reset, by decide⟩,
  ⟨8, (solo.setChan 8 { offUntil := some T }), ⟨_, rfl, by decide⟩, by decide⟩,
  ⟨8, State.reset, by rintro ⟨⟨t, h, -⟩, -⟩; cases h⟩,
  ⟨2, solo, by decide⟩,
  ⟨0, State.reset, by decide⟩,
  ⟨2, (solo.setChan 2 { shuntAt := some (T - 1000000000) }), _, rfl, by decide⟩,
  ⟨2, State.reset, by rintro ⟨t, h, -⟩; cases h⟩,
  ⟨0, State.reset, by decide⟩,
  ⟨15999, (solo.modFch fun x => { x with vfldLow := true }), by decide⟩,
  ⟨16000, by decide⟩,
  ⟨17001, (solo.modFch fun x => { x with vfldLow := true }), by decide⟩,
  ⟨17001, solo, by decide⟩,
  ⟨0, by decide⟩,
  ⟨solo, 10, .inr rfl⟩,
  ⟨solo, by decide⟩⟩

theorem witness_FansAreWatched :
    (∃ (d : _) (s : State), KickOver s d ∧ kickGood s d = true) ∧
    (∃ (d : _) (s : State), KickOver s d ∧ kickGood s d = false ∧ (s.drv d).attempt < 4 ∧ (s.drv d).retry = false) ∧
    (∃ (d : _) (s : State), KickOver s d ∧ kickGood s d = false ∧ (4 ≤ (s.drv d).attempt ∨ (s.drv d).retry = true)) ∧
    (∃ (d : _) (s : State), ¬ KickOver s d) ∧
    (∃ (d : _) (s : State), KickAgain s d) ∧
    (∃ (d : _) (s : State), ¬ KickAgain s d) ∧
    (∃ (d : _) (s : State), TachLost s d) ∧
    (∃ (d : _) (s : State), ¬ TachLost s d) ∧
    (∃ (d : _) (s : State), TooSlow s d) ∧
    (∃ (d : _) (s : State), ¬ TooSlow s d) ∧
    (∃ (d : _) (s : State), TachBack s d) ∧
    (∃ (d : _) (s : State), ¬ TachBack s d) ∧
    (∃ (d : _) (s : State), StallOver s d) ∧
    (∃ (d : _) (s : State), ¬ StallOver s d) ∧
    (∃ (n : _) (d : _) (s : State), chType (s.chRec n) = 9 ∧ Stretched s n d ∧ u8 (s.live.cst.fanRec d) 6 ≤ (s.drv d).periods + 1) ∧
    (∃ (n : _) (d : _) (s : State), chType (s.chRec n) = 9 ∧ Stretched s n d ∧ (s.drv d).periods + 1 < u8 (s.live.cst.fanRec d) 6) ∧
    (∃ (n : _) (s : State), chType (s.chRec n) = 9 ∧ (∀ d, ¬ Stretched s n d)) ∧
    (∃ (n : _) (s : State), chType (s.chRec n) ≠ 9) :=
  ⟨⟨0, (solo.setDrv 0 { st := 1 }), by decide⟩,
  ⟨1, (solo.setDrv 1 { st := 1, attempt := 3 }), by decide⟩,
  ⟨1, (solo.setDrv 1 { st := 1, attempt := 4 }), by decide⟩,
  ⟨0, State.reset, by decide⟩,
  ⟨0, (solo.setDrv 0 { st := 2 }), by decide⟩,
  ⟨0, State.reset, by decide⟩,
  ⟨1, (solo.setDrv 1 { st := 3, duty := 0x42C80000 }), by decide⟩,
  ⟨0, State.reset, by decide⟩,
  ⟨1, (solo.setDrv 1 { st := 3, lowSince := some 0 }), by decide, _, rfl, by decide⟩,
  ⟨0, State.reset, (fun h => absurd h.1 (by decide))⟩,
  ⟨1, (solo.setDrv 1 { st := 5, okSince := some 0 }), by decide, _, rfl, by decide⟩,
  ⟨0, State.reset, (fun h => absurd h.1 (by decide))⟩,
  ⟨0, (solo.setDrv 0 { st := 4, req := 0x42C80000 }), by decide⟩,
  ⟨0, State.reset, by decide⟩,
  ⟨9, 0, ((solo.modCst fun c => { c with sects := stretched }).setChan 9 { elec := 0x42480000 }).setDrv 0 { st := 3, periods := 1 }, by decide⟩,
  ⟨9, 0, ((solo.modCst fun c => { c with sects := stretched }).setChan 9 { elec := 0x42480000 }).setDrv 0 { st := 3 }, by decide⟩,
  ⟨9, solo, by decide, by rintro d ⟨-, h, -⟩; exact absurd h (by decide)⟩,
  ⟨0, State.reset, by decide⟩⟩

theorem witness_EnergyIsMetered :
    (∃ (g : _) (p : PeriodSums) (s : State), s.metering g = true ∧ 0 < p.n) ∧
    (∃ (g : _) (p : PeriodSums) (s : State), (s.metering g = false ∨ p.n = 0)) ∧
    (∃ (g : _) (s : State), s.metering g = true) ∧
    (∃ (g : _) (s : State), s.metering g = false) ∧
    (∃ (g : _) (p : PeriodSums) (s : State), s.metering g = true ∧ p.n = 320) ∧
    (∃ (g : _) (p : PeriodSums) (s : State), (s.metering g = false ∨ p.n ≠ 320)) ∧
    (∃ (g : _) (k : _) (up : _) (s : State), GainMoves s g k up) ∧
    (∃ (g : _) (k : _) (up : _) (s : State), ¬ GainMoves s g k up) ∧
    (∃ (m : _) (s : State), HeatDue s m) ∧
    (∃ (m : _) (s : State), ¬ HeatDue s m) ∧
    (∃ (kind : _) (unit : _) (iv : _) (s : State), IntervalOver s kind unit iv) ∧
    (∃ (kind : _) (unit : _) (s : State), (∀ iv, ¬ IntervalOver s kind unit iv)) ∧
    (∃ (s : State), CaptureDue s) ∧
    (∃ (s : State), ¬ CaptureDue s) :=
  ⟨⟨0, { n := 320, vi := [], qi := [], vv := [], ii := [], residual := 0 }, (solo.modNrg fun x => { x with run := true }), by decide⟩,
  ⟨0, { n := 320, vi := [], qi := [], vv := [], ii := [], residual := 0 }, State.reset, by decide⟩,
  ⟨0, (solo.modNrg fun x => { x with run := true }), by decide⟩,
  ⟨0, State.reset, by decide⟩,
  ⟨0, { n := 320, vi := [], qi := [], vv := [], ii := [], residual := 0 }, (solo.modNrg fun x => { x with run := true }), by decide⟩,
  ⟨0, { n := 320, vi := [], qi := [], vv := [], ii := [], residual := 0 }, State.reset, by decide⟩,
  ⟨0, 3, true, (solo.modNrg fun x => { x with run := true }), by decide⟩,
  ⟨0, 0, true, State.reset, by decide⟩,
  ⟨0, (solo.modNrg fun x => { x with run := true }), by decide⟩,
  ⟨0, State.reset, by decide⟩,
  ⟨1, 0, {}, (solo.modNrg fun x => { x with run := true, groups := [(0, { iv := some {} })] }), by decide⟩,
  ⟨1, 0, State.reset, by rintro iv ⟨h, -⟩; cases h⟩,
  ⟨(solo.modNrg fun x => { x with run := true }), by decide⟩,
  ⟨State.reset, by decide⟩⟩

theorem witness_ClaimsAreJudged :
    (∃ (code : _) (par : _) (s : State), ReadsClaims s ∧ claimWordOk code par = false) ∧
    (∃ (code : _) (par : _) (s : State), ReadsClaims s ∧ claimWordOk code par = true ∧ ¬ ClaimFalls s code) ∧
    (∃ (code : _) (par : _) (s : State), ReadsClaims s ∧ claimWordOk code par = true ∧ ClaimFalls s code) ∧
    (∃ (s : State), ¬ ReadsClaims s) ∧
    (∃ (s : State), GateMayOpen s) ∧
    (∃ (s : State), ¬ GateMayOpen s) ∧
    (∃ (c : _) (s : State), WatchdogSees s c ∧ s.live.par.wdFired = false) ∧
    (∃ (c : _) (s : State), ¬ (WatchdogSees s c ∧ s.live.par.wdFired = false)) ∧
    (∃ (s : State), WatchdogResets s) ∧
    (∃ (s : State), ¬ WatchdogResets s) ∧
    (∃ (s : State), s.live.par.killIn = false) ∧
    (∃ (s : State), s.live.par.killIn = true) ∧
    (∃ (s : State), s.live.par.killIn = true) ∧
    (∃ (s : State), s.live.par.killIn = false) ∧
    (∃ (s : State), KillMayFall s) ∧
    (∃ (s : State), ¬ KillMayFall s) ∧
    (∃ (s : State), AloneDue s) ∧
    (∃ (s : State), ¬ AloneDue s) ∧
    (∃ (s : State), s.live.pwr.powered = true ∧ s.live.pwr.inReset = false ∧ 0 < s.live.par.code ∧ s.live.par.code < 8) ∧
    (∃ (s : State), (s.live.pwr.powered = false ∨ s.live.pwr.inReset = true ∨ s.live.par.code = 0)) :=
  ⟨⟨6, false, duo, by decide⟩,
  ⟨4, false, duo, by decide⟩,
  ⟨0, true, duo, by decide⟩,
  ⟨solo, by decide⟩,
  ⟨(duo.modPar fun x => { x with compareSince := some 0 }), ⟨_, rfl, by decide⟩, by decide, by decide, by decide⟩,
  ⟨State.reset, by rintro ⟨⟨t, h, -⟩, -⟩; cases h⟩,
  ⟨0, State.reset, by decide⟩,
  ⟨5, State.reset, by decide⟩,
  ⟨{ (State.reset.modPar fun x => { x with wdFired := true }) with now := 1000000 }, by decide⟩,
  ⟨State.reset, by decide⟩,
  ⟨State.reset, by decide⟩,
  ⟨(State.reset.modPar fun x => { x with killIn := true }), by decide⟩,
  ⟨(State.reset.modPar fun x => { x with killIn := true }), by decide⟩,
  ⟨State.reset, by decide⟩,
  ⟨(duo.modPar fun x => { x with killOut := true, noneSince := some 0 }), by decide, by decide, by decide, by decide, _, rfl, by decide⟩,
  ⟨State.reset, (fun h => absurd h.1 (by decide))⟩,
  ⟨(duo.modPar fun x => { x with pstate := 1 }), by decide⟩,
  ⟨State.reset, by decide⟩,
  ⟨(solo.modPar fun x => { x with code := 5 }), by decide⟩,
  ⟨State.reset, by decide⟩⟩

theorem witness_ThePairKeepsInTouch :
    (∃ (s : State), s.linkRuns = true) ∧
    (∃ (s : State), s.linkRuns = false) ∧
    (∃ (s : State), s.linkRuns = true) ∧
    (∃ (s : State), s.linkRuns = true) ∧
    (∃ (s : State), s.linkRuns = false) ∧
    (∃ (s : State), s.live.cst.pairInUse ≠ 0 ∧ s.live.par.hbOk = true) ∧
    (∃ (s : State), (s.live.cst.pairInUse = 0 ∨ s.live.par.hbOk = false)) ∧
    (∃ (s : State), s.live.cst.pairInUse ≠ 0 ∧ s.live.par.linkOk = true) ∧
    (∃ (s : State), (s.live.cst.pairInUse = 0 ∨ s.live.par.linkOk = false)) ∧
    (∃ (hb : _) (s : State), s.live.cst.pairInUse ≠ 0 ∧ pathUp s hb = false ∧ (hb = true ∨ s.live.sys.reserveOsc = false)) ∧
    (∃ (hb : _) (s : State), (s.live.cst.pairInUse = 0 ∨ pathUp s hb = true)) ∧
    (∃ (s : State), Joining s) ∧
    (∃ (r : _) (mi : _) (ma : _) (s : State), Joining s ∧ r ≠ s.live.roleB ∧ ¬ VersionsAgree s mi ma) ∧
    (∃ (r : _) (mi : _) (ma : _) (d : _) (s : State), Joining s ∧ r ≠ s.live.roleB ∧ VersionsAgree s mi ma ∧ d ≠ s.live.cst.digest) ∧
    (∃ (r : _) (mi : _) (ma : _) (d : _) (s : State), Joining s ∧ r ≠ s.live.roleB ∧ VersionsAgree s mi ma ∧ d = s.live.cst.digest) ∧
    (∃ (s : State), s.linkRuns = true ∧ s.paired = true ∧ s.live.par.pstate ≠ 2) ∧
    (∃ (s : State), s.linkRuns = true ∧ s.paired = false) ∧
    (∃ (s : State), s.linkRuns = true) ∧
    (∃ (s : State), s.linkRuns = false) :=
  ⟨⟨duo, by decide⟩,
  ⟨State.reset, by decide⟩,
  ⟨duo, by decide⟩,
  ⟨duo, by decide⟩,
  ⟨State.reset, by decide⟩,
  ⟨duo, by decide⟩,
  ⟨State.reset, by decide⟩,
  ⟨duo, by decide⟩,
  ⟨State.reset, by decide⟩,
  ⟨true, (duo.modPar fun x => { x with hbOk := false }), by decide⟩,
  ⟨true, duo, by decide⟩,
  ⟨(duo.modPar fun x => { x with pstate := 2 }), by decide⟩,
  ⟨true, 2, 1, (duo.modPar fun x => { x with pstate := 2 }), by decide⟩,
  ⟨true, 1, 1, [1], (duo.modPar fun x => { x with pstate := 2 }), by decide⟩,
  ⟨true, 0, 1, [], (duo.modPar fun x => { x with pstate := 2 }), by decide⟩,
  ⟨duo, by decide⟩,
  ⟨(duo.modPar fun x => { x with pstate := 0 }), by decide⟩,
  ⟨duo, by decide⟩,
  ⟨State.reset, by decide⟩⟩

theorem witness_TheStandbyFollows :
    (∃ (s : State), Following s ∧ s.atBoundary = true ∧ s.live.par.adopted = true) ∧
    (∃ (s : State), Following s ∧ s.atBoundary = true ∧ s.live.par.adopted = false) ∧
    (∃ (s : State), Following s ∧ s.atBoundary = false) ∧
    (∃ (s : State), Following s) ∧
    (∃ (s : State), ¬ Following s) ∧
    (∃ (s : State), Following s) ∧
    (∃ (s : State), Following s) ∧
    (∃ (s : State), ¬ Following s) ∧
    (∃ (s : State), NowStale s) ∧
    (∃ (s : State), ¬ NowStale s) ∧
    (∃ (s : State), Following s) ∧
    (∃ (s : State), Following s) ∧
    (∃ (s : State), ¬ Following s) ∧
    (∃ (s : State), Following s) ∧
    (∃ (s : State), Following s) ∧
    (∃ (s : State), ¬ Following s) ∧
    (∃ (s : State), Following s) ∧
    (∃ (s : State), Following s) ∧
    (∃ (s : State), Following s) ∧
    (∃ (s : State), ¬ Following s) ∧
    (∃ (s : State), Following s ∧ TakesImage s) ∧
    (∃ (s : State), Following s ∧ ¬ TakesImage s) ∧
    (∃ (s : State), Following s) ∧
    (∃ (s : State), Following s) ∧
    (∃ (s : State), ¬ Following s) ∧
    (∃ (s : State), Resynced s) ∧
    (∃ (ok : _) (s : State), ¬ (Resynced s ∧ ok = true)) :=
  ⟨⟨duo, by decide⟩,
  ⟨(duo.modPar fun x => { x with adopted := false }), by decide⟩,
  ⟨{ duo with now := T + 10 }, by decide⟩,
  ⟨duo, by decide⟩,
  ⟨State.reset, by decide⟩,
  ⟨duo, by decide⟩,
  ⟨duo, by decide⟩,
  ⟨State.reset, by decide⟩,
  ⟨{ duo with now := T + 10000000 }, by decide⟩,
  ⟨State.reset, by decide⟩,
  ⟨duo, by decide⟩,
  ⟨duo, by decide⟩,
  ⟨State.reset, by decide⟩,
  ⟨duo, by decide⟩,
  ⟨duo, by decide⟩,
  ⟨State.reset, by decide⟩,
  ⟨duo, by decide⟩,
  ⟨duo, by decide⟩,
  ⟨duo, by decide⟩,
  ⟨State.reset, by decide⟩,
  ⟨(duo.modPar fun x => { x with pstate := 3 }), by decide⟩,
  ⟨duo, by decide⟩,
  ⟨duo, by decide⟩,
  ⟨duo, by decide⟩,
  ⟨State.reset, by decide⟩,
  ⟨(duo.modPar fun x => { x with stale := true, imageIn := true, commitEpoch := 7 }), by decide⟩,
  ⟨false, State.reset, by decide⟩⟩

theorem witness_TheClaimIsHandedOver :
    (∃ (s : State), s.linkRuns = true ∧ s.paired = true ∧ (s.live.par.pstate = 4 ∨ s.live.par.pstate = 5)) ∧
    (∃ (s : State), s.linkRuns = true ∧ (s.paired = false ∨ (s.live.par.pstate ≠ 4 ∧ s.live.par.pstate ≠ 5))) ∧
    (∃ (s : State), s.linkRuns = true) ∧
    (∃ (s : State), s.linkRuns = false) ∧
    (∃ (e : _) (c : _) (s : State), HandoverNow s e c ∧ Gives s) ∧
    (∃ (e : _) (c : _) (s : State), HandoverNow s e c ∧ Takes s) ∧
    (∃ (s : State), ¬ (Gives s ∨ Takes s)) ∧
    (∃ (s : State), (∀ e c, ¬ HandoverNow s e c)) ∧
    (∃ (s : State), HandoverOver s ∧ s.live.par.pstate ≠ 8) ∧
    (∃ (s : State), HandoverOver s ∧ s.live.par.pstate = 8) ∧
    (∃ (s : State), ¬ HandoverOver s) ∧
    (∃ (s : State), TakeBackDue s) ∧
    (∃ (s : State), ¬ TakeBackDue s) ∧
    (∃ (s : State), TakingSeesNone s) ∧
    (∃ (s : State), ¬ TakingSeesNone s) :=
  ⟨⟨duo, by decide⟩,
  ⟨(duo.modPar fun x => { x with pstate := 3 }), by decide⟩,
  ⟨duo, by decide⟩,
  ⟨State.reset, by decide⟩,
  ⟨8, 4, ({ (duo.modPar fun x => { x with handover := some (8, 4), pstate := 7 }) with now := T + 200000 }.modEpc fun x =>
    { x with boundaryAt := T - 700000 }), by decide⟩,
  ⟨8, 4, ({ (duo.modPar fun x => { x with handover := some (8, 4) }) with now := T + 200000 }.modEpc fun x => { x with boundaryAt := T - 700000 }),
    by decide⟩,
  ⟨State.reset, by decide⟩,
  ⟨State.reset, by rintro e c ⟨h, -⟩; cases h⟩,
  ⟨((duo.modPwr fun x => { x with mode := .handover }).modPar fun x => { x with pstate := 9 }), by decide⟩,
  ⟨((duo.modPwr fun x => { x with mode := .handover }).modPar fun x => { x with pstate := 8 }), by decide⟩,
  ⟨State.reset, by decide⟩,
  ⟨(duo.modPar fun x =>
    { x with pstate := 7, pcode := 2, holdoffSince := some 0, partner := { nclaim := 2, pstate := 4, mode := 5, health := 0, stale := false }, heard := true }),
    by decide, by decide, _, rfl, by decide⟩,
  ⟨State.reset, (fun h => absurd h.1 (by decide))⟩,
  ⟨(duo.modPar fun x => { x with pstate := 8, planned := true }), by decide⟩,
  ⟨State.reset, by decide⟩⟩

theorem witness_OutputsAreCompared :
    (∃ (s : State), Compares s) ∧
    (∃ (s : State), Compares s) ∧
    (∃ (s : State), ¬ Compares s) ∧
    (∃ (s : State), s.linkRuns = true ∧ s.paired = true) ∧
    (∃ (s : State), s.linkRuns = true ∧ s.paired = true) ∧
    (∃ (s : State), (s.linkRuns = false ∨ s.paired = false)) ∧
    (∃ (own : _) (s : State), ResolveDue s own ∧ s.live.par.gate = true) ∧
    (∃ (own : _) (s : State), ResolveDue s own ∧ s.live.par.gate = false) ∧
    (∃ (s : State), (∀ own, ¬ ResolveDue s own)) ∧
    (∃ (s : State), s.live.epc.casting = true) ∧
    (∃ (s : State), s.live.epc.casting = true) ∧
    (∃ (s : State), s.live.epc.casting = true) ∧
    (∃ (s : State), s.live.epc.casting = true ∧ s.live.par.gate = false ∧ s.paired = true) ∧
    (∃ (n : _) (s : State), (s.live.epc.casting = false ∨ 4 ≤ n ∨ (n = 3 ∧ (s.live.par.gate = true ∨ s.paired = false)))) ∧
    (∃ (s : State), s.linkRuns = true ∧ s.paired = true ∧ s.live.par.divAt ≠ none) ∧
    (∃ (s : State), s.linkRuns = true ∧ s.paired = true ∧ s.live.par.divAt = none) ∧
    (∃ (s : State), s.linkRuns = true ∧ s.paired = true) ∧
    (∃ (s : State), (s.linkRuns = false ∨ s.paired = false)) ∧
    (∃ (s : State), s.live.par.testSince ≠ none) ∧
    (∃ (s : State), s.live.par.testSince = none) :=
  ⟨⟨duo, by decide⟩,
  ⟨duo, by decide⟩,
  ⟨State.reset, by decide⟩,
  ⟨duo, by decide⟩,
  ⟨duo, by decide⟩,
  ⟨State.reset, by decide⟩,
  ⟨true, ((duo.modPar fun x => { x with pstate := 7, gate := true, code := 5 }).modPar fun x => { x with divAt := some 0, divOwn := some true }), ⟨_,
    rfl, by decide⟩, by decide⟩,
  ⟨true, (duo.modPar fun x => { x with divAt := some 0, divOwn := some true }), ⟨_, rfl, by decide⟩, by decide⟩,
  ⟨State.reset, by rintro own ⟨t, h, -⟩; cases h⟩,
  ⟨solo, by decide⟩,
  ⟨solo, by decide⟩,
  ⟨solo, by decide⟩,
  ⟨duo, by decide⟩,
  ⟨4, solo, by decide⟩,
  ⟨(duo.modPar fun x => { x with divAt := some 0 }), by decide⟩,
  ⟨duo, by decide⟩,
  ⟨duo, by decide⟩,
  ⟨State.reset, by decide⟩,
  ⟨(duo.modPar fun x => { x with testSince := some 0 }), by decide⟩,
  ⟨State.reset, by decide⟩⟩

theorem witness_PortsRun :
    (∃ (p : _), p < 2) ∧
    (∃ (p : _), 2 ≤ p) ∧
    (∃ (p : _) (f : _) (s : State), s.portOn p = true ∧ ¬ FrameGood s p f) ∧
    (∃ (p : _) (f : _) (s : State), s.portOn p = true ∧ FrameGood s p f ∧ s.live.cst.vlanOk p f.vid = false) ∧
    (∃ (p : _) (f : _) (s : State), s.portOn p = true ∧ FrameGood s p f ∧ s.live.cst.vlanOk p f.vid = true ∧ (redundant s p f = false ∨ f.prp = none)) ∧
    (∃ (p : _) (f : _) (s : State) (src : _) (seq : _) (lan : _), s.portOn p = true ∧ FrameGood s p f ∧ s.live.cst.vlanOk p f.vid = true ∧ redundant s
      p f = true ∧ f.prp = some (src, seq, lan)) ∧
    (∃ (p : _) (s : State), s.portOn p = false) ∧
    (∃ (s : State), SupervisionDue s) ∧
    (∃ (s : State), ¬ SupervisionDue s) ∧
    (∃ (p : _) (ip : _) (s : State), s.portUp p = true ∧ s.live.ipv4 p = some ip) ∧
    (∃ (p : _) (ip : _) (s : State), (s.portUp p = false ∨ s.live.ipv4 p ≠ some ip)) ∧
    (∃ (p : _) (ip : _) (s : State), s.portUp p = true ∧ s.live.ipv4 p = some ip) ∧
    (∃ (p : _) (ip : _) (s : State), (s.portUp p = false ∨ s.live.ipv4 p ≠ some ip)) :=
  ⟨⟨1, by decide⟩,
  ⟨2, by decide⟩,
  ⟨0, { len := 1523, cls := 0 }, solo, by decide⟩,
  ⟨0, { len := 1522, cls := 0, vid := some 7 }, solo, by decide⟩,
  ⟨0, { len := 64, cls := 0 }, solo, by decide⟩,
  ⟨0, { len := 1528, cls := 0, prp := some (1, 2, true) }, solo, 1, 2, true, by decide⟩,
  ⟨2, State.reset, by decide⟩,
  ⟨solo, by decide, (fun t h => by cases h), by decide, by decide⟩,
  ⟨State.reset, (fun h => absurd h.1 (by decide))⟩,
  ⟨0, 0x0A000001, solo, by decide⟩,
  ⟨0, 0, solo, by decide⟩,
  ⟨0, 0x0A000001, solo, by decide⟩,
  ⟨0, 0, solo, by decide⟩⟩

theorem witness_NetworkTimeIsKept :
    (∃ (d : _) (port : _) (s : State), SlotFollows s d port ∧ (s.live.ptp.slot d).master = none) ∧
    (∃ (d : _) (port : _) (ds : List Nat) (s : State) (old : _), SlotFollows s d port ∧ (s.live.ptp.slot d).master = some (port, old) ∧ old.getD 5 0 =
      ds.getD 5 0) ∧
    (∃ (d : _) (port : _) (ds : List Nat) (s : State) (q : _) (old : _), SlotFollows s d port ∧ (s.live.ptp.slot d).master = some (q, old) ∧ ¬ (q =
      port ∧ old.getD 5 0 = ds.getD 5 0) ∧ (betterMaster port ds q old = true ∨ (s.live.ptp.slot d).silent (s.live.cst.lossS d) s.now = true)) ∧
    (∃ (d : _) (port : _) (ds : List Nat) (s : State) (q : _) (old : _), SlotFollows s d port ∧ (s.live.ptp.slot d).master = some (q, old) ∧ ¬ (q =
      port ∧ old.getD 5 0 = ds.getD 5 0) ∧ betterMaster port ds q old = false ∧ (s.live.ptp.slot d).silent (s.live.cst.lossS d) s.now = false) ∧
    (∃ (d : _) (port : _) (dom : _) (s : State), (¬ SlotFollows s d port ∨ dom ≠ u8 (s.live.cst.netPtp d) 0)) ∧
    (∃ (d : _) (port : _) (s : State), SyncTaken s d port ∧ (s.live.ptp.slot d).servoOff = true) ∧
    (∃ (d : _) (port : _) (t1 : _) (c : _) (ago : _) (s : State), SyncTaken s d port ∧ (s.live.ptp.slot d).servoOff = false ∧ ((s.live.ptp.slot
      d).acquired = false ∨ withinStep s d (syncTheta s d port ago t1 c) = false)) ∧
    (∃ (d : _) (port : _) (t1 : _) (c : _) (ago : _) (s : State), SyncTaken s d port ∧ (s.live.ptp.slot d).servoOff = false ∧ (s.live.ptp.slot
      d).acquired = true ∧ withinStep s d (syncTheta s d port ago t1 c) = true) ∧
    (∃ (d : _) (port : _) (s : State), ¬ SyncTaken s d port) ∧
    (∃ (d : _) (s : State) (port : _) (ds : List Nat), SlotFollows s d port ∧ (s.live.ptp.slot d).master = some (port, ds)) ∧
    (∃ (d : _) (s : State), (∀ port ds, ¬ (SlotFollows s d port ∧ (s.live.ptp.slot d).master = some (port, ds)))) ∧
    (∃ (d : _) (q : _) (s : State) (port : _) (ds : List Nat) (e : _), d < 2 ∧ s.live.cst.ptpMode d = 1 ∧ s.live.pwr.cpRunning = true ∧
      (s.live.ptp.slot d).master = some (port, ds) ∧ (s.live.eth.port port).tsq.find? (fun e => e.1 = q ∧ e.2.1 = d) = some e) ∧
    (∃ (d : _) (s : State), (2 ≤ d ∨ s.live.cst.ptpMode d ≠ 1 ∨ s.live.pwr.cpRunning = false ∨ (s.live.ptp.slot d).master = none)) ∧
    (∃ (d : _) (q : _) (s : State) (port : _) (ds : List Nat), (s.live.ptp.slot d).master = some (port, ds) ∧ (s.live.eth.port port).tsq.find? (fun e
      => e.1 = q ∧ e.2.1 = d) = none) ∧
    (∃ (d : _) (s : State), SyncLost s d) ∧
    (∃ (d : _) (s : State), ¬ SyncLost s d) ∧
    (∃ (s : State), ReturnDue s) ∧
    (∃ (s : State), ¬ ReturnDue s) ∧
    (∃ (d : _) (s : State) (sec0 : _) (load : _), LoadDue s d sec0 load) ∧
    (∃ (d : _) (s : State), (∀ sec0 load, ¬ LoadDue s d sec0 load)) :=
  ⟨⟨1, 0, solo, by decide⟩,
  ⟨0, 0, [128, 6, 33, 0, 128, 7], (solo.modPtp fun x => { x with slot0 := { master := some (0, [128, 6, 33, 0, 128, 7]) } }), [128, 6, 33, 0, 128, 7],
    by decide⟩,
  ⟨0, 1, [127, 6, 33, 0, 128, 9], (solo.modPtp fun x => { x with slot0 := { master := some (0, [128, 6, 33, 0, 128, 7]) } }), 0, [128, 6, 33, 0, 128,
    7], by decide⟩,
  ⟨0, 1, [129, 6, 33, 0, 128, 9], (solo.modPtp fun x => { x with slot0 := { master := some (0, [128, 6, 33, 0, 128, 7]), heardAt := T } }), 0, [128,
    6, 33, 0, 128, 7], by decide⟩,
  ⟨2, 0, 0, solo, by decide⟩,
  ⟨0, 0, (solo.modPtp fun x => { x with slot0 := { master := some (0, [128, 6, 33, 0, 128, 7]), servoOff := true } }), ⟨by decide, _, rfl⟩, by decide⟩,
  ⟨0, 0, 0, 0, 0, (solo.modPtp fun x => { x with slot0 := { master := some (0, [128, 6, 33, 0, 128, 7]) } }), ⟨by decide, _, rfl⟩, by decide, .inl
    rfl⟩,
  ⟨0, 0, syncT2 (solo.modPtp fun x => { x with slot0 := { master := some (0, [128, 6, 33, 0, 128, 7]), acquired := true } }) 0 0 0, 0, 0, (solo.modPtp
    fun x => { x with slot0 := { master := some (0, [128, 6, 33, 0, 128, 7]), acquired := true } }), ⟨by decide, _, rfl⟩, by decide, by decide,
    by decide⟩,
  ⟨2, 0, solo, fun h => absurd h.1.1 (by decide)⟩,
  ⟨0, (solo.modPtp fun x => { x with slot0 := { master := some (0, [128, 6, 33, 0, 128, 7]) } }), 0, [128, 6, 33, 0, 128, 7], by decide⟩,
  ⟨2, State.reset, by rintro port ds ⟨h, -⟩; exact absurd h.1 (by decide)⟩,
  ⟨0, 5, (solo.modPtp fun x => { x with slot0 := { master := some (0, [128, 6, 33, 0, 128, 7]) } }).modEth fun x =>
    { x with port0 := { x.port0 with tsq := [(5, 0, 1, 0)] } }, 0, [128, 6, 33, 0, 128, 7], (5, 0, 1, 0), by decide⟩,
  ⟨2, State.reset, by decide⟩,
  ⟨0, 5, (solo.modPtp fun x => { x with slot0 := { master := some (0, [128, 6, 33, 0, 128, 7]) } }), 0, [128, 6, 33, 0, 128, 7], by decide⟩,
  ⟨0, (solo.modPtp fun x => { x with slot0 := { locked := true } }), by decide⟩,
  ⟨0, State.reset, by decide⟩,
  ⟨((solo.modPtp fun x => { x with slot0 := { locked := true } }).modPtp fun x => { x with use := 1 }), by decide⟩,
  ⟨State.reset, by decide⟩,
  ⟨0, (solo.modPtp fun x => { x with slot0 := { armed := some (0, 5), clk := 2000000000000000000000000 } }), 0, 5, by decide⟩,
  ⟨0, State.reset, by rintro a b ⟨h, -⟩; cases h⟩⟩

theorem witness_YraSessionsAreServed :
    (∃ (r : _) (s : State) (slot : _), s.hears .yra = true ∧ YraRoom s (roleOfCode r) slot) ∧
    (∃ (r : _) (s : State), s.hears .yra = true ∧ (∀ slot, ¬ YraRoom s (roleOfCode r) slot)) ∧
    (∃ (s : State), s.hears .yra = false) ∧
    (∃ (i : _) (mac : _) (s : State) (o : _) (key : _), s.hears .yra = true ∧ YraProven s i mac o key) ∧
    (∃ (i : _) (mac : _) (s : State), s.hears .yra = true ∧ (∀ o key, ¬ YraProven s i mac o key)) ∧
    (∃ (s : State), s.hears .yra = false) ∧
    (∃ (i : _) (ctr : _) (s : State) (x : _), YraNew s i ctr x) ∧
    (∃ (i : _) (ctr : _) (s : State) (x : _), YraNew s i ctr x) ∧
    (∃ (i : _) (s : State) (x : _), s.hears .yra = true ∧ s.live.eth.sessions.find? (fun (x : Session) => x.id = i) = some x) ∧
    (∃ (i : _) (ctr : _) (s : State) (x : _) (m : _), s.hears .yra = true ∧ s.live.eth.sessions.find? (fun (x : Session) => x.id = i) = some x ∧ x.ctr
      = some ctr ∧ x.lastReply = some m) ∧
    (∃ (i : _) (ctr : _) (s : State) (x : _) (c : _), s.hears .yra = true ∧ s.live.eth.sessions.find? (fun (x : Session) => x.id = i) = some x ∧ x.ctr
      = some c ∧ (ctr < c ∨ (ctr = c ∧ x.lastReply = none))) ∧
    (∃ (i : _) (s : State), (s.hears .yra = false ∨ s.live.eth.sessions.find? (fun (x : Session) => x.id = i) = none)) ∧
    (∃ (i : _) (s : State), YraIdle s i) ∧
    (∃ (i : _) (s : State), ¬ YraIdle s i) :=
  ⟨⟨1, deployed, 16, by decide⟩,
  ⟨0, solo, by decide, fun slot h => absurd h.2 (by decide)⟩,
  ⟨State.reset, by decide⟩,
  ⟨3, proveMac "YRA-OPEN" [1] { session := 3, role := .owner, slot := 8, hostNonce := [], nonce := [], openedAt := T }, (deployed.modEth fun x =>
    { x with opening := [{ session := 3, role := .owner, slot := 8, hostNonce := [], nonce := [], openedAt := T }] }),
    { session := 3, role := .owner, slot := 8, hostNonce := [], nonce := [], openedAt := T }, [1], by decide, by decide, by decide, rfl, by decide⟩,
  ⟨3, [], solo, by decide, by rintro o key ⟨h, -⟩; cases h⟩,
  ⟨State.reset, by decide⟩,
  ⟨3, 5, (deployed.modEth fun x => { x with sessions := [{ id := 3, role := .owner, slot := 8, ctr := some 4 }] }),
    { id := 3, role := .owner, slot := 8, ctr := some 4 }, by decide, by decide, fun c h => by cases h; decide⟩,
  ⟨3, 5, (deployed.modEth fun x => { x with sessions := [{ id := 3, role := .owner, slot := 8, ctr := some 4 }] }),
    { id := 3, role := .owner, slot := 8, ctr := some 4 }, by decide, by decide, fun c h => by cases h; decide⟩,
  ⟨3, (deployed.modEth fun x => { x with sessions := [{ id := 3, role := .owner, slot := 8, ctr := some 4 }] }),
    { id := 3, role := .owner, slot := 8, ctr := some 4 }, by decide⟩,
  ⟨3, 4, (deployed.modEth fun x => { x with sessions := [{ id := 3, role := .owner, slot := 8, ctr := some 4, lastReply := some (.yra 4 3 4 []) }] }),
    { id := 3, role := .owner, slot := 8, ctr := some 4, lastReply := some (.yra 4 3 4 []) }, _, by decide, by decide, by decide, rfl⟩,
  ⟨3, 3, (deployed.modEth fun x => { x with sessions := [{ id := 3, role := .owner, slot := 8, ctr := some 4 }] }),
    { id := 3, role := .owner, slot := 8, ctr := some 4 }, 4, by decide⟩,
  ⟨3, State.reset, by decide⟩,
  ⟨3, (deployed.modEth fun x => { x with sessions := [{ id := 3, role := .owner, slot := 8, ctr := some 4 }] }),
    { id := 3, role := .owner, slot := 8, ctr := some 4 }, by decide⟩,
  ⟨3, State.reset, by rintro ⟨x, h, -⟩; cases h⟩⟩

theorem witness_SubstationsReport :
    (∃ (f : _) (s : State), NetworkUp s ∧ s.telCheck f = none) ∧
    (∃ (f : _) (s : State) (c : _), NetworkUp s ∧ s.telCheck f = some c ∧ (c ≠ 5 ∨ (s.live.eth.sub f.sub).rejSync = true)) ∧
    (∃ (f : _) (s : State), NetworkUp s ∧ s.telCheck f = some 5 ∧ (s.live.eth.sub f.sub).rejSync = false) ∧
    (∃ (s : State), ¬ NetworkUp s) ∧
    (∃ (i : _) (s : State), SyncOwed s.yspSettle i) ∧
    (∃ (i : _) (s : State), ¬ SyncOwed s.yspSettle i) :=
  ⟨⟨{ addr := 1, ver := 1, sub := 0, nclaim := 0, fcnt := 1, len := 16, tagOk := true, echo := 0, state := 0, count := 1, entries := [(0, 0, 0)] },
    deployed, by decide⟩,
  ⟨{ addr := 1, ver := 1, sub := 2, nclaim := 0, fcnt := 1, len := 16, tagOk := true, echo := 0, state := 0, count := 1, entries := [(0, 0, 0)] },
    deployed, 2, by decide⟩,
  ⟨{ addr := 1, ver := 1, sub := 0, nclaim := 8, fcnt := 1, len := 16, tagOk := true, echo := 0, state := 0, count := 1, entries := [(0, 0, 0)] },
    deployed, by decide⟩,
  ⟨State.reset, by decide⟩,
  ⟨1, solo, by decide⟩,
  ⟨0, State.reset, by decide⟩⟩

theorem witness_CanFramesAreHandled :
    (∃ (c : _) (f : _) (s : State), BusHeard s c ∧ WrongFormat s c f) ∧
    (∃ (c : _) (f : _) (s : State), BusHeard s c ∧ ¬ WrongFormat s c f ∧ f.destroyed = true ∧ Receives s c f) ∧
    (∃ (c : _) (f : _) (s : State), BusHeard s c ∧ ¬ WrongFormat s c f ∧ f.destroyed = true ∧ ¬ Receives s c f) ∧
    (∃ (c : _) (f : _) (s : State), BusHeard s c ∧ ¬ WrongFormat s c f ∧ f.destroyed = false ∧ ¬ Receives s c f) ∧
    (∃ (c : _) (f : _) (s : State), BusHeard s c ∧ ¬ WrongFormat s c f ∧ f.destroyed = false ∧ Receives s c f) ∧
    (∃ (c : _) (s : State), ¬ BusHeard s c) ∧
    (∃ (c : _) (i : _) (s : State), ObjectLate s c i) ∧
    (∃ (c : _) (i : _) (s : State), ¬ ObjectLate s c i) ∧
    (∃ (c : _) (s : State), PassedOut s c) ∧
    (∃ (c : _) (s : State), ¬ PassedOut s c) ∧
    (∃ (c : _) (s : State), HoldPassed s c) ∧
    (∃ (c : _) (s : State), ¬ HoldPassed s c) ∧
    (∃ (c : _) (s : State), (s.live.can.ctl c).state = 4 ∧ (s.live.can.ctl c).recovering = true) ∧
    (∃ (c : _) (s : State), ((s.live.can.ctl c).state ≠ 4 ∨ (s.live.can.ctl c).recovering = false)) ∧
    (∃ (c : _) (s : State), (s.live.can.ctl c).state = 1) ∧
    (∃ (c : _) (s : State), (s.live.can.ctl c).state ≠ 1) ∧
    (∃ (c : _) (s : State), (s.live.can.ctl c).state = 5 ∧ canWakeMode (s.live.cst.canCtrl c) = 1) ∧
    (∃ (c : _) (s : State), ((s.live.can.ctl c).state ≠ 5 ∨ canWakeMode (s.live.cst.canCtrl c) ≠ 1)) ∧
    (∃ (c : _) (f : _) (s : State), Wakes s c f) ∧
    (∃ (c : _) (f : _) (s : State), ¬ Wakes s c f) ∧
    (∃ (c : _) (s : State) (m : _), s.canActive c = some m) ∧
    (∃ (c : _) (s : State) (m : _), s.canActive c = some m) ∧
    (∃ (c : _) (s : State) (m : _), s.canActive c = some m) ∧
    (∃ (c : _) (s : State) (m : _), s.canActive c = some m) ∧
    (∃ (c : _) (s : State), s.canActive c = none) :=
  ⟨⟨0, { id := 5, fd := true }, (solo.modCan fun x => { x with ctls := [(0, { state := 2 })] }), by decide⟩,
  ⟨0, { id := 5, destroyed := true }, (solo.modCan fun x => { x with ctls := [(0, { state := 2 })] }), by decide⟩,
  ⟨0, { id := 6, destroyed := true }, (solo.modCan fun x => { x with ctls := [(0, { state := 2 })] }), by decide⟩,
  ⟨0, { id := 6 }, (solo.modCan fun x => { x with ctls := [(0, { state := 2 })] }), by decide⟩,
  ⟨0, { id := 5 }, (solo.modCan fun x => { x with ctls := [(0, { state := 2 })] }), by decide⟩,
  ⟨0, State.reset, by decide⟩,
  ⟨0, 5, solo.modCan fun x => { x with objs := [(5, { lastAt := some 0 })] }, _, _, rfl, rfl, by decide⟩,
  ⟨0, 5, State.reset, by rintro ⟨b, t, h, -⟩; cases h⟩,
  ⟨0, (solo.modCan fun x => { x with ctls := [(0, { state := 2, tec := 256 })] }), by decide⟩,
  ⟨0, State.reset, by decide⟩,
  ⟨0, (solo.modCan fun x => { x with ctls := [(0, { state := 4 })] }), by decide⟩,
  ⟨0, State.reset, by decide⟩,
  ⟨0, (solo.modCan fun x => { x with ctls := [(0, { state := 4, recovering := true })] }), by decide⟩,
  ⟨0, State.reset, by decide⟩,
  ⟨0, (solo.modCan fun x => { x with ctls := [(0, { state := 1 })] }), by decide⟩,
  ⟨0, State.reset, by decide⟩,
  ⟨0, (solo.modCan fun x => { x with ctls := [(0, { state := 5 })] }), by decide⟩,
  ⟨0, State.reset, by decide⟩,
  ⟨1, { id := 5 }, (solo.modCan fun x => { x with ctls := [(1, { state := 5 })] }), _, rfl, by decide⟩,
  ⟨0, { id := 5 }, State.reset, by rintro ⟨b, h, -⟩; cases h⟩,
  ⟨0, (solo.modCan fun x => { x with mbs := [(0, { state := 2 })] }), 0, by decide⟩,
  ⟨0, (solo.modCan fun x => { x with mbs := [(0, { state := 2 })] }), 0, by decide⟩,
  ⟨0, (solo.modCan fun x => { x with mbs := [(0, { state := 2 })] }), 0, by decide⟩,
  ⟨0, (solo.modCan fun x => { x with mbs := [(0, { state := 2 })] }), 0, by decide⟩,
  ⟨0, State.reset, by decide⟩⟩

theorem witness_TheBackupDomainIsSupplied :
    (∃ (a : _) (b : _) (s : State), RailFalls s a b) ∧
    (∃ (a : _) (b : _) (s : State), ¬ RailFalls s a b) ∧
    (∃ (a : _) (b : _) (s : State), RailReturns s a b) ∧
    (∃ (a : _) (b : _) (s : State), ¬ RailReturns s a b) :=
  ⟨⟨2499, 0, State.reset, by decide⟩,
  ⟨2500, 2500, State.reset, by decide⟩,
  ⟨2561, 2500, (State.reset.modClk fun x => { x with onVbak := true }), by decide⟩,
  ⟨2560, 2500, State.reset, by decide⟩⟩

theorem witness_TheCalendarIsDisciplined :
    (∃ (s : State) (t : _), s.live.clk.armed = some t ∧ s.calSub = 0 ∧ s.live.clk.counts ≠ s.live.clk.armedAt) ∧
    (∃ (s : State), (s.live.clk.armed = none ∨ s.calSub ≠ 0 ∨ s.live.clk.counts = s.live.clk.armedAt)) ∧
    (∃ (s : State) (d : _), s.live.clk.pairStep = some d ∧ s.calSub = 0 ∧ s.live.clk.counts ≠ s.live.clk.pairAt) ∧
    (∃ (s : State), (s.live.clk.pairStep = none ∨ s.calSub ≠ 0 ∨ s.live.clk.counts = s.live.clk.pairAt)) ∧
    (∃ (s : State), MainsWindowOver s ∧ windowGood s.settleRef = true) ∧
    (∃ (s : State), MainsWindowOver s ∧ windowGood s.settleRef = false) ∧
    (∃ (s : State), ¬ MainsWindowOver s) ∧
    (∃ (s : State), ComparesPtp s) ∧
    (∃ (s : State), ¬ ComparesPtp s) ∧
    (∃ (s : State), AutoStepDue s) ∧
    (∃ (s : State), ¬ AutoStepDue s) ∧
    (∃ (s : State), s.live.clk.lastValid + 86400 ≤ s.calSec ∧ s.live.clk.timedOut = false) ∧
    (∃ (s : State), (s.calSec < s.live.clk.lastValid + 86400 ∨ s.live.clk.timedOut = true)) ∧
    (∃ (n : _) (s : State), AlarmDue s n) ∧
    (∃ (n : _) (s : State), ¬ AlarmDue s n) :=
  ⟨⟨(State.reset.modClk fun x => { x with armed := some 5, counts := 32768 }), 5, by decide⟩,
  ⟨State.reset, by decide⟩,
  ⟨(State.reset.modClk fun x => { x with pairStep := some 5, counts := 32768 }), 5, by decide⟩,
  ⟨State.reset, by decide⟩,
  ⟨((solo.modClk fun x => { x with winRef := 1, counts := 10 * 32768 }).setChan 5 { count := 500 }), by decide⟩,
  ⟨((solo.modClk fun x => { x with winRef := 1, counts := 10 * 32768 }).setChan 5 { count := 490 }), by decide⟩,
  ⟨State.reset, by decide⟩,
  ⟨((solo.modPtp fun x => { x with slot0 := { locked := true } }).modCst fun c => { c with sects := byNetwork }), by decide⟩,
  ⟨State.reset, by decide⟩,
  ⟨(((solo.modPtp fun x => { x with slot0 := { locked := true } }).modCst fun c => { c with sects := byNetwork }).modClk fun x =>
    { x with autoStep := true, counts := 32768 }), by decide⟩,
  ⟨State.reset, by decide⟩,
  ⟨(State.reset.modClk fun x => { x with counts := 86400 * 32768 }), by decide⟩,
  ⟨State.reset, by decide⟩,
  ⟨15, (State.reset.modClk fun x => { x with alarms := [(15, { armed := true })] }), by decide⟩,
  ⟨0, State.reset, by decide⟩⟩

theorem witness_SignedCommandsAreExecuted :
    (∃ (s : State) (r : SecRun), s.live.sec.running = some r ∧ (commandTaken s).cmdCheck r ≠ 1 ∧ cmdCode_ r.bytes ≠ 11) ∧
    (∃ (s : State) (r : SecRun), s.live.sec.running = some r ∧ (commandTaken s).cmdCheck r ≠ 1 ∧ cmdCode_ r.bytes = 11) ∧
    (∃ (s : State) (r : SecRun) (t : _), s.live.sec.running = some r ∧ (commandTaken s).cmdCheck r = 1 ∧ (commandTaken s).cmdEffect r = (1, t) ∧
      cmdCode_ r.bytes ≠ 9) ∧
    (∃ (s : State), s.live.sec.running = none) ∧
    (∃ (r : SecRun), cmdCode_ r.bytes = 1) ∧
    (∃ (r : SecRun), cmdCode_ r.bytes = 2) ∧
    (∃ (r : SecRun), cmdCode_ r.bytes = 3) ∧
    (∃ (r : SecRun), cmdCode_ r.bytes = 4) ∧
    (∃ (r : SecRun), cmdCode_ r.bytes = 5) ∧
    (∃ (r : SecRun), cmdCode_ r.bytes = 6) ∧
    (∃ (r : SecRun), cmdCode_ r.bytes = 7) ∧
    (∃ (s : State) (r : SecRun) (m : _), cmdCode_ r.bytes = 8 ∧ s.live.sec.material = some m) ∧
    (∃ (r : SecRun), cmdCode_ r.bytes = 9) ∧
    (∃ (r : SecRun), cmdCode_ r.bytes = 10) ∧
    (∃ (r : SecRun), cmdCode_ r.bytes = 11) :=
  ⟨⟨(State.reset.modSec fun x => { x with running := some { bytes := cmd 0, src := .yml, role := .owner, startedAt := 0 } }),
    { bytes := cmd 0, src := .yml, role := .owner, startedAt := 0 }, by decide⟩,
  ⟨(State.reset.modSec fun x => { x with running := some { bytes := cmd 11, src := .yml, role := .owner, startedAt := 0 } }),
    { bytes := cmd 11, src := .yml, role := .owner, startedAt := 0 }, by decide⟩,
  ⟨(State.reset.modSec fun x => { x with running := some { bytes := cmd 7, src := .yml, role := .vendor, startedAt := 0 } }),
    { bytes := cmd 7, src := .yml, role := .vendor, startedAt := 0 }, _, rfl, by decide, rfl, by decide⟩,
  ⟨State.reset, by decide⟩,
  ⟨{ bytes := cmd 1, src := .yml, role := .owner, startedAt := 0 }, by decide⟩,
  ⟨{ bytes := cmd 2, src := .yml, role := .owner, startedAt := 0 }, by decide⟩,
  ⟨{ bytes := cmd 3, src := .yml, role := .owner, startedAt := 0 }, by decide⟩,
  ⟨{ bytes := cmd 4, src := .yml, role := .owner, startedAt := 0 }, by decide⟩,
  ⟨{ bytes := cmd 5, src := .yml, role := .owner, startedAt := 0 }, by decide⟩,
  ⟨{ bytes := cmd 6, src := .yml, role := .owner, startedAt := 0 }, by decide⟩,
  ⟨{ bytes := cmd 7, src := .yml, role := .owner, startedAt := 0 }, by decide⟩,
  ⟨(State.reset.modSec fun x => { x with material := some { kek := [], keys := [], sealedUnder := [] } }),
    { bytes := cmd 8, src := .yml, role := .owner, startedAt := 0 }, _, by decide, rfl⟩,
  ⟨{ bytes := cmd 9, src := .yml, role := .owner, startedAt := 0 }, by decide⟩,
  ⟨{ bytes := cmd 10, src := .yml, role := .owner, startedAt := 0 }, by decide⟩,
  ⟨{ bytes := cmd 11, src := .yml, role := .owner, startedAt := 0 }, by decide⟩⟩

theorem witness_EnclaveAndBurstsAreServed :
    (∃ (n : _) (s : State), n ≤ 1 ∧ s.live.clk.inputActive n = false ∧ s.live.sec.armed = false) ∧
    (∃ (n : _) (s : State), n ≤ 1 ∧ s.live.clk.inputActive n = false ∧ s.live.sec.armed = true) ∧
    (∃ (n : _) (s : State), (1 < n ∨ s.live.clk.inputActive n = true)) ∧
    (∃ (n : _), n ≤ 1) ∧
    (∃ (s : State) (c : _) (t : _), s.live.sec.challenge = some (c, t) ∧ t + 300000000000 ≤ s.now) ∧
    (∃ (s : State), (∀ c t, s.live.sec.challenge = some (c, t) → s.now < t + 300000000000)) ∧
    (∃ (s : State), s.live.sec.debug = 1 ∧ s.live.sec.lastBurst + 3600000000000 ≤ s.now) ∧
    (∃ (s : State), (s.live.sec.debug ≠ 1 ∨ s.now < s.live.sec.lastBurst + 3600000000000)) ∧
    (∃ (s : State), 2 ^ 20 ≤ s.live.sec.drbgRequests) ∧
    (∃ (s : State), s.live.sec.drbgRequests < 2 ^ 20) ∧
    (∃ (s : State) (e : _) (ch : _) (o : _) (k : _), s.live.sec.attRun = some (e, ch, o) ∧ s.live.sec.key? 4 = some k) ∧
    (∃ (s : State) (e : _) (ch : _) (o : _), s.live.sec.attRun = some (e, ch, o) ∧ s.live.sec.key? 4 = none) ∧
    (∃ (s : State), s.live.sec.attRun = none) ∧
    (∃ (s : State) (b : _), s.hears .dbg = true ∧ (burstNoted s).burst? = none ∧ s.pub = some b) ∧
    (∃ (s : State), s.hears .dbg = true ∧ (burstNoted s).burst? = none ∧ s.pub = none) ∧
    (∃ (s : State) (t : _), s.hears .dbg = true ∧ (burstNoted s).burst? = some t) ∧
    (∃ (s : State), s.hears .dbg = false) ∧
    (∃ (s : State) (t : _), s.burst? = some t) ∧
    (∃ (s : State), s.burst? = none) ∧
    (∃ (s : State) (t : _), s.burst? = some t ∧ t.lastAccess + 1000000 ≤ s.now) ∧
    (∃ (s : State), (∀ t, s.burst? = some t → s.now < t.lastAccess + 1000000)) ∧
    (∃ (s : State) (t : Txn) (o : _), s.refuses .dbg t.role t.held = some o) ∧
    (∃ (s : State) (t : Txn), s.refuses .dbg t.role t.held = none) ∧
    (∃ (t : Txn), 1024 < t.held.length) :=
  ⟨⟨1, State.reset, by decide⟩,
  ⟨1, (State.reset.modSec fun x => { x with lifecycle := .deployed }), by decide⟩,
  ⟨2, State.reset, by decide⟩,
  ⟨1, by decide⟩,
  ⟨(solo.modSec fun x => { x with challenge := some ([], T - 300000000000) }), [], _, rfl, by decide⟩,
  ⟨State.reset, fun c t h => by cases h⟩,
  ⟨(solo.modSec fun x => { x with debug := 1, lastBurst := T - 3600000000000 }), by decide⟩,
  ⟨State.reset, by decide⟩,
  ⟨(State.reset.modSec fun x => { x with drbgRequests := 2 ^ 20 }), by decide⟩,
  ⟨State.reset, by decide⟩,
  ⟨(deployed.modSec fun x => { x with attRun := some (8, [], 0) }), 8, [], 0, [1], by decide⟩,
  ⟨(solo.modSec fun x => { x with attRun := some (8, [], 0) }), 8, [], 0, by decide⟩,
  ⟨State.reset, by decide⟩,
  ⟨solo, _, by decide, by decide, rfl⟩,
  ⟨State.reset, by decide⟩,
  ⟨{ solo with txns := [{ id := 0, src := .dbg, role := .nobody, readEpoch := 8, acceptedAt := 0, lastAccess := T - 1000000, closeAt := none, reply := .none, accesses := 0, values := [], writes := [], dropped := 0 }] },
    { id := 0, src := .dbg, role := .nobody, readEpoch := 8, acceptedAt := 0, lastAccess := T - 1000000, closeAt := none, reply := .none, accesses := 0, values := [], writes := [], dropped := 0 },
    by decide⟩,
  ⟨(State.reset.modPwr fun x => { x with powered := false }), by decide⟩,
  ⟨{ solo with txns := [{ id := 0, src := .dbg, role := .nobody, readEpoch := 8, acceptedAt := 0, lastAccess := T - 1000000, closeAt := none, reply := .none, accesses := 0, values := [], writes := [], dropped := 0 }] },
    { id := 0, src := .dbg, role := .nobody, readEpoch := 8, acceptedAt := 0, lastAccess := T - 1000000, closeAt := none, reply := .none, accesses := 0, values := [], writes := [], dropped := 0 },
    by decide⟩,
  ⟨State.reset, by decide⟩,
  ⟨{ solo with txns := [{ id := 0, src := .dbg, role := .nobody, readEpoch := 8, acceptedAt := 0, lastAccess := T - 1000000, closeAt := none, reply := .none, accesses := 0, values := [], writes := [], dropped := 0 }] },
    { id := 0, src := .dbg, role := .nobody, readEpoch := 8, acceptedAt := 0, lastAccess := T - 1000000, closeAt := none, reply := .none, accesses := 0, values := [], writes := [], dropped := 0 },
    by decide⟩,
  ⟨State.reset, fun t h => by cases h⟩,
  ⟨solo, { (emptyTxn solo .dbg .owner 0 .none) with held := List.replicate 1025 (.rd 0) }, _, rfl⟩,
  ⟨{ ((solo.modSec fun x => { x with lifecycle := .deployed, ownerOpen := true, debug := 3, slots := [(roleSlot .owner, { cls := 1, key := [1] }), (3, { cls := 1, key := [1] }), (4, { cls := 1, key := [1] })] })) with nextTxn := 6, txns := [{ emptyTxn solo .dbg .owner 0 .none with id := 5, closeAt := none }] },
    { (emptyTxn solo .dbg .owner 0 .none) with held := [.rd 0x200] }, by decide⟩,
  ⟨{ (emptyTxn solo .dbg .owner 0 .none) with held := List.replicate 1025 (.rd 0) }, by decide⟩⟩

theorem witness_TheSupplyIsWatched :
    (∃ (s : State), s.live.pwr.powered = true ∧ RecordOpen s) ∧
    (∃ (s : State), s.live.pwr.powered = true ∧ OrderlyDown s) ∧
    (∃ (s : State), s.live.pwr.powered = true ∧ ¬ RecordOpen s ∧ ¬ OrderlyDown s) ∧
    (∃ (s : State), s.live.pwr.powered = false) ∧
    (∃ (mv : _) (s : State), s.live.pwr.powered = false ∧ 4600 < mv) ∧
    (∃ (mv : _) (s : State), (s.live.pwr.powered = true ∨ mv ≤ 4600)) ∧
    (∃ (mv : _) (s : State), WarningDue s mv) ∧
    (∃ (mv : _) (s : State), ¬ WarningDue s mv) ∧
    (∃ (mv : _) (s : State), WarningOver s mv ∧ runsAlone s = true ∧ s.live.epc.served = true) ∧
    (∃ (mv : _) (s : State), WarningOver s mv ∧ (runsAlone s = false ∨ s.live.epc.served = false)) ∧
    (∃ (mv : _) (s : State), ¬ WarningOver s mv) ∧
    (∃ (s : State), WarmResetDue s) ∧
    (∃ (s : State), ¬ WarmResetDue s) ∧
    (∃ (s : State), s.live.pwr.powered = true) ∧
    (∃ (s : State), s.live.pwr.powered = false) :=
  ⟨⟨(State.reset.modPwr fun x => { x with pfw := true }), by decide⟩,
  ⟨((solo.modPwr fun x => { x with pfw := true, pfwAt := T - 4000000 })), by decide⟩,
  ⟨State.reset, by decide⟩,
  ⟨(State.reset.modPwr fun x => { x with powered := false }), by decide⟩,
  ⟨4601, (State.reset.modPwr fun x => { x with powered := false }), by decide⟩,
  ⟨4600, (State.reset.modPwr fun x => { x with powered := false }), by decide⟩,
  ⟨4599, State.reset, by decide⟩,
  ⟨65535, State.reset, by decide⟩,
  ⟨40000, (solo.modPwr fun x => { x with pfw := true }), by decide⟩,
  ⟨40000, (duo.modPwr fun x => { x with pfw := true }), by decide⟩,
  ⟨0, State.reset, by decide⟩,
  ⟨(duo.modPwr fun x => { x with pfwEndAt := some (T - 10000000) }), by decide, by decide, by decide, by decide, _, rfl, by decide⟩,
  ⟨State.reset, (fun h => absurd h.1 (by decide))⟩,
  ⟨State.reset, by decide⟩,
  ⟨(State.reset.modPwr fun x => { x with powered := false }), by decide⟩⟩

theorem witness_ResetsAreExecuted :
    (∃ (s : State) (r : _), ModuleResetDue s r) ∧
    (∃ (s : State), (∀ r, ¬ ModuleResetDue s r)) ∧
    (∃ (a : _) (b : _) (s : State), dueBlocks s ≠ [] ∧ s.live.pwr.inReset = false ∧ imageBad s a b = false) ∧
    (∃ (a : _) (b : _) (s : State), dueBlocks s ≠ [] ∧ s.live.pwr.inReset = false ∧ imageBad s a b = true) ∧
    (∃ (s : State), (dueBlocks s = [] ∨ s.live.pwr.inReset = true)) ∧
    (∃ (s : State), CpUp s) ∧
    (∃ (s : State), ¬ CpUp s) ∧
    (∃ (s : State), CpUp s) ∧
    (∃ (s : State), ¬ CpUp s) ∧
    (∃ (s : State), s.live.pwr.inReset = false) ∧
    (∃ (s : State), s.live.pwr.inReset = true) ∧
    (∃ (s : State) (src : _), s.live.pwr.active = [src]) ∧
    (∃ (s : State) (src : _) (other : _), src ∈ s.live.pwr.active ∧ other ∈ s.live.pwr.active ∧ other ≠ src) ∧
    (∃ (s : State) (src : _), src ∉ s.live.pwr.active) :=
  ⟨⟨(State.reset.modPwr fun x => { x with pendModule := some { module := 1, due := 0 } }), { module := 1, due := 0 }, by decide⟩,
  ⟨State.reset, by rintro r ⟨h, -⟩; cases h⟩,
  ⟨true, true, (State.reset.modPwr fun x => { x with pendBlocks := [{ blocks := 2, due := 0 }] }), by decide⟩,
  ⟨false, true, (State.reset.modPwr fun x => { x with pendBlocks := [{ blocks := 1, due := 0 }] }), by decide⟩,
  ⟨State.reset, by decide⟩,
  ⟨(State.reset.modPwr fun x => { x with bootStarted := true }), by decide⟩,
  ⟨State.reset, by decide⟩,
  ⟨(State.reset.modPwr fun x => { x with bootStarted := true }), by decide⟩,
  ⟨State.reset, by decide⟩,
  ⟨State.reset, by decide⟩,
  ⟨(State.reset.modPwr fun x => { x with inReset := true, active := [.resetN] }), by decide⟩,
  ⟨(State.reset.modPwr fun x => { x with inReset := true, active := [.resetN] }), .resetN, by decide⟩,
  ⟨(State.reset.modPwr fun x => { x with inReset := true, active := [.resetN, .powerOn] }), .resetN, .powerOn, by decide⟩,
  ⟨State.reset, .resetN, by decide⟩⟩

theorem witness_UpdatesProceed :
    (∃ (s : State), LockLate s) ∧
    (∃ (s : State), ¬ LockLate s) ∧
    (∃ (s : State) (l : _), AtStage s l 3 ∧ (s.checkUpdate l).1 ≠ 0) ∧
    (∃ (n : _) (s : State) (l : _), AtStage s l 4 ∧ n ≤ s.live.upd.spareSectors) ∧
    (∃ (n : _) (s : State) (l : _), AtStage s l 4 ∧ s.live.upd.spareSectors < n ∧ ¬ (l.kind = 1 ∧ l.todo ≠ [])) ∧
    (∃ (n : _) (s : State) (l : _) (c : _) (cs : _), AtStage s l 4 ∧ s.live.upd.spareSectors < n ∧ l.kind = 1 ∧ l.todo = c :: cs) ∧
    (∃ (s : State), (∀ l, s.live.upd.lock = some l → l.stage ≠ 3 ∧ l.stage ≠ 4)) ∧
    (∃ (s : State) (l : _), AtStage s l 5 ∧ l.swapHeld = false ∧ ¬ HandsOverFirst s ∧ ¬ (s.paired = true ∧ s.live.par.pstate = 9)) ∧
    (∃ (s : State) (l : _), AtStage s l 5 ∧ l.swapHeld = false ∧ HandsOverFirst s ∧ s.live.par.handover = none) ∧
    (∃ (s : State) (l : _), AtStage s l 5 ∧ l.swapHeld = false ∧ (HandsOverFirst s ∧ s.live.par.handover ≠ none ∨ s.paired = true ∧ s.live.par.pstate
      = 9)) ∧
    (∃ (s : State), (∀ l, AtStage s l 5 → l.swapHeld = true)) ∧
    (∃ (s : State) (t : _), s.live.upd.trial = some t ∧ s.trialHealthy t = true) ∧
    (∃ (s : State), (∀ t, s.live.upd.trial = some t → s.trialHealthy t = false)) ∧
    (∃ (s : State) (t : _), TrialFails s t) ∧
    (∃ (s : State), (∀ t, ¬ TrialFails s t)) :=
  ⟨⟨(solo.modUpd fun x => { x with lock := some { src := .yml, role := .owner, kind := 2, version := 1, header := [], stage := 2 } }), _, rfl,
    by decide⟩,
  ⟨State.reset, by rintro ⟨l, h, -⟩; cases h⟩,
  ⟨(solo.modUpd fun x => { x with lock := some { src := .yml, role := .owner, kind := 2, version := 1, header := [], stage := 3 } }),
    { src := .yml, role := .owner, kind := 2, version := 1, header := [], stage := 3 }, ⟨rfl, rfl⟩, by simp only [State.checkUpdate]; split <;> decide⟩,
  ⟨819, (solo.modUpd fun x => { x with lock := some { src := .yml, role := .owner, kind := 2, version := 1, header := [], stage := 4 } }),
    { src := .yml, role := .owner, kind := 2, version := 1, header := [], stage := 4 }, by decide⟩,
  ⟨820, (solo.modUpd fun x => { x with lock := some { src := .yml, role := .owner, kind := 2, version := 1, header := [], stage := 4 } }),
    { src := .yml, role := .owner, kind := 2, version := 1, header := [], stage := 4 }, by decide⟩,
  ⟨820, (solo.modUpd fun x =>
    { x with lock := some { src := .yml, role := .owner, kind := 1, version := 1, header := [], stage := 4, todo := [2] } }),
    { src := .yml, role := .owner, kind := 1, version := 1, header := [], stage := 4, todo := [2] }, 2, [], by decide⟩,
  ⟨State.reset, fun l h => by cases h⟩,
  ⟨(solo.modUpd fun x => { x with lock := some { src := .yml, role := .owner, kind := 2, version := 1, header := [], stage := 5 } }),
    { src := .yml, role := .owner, kind := 2, version := 1, header := [], stage := 5 }, by decide⟩,
  ⟨((duo.modPar fun x =>
    { x with pstate := 7, gate := true, pcode := 2, partner := { nclaim := 2, pstate := 4, mode := 5, health := 0, stale := false }, heard := true }).modUpd
    fun x => { x with lock := some { src := .yml, role := .owner, kind := 2, version := 1, header := [], stage := 5 } }),
    { src := .yml, role := .owner, kind := 2, version := 1, header := [], stage := 5 }, by decide⟩,
  ⟨(((duo.modPar fun x =>
    { x with pstate := 7, gate := true, pcode := 2, partner := { nclaim := 2, pstate := 4, mode := 5, health := 0, stale := false }, heard := true }).modPar
    fun x => { x with handover := some (10, 4) }).modUpd fun x =>
    { x with lock := some { src := .yml, role := .owner, kind := 2, version := 1, header := [], stage := 5 } }),
    { src := .yml, role := .owner, kind := 2, version := 1, header := [], stage := 5 }, by decide⟩,
  ⟨State.reset, by rintro l ⟨h, -⟩; cases h⟩,
  ⟨(solo.modUpd fun x => { x with trial := some { trialS := 60, hostConfirm := false, comps := [2], selftestPassed := true, shadowOk := true } }),
    { trialS := 60, hostConfirm := false, comps := [2], selftestPassed := true, shadowOk := true }, by decide⟩,
  ⟨State.reset, fun t h => by cases h⟩,
  ⟨(solo.modUpd fun x =>
    { x with trial := some { trialS := 60, hostConfirm := false, resets := 3, comps := [2], selftestPassed := true, shadowOk := true } }),
    { trialS := 60, hostConfirm := false, resets := 3, comps := [2], selftestPassed := true, shadowOk := true }, by decide⟩,
  ⟨State.reset, by rintro t ⟨h, -⟩; cases h⟩⟩

theorem witness_TheModuleIsGuarded :
    (∃ (k : _), (k = 0 ∨ 3 < k)) ∧
    (∃ (row : _) (s : State), tget s.live.sys.dramRowCe row 0 < 7) ∧
    (∃ (row : _) (s : State), 7 ≤ tget s.live.sys.dramRowCe row 0) ∧
    (∃ (s : State) (t : _), s.live.mgt.speedDue = some t ∧ t ≤ s.now) ∧
    (∃ (s : State), (∀ t, s.live.mgt.speedDue = some t → s.now < t)) :=
  ⟨⟨4, by decide⟩,
  ⟨3, (State.reset.modSys fun x => { x with dramRowCe := [(3, 6)] }), by decide⟩,
  ⟨3, (State.reset.modSys fun x => { x with dramRowCe := [(3, 7)] }), by decide⟩,
  ⟨(State.reset.modMgt fun x => { x with speedDue := some 0 }), 0, by decide⟩,
  ⟨State.reset, fun t h => by cases h⟩⟩

theorem witness_ManagementSessionsRun :
    (∃ (s : State), s.mgtServes = true) ∧
    (∃ (r : _) (s : State) (slot : _), s.mgtServes = true ∧ MgtRoom (mgtCounted s) (roleOfCode r) slot) ∧
    (∃ (r : _) (s : State), s.mgtServes = true ∧ (∀ slot, ¬ MgtRoom (mgtCounted s) (roleOfCode r) slot)) ∧
    (∃ (i : _) (mac : _) (s : State) (o : _) (key : _), s.mgtServes = true ∧ MgtProven (mgtCounted s) i mac o key) ∧
    (∃ (i : _) (mac : _) (s : State), s.mgtServes = true ∧ (∀ o key, ¬ MgtProven (mgtCounted s) i mac o key)) ∧
    (∃ (i : _) (ctr : _) (s : State) (x : _), MgtNew s i ctr x) ∧
    (∃ (s : State), s.mgtServes = true) ∧
    (∃ (i : _) (s : State), s.mgtServes = true ∧ i ≠ 0 ∧ s.live.mgt.sessions.find? (fun (x : Session) => x.id = i) = none) ∧
    (∃ (s : State), s.mgtServes = true) ∧
    (∃ (n : _) (s : State), s.mgtServes = true ∧ 1 < n) ∧
    (∃ (i : _) (s : State), MgtIdle s i) ∧
    (∃ (i : _) (s : State), ¬ MgtIdle s i) ∧
    (∃ (s : State), s.mgtServes = false) :=
  ⟨⟨State.reset, by decide⟩,
  ⟨1, deployed, 24, by decide⟩,
  ⟨0, State.reset, by decide, fun slot h => absurd h.2.1 (by decide)⟩,
  ⟨3, proveMac "YML-OPEN" [1] { session := 3, role := .owner, slot := 8, hostNonce := [], nonce := [], openedAt := T }, (deployed.modMgt fun x =>
    { x with opening := [{ session := 3, role := .owner, slot := 8, hostNonce := [], nonce := [], openedAt := T }] }),
    { session := 3, role := .owner, slot := 8, hostNonce := [], nonce := [], openedAt := T }, [1], by decide, by decide, by decide, rfl, by decide⟩,
  ⟨3, [], State.reset, by decide, by rintro o key ⟨h, -⟩; cases h⟩,
  ⟨3, 5, (deployed.modMgt fun x => { x with sessions := [{ id := 3, role := .owner, slot := 8, ctr := some 4 }] }),
    { id := 3, role := .owner, slot := 8, ctr := some 4 }, by decide, by decide, by decide, (fun c h => by cases h; decide)⟩,
  ⟨State.reset, by decide⟩,
  ⟨3, State.reset, by decide⟩,
  ⟨State.reset, by decide⟩,
  ⟨2, State.reset, by decide⟩,
  ⟨3, (deployed.modMgt fun x => { x with sessions := [{ id := 3, role := .owner, slot := 8, ctr := some 4 }] }), _, rfl, by decide⟩,
  ⟨3, State.reset, by rintro ⟨x, h, -⟩; cases h⟩,
  ⟨(State.reset.modPwr fun x => { x with powered := false }), by decide⟩⟩

theorem witness_ManagementRequestsAreServed :
    (∃ (i : _) (ctr : _) (s : State) (x : _), MgtNew s i ctr x) ∧
    (∃ (s : State), s.mgtServes = true) ∧
    (∃ (i : _) (ctr : _) (n : _) (s : State) (x : _), MgtNew s i ctr x ∧ n ≤ 32) ∧
    (∃ (i : _) (ctr : _) (n : _) (s : State) (x : _), MgtNew s i ctr x ∧ 32 < n) ∧
    (∃ (i : _) (ctr : _) (s : State) (x : _), MgtNew s i ctr x ∧ (mgtNoted s i ctr).mgtAlone = false) ∧
    (∃ (i : _) (ctr : _) (s : State) (x : _), MgtNew s i ctr x ∧ (mgtNoted s i ctr).mgtAlone = true) ∧
    (∃ (i : _) (ctr : _) (m : _) (k : _) (s : State) (x : _), MgtNew s i ctr x ∧ s.live.pwr.inReset = false ∧ ResetForm m k ∧ ¬ (m ≠ 0 ∧ k % 64 ≠ 0)) ∧
    (∃ (i : _) (ctr : _) (m : _) (k : _) (s : State) (x : _), MgtNew s i ctr x ∧ s.live.pwr.inReset = false ∧ (m = 1 ∨ m = 2) ∧ k % 64 ≠ 0) ∧
    (∃ (i : _) (ctr : _) (m : _) (k : _) (s : State) (x : _), MgtNew s i ctr x ∧ s.live.pwr.inReset = false ∧ ¬ ResetForm m k) ∧
    (∃ (i : _) (ctr : _) (s : State) (x : _), MgtNew s i ctr x ∧ s.live.pwr.inReset = true) ∧
    (∃ (s : State), s.mgtServes = true) ∧
    (∃ (s : State), s.mgtServes = true) ∧
    (∃ (s : State), s.mgtServes = true ∧ s.live.pwr.inReset = false) ∧
    (∃ (s : State), s.mgtServes = true ∧ s.live.pwr.inReset = true) ∧
    (∃ (i : _) (s : State), s.mgtServes = true ∧ i ≠ 0 ∧ s.live.mgt.sessions.find? (fun (x : Session) => x.id = i) = none) ∧
    (∃ (i : _) (ctr : _) (s : State) (x : _) (c : _), s.mgtServes = true ∧ i ≠ 0 ∧ s.live.mgt.sessions.find? (fun (x : Session) => x.id = i) = some x
      ∧ x.ctr = some c ∧ (ctr < c ∨ (ctr = c ∧ x.lastReply = none))) ∧
    (∃ (i : _) (s : State) (x : _), s.mgtServes = true ∧ i ≠ 0 ∧ s.live.mgt.sessions.find? (fun (x : Session) => x.id = i) = some x) ∧
    (∃ (i : _) (ctr : _) (s : State) (x : _) (o : _), s.mgtServes = true ∧ i ≠ 0 ∧ s.live.mgt.sessions.find? (fun (x : Session) => x.id = i) = some x
      ∧ x.ctr = some ctr ∧ x.lastReply = some o) ∧
    (∃ (s : State), s.mgtServes = false) :=
  ⟨⟨3, 5, (deployed.modMgt fun x => { x with sessions := [{ id := 3, role := .owner, slot := 8, ctr := some 4 }] }),
    { id := 3, role := .owner, slot := 8, ctr := some 4 }, by decide, by decide, by decide, (fun c h => by cases h; decide)⟩,
  ⟨State.reset, by decide⟩,
  ⟨3, 5, 32, (deployed.modMgt fun x => { x with sessions := [{ id := 3, role := .owner, slot := 8, ctr := some 4 }] }),
    { id := 3, role := .owner, slot := 8, ctr := some 4 }, ⟨by decide, by decide, by decide, (fun c h => by cases h; decide)⟩, by decide⟩,
  ⟨3, 5, 33, (deployed.modMgt fun x => { x with sessions := [{ id := 3, role := .owner, slot := 8, ctr := some 4 }] }),
    { id := 3, role := .owner, slot := 8, ctr := some 4 }, ⟨by decide, by decide, by decide, (fun c h => by cases h; decide)⟩, by decide⟩,
  ⟨3, 5, (deployed.modMgt fun x => { x with sessions := [{ id := 3, role := .owner, slot := 8, ctr := some 4 }] }),
    { id := 3, role := .owner, slot := 8, ctr := some 4 }, ⟨by decide, by decide, by decide, (fun c h => by cases h; decide)⟩, by decide⟩,
  ⟨3, 5, { (deployed.modMgt fun x => { x with sessions := [{ id := 3, role := .owner, slot := 8, ctr := some 4 }] }) with pub := none },
    { id := 3, role := .owner, slot := 8, ctr := some 4 }, ⟨by decide, by decide, by decide, (fun c h => by cases h; decide)⟩, by decide⟩,
  ⟨3, 5, 0, 63, (deployed.modMgt fun x => { x with sessions := [{ id := 3, role := .owner, slot := 8, ctr := some 4 }] }),
    { id := 3, role := .owner, slot := 8, ctr := some 4 }, ⟨by decide, by decide, by decide, (fun c h => by cases h; decide)⟩, by decide, by decide,
    by decide⟩,
  ⟨3, 5, 2, 1, (deployed.modMgt fun x => { x with sessions := [{ id := 3, role := .owner, slot := 8, ctr := some 4 }] }),
    { id := 3, role := .owner, slot := 8, ctr := some 4 }, ⟨by decide, by decide, by decide, (fun c h => by cases h; decide)⟩, by decide, by decide,
    by decide⟩,
  ⟨3, 5, 3, 0, (deployed.modMgt fun x => { x with sessions := [{ id := 3, role := .owner, slot := 8, ctr := some 4 }] }),
    { id := 3, role := .owner, slot := 8, ctr := some 4 }, ⟨by decide, by decide, by decide, (fun c h => by cases h; decide)⟩, by decide, by decide⟩,
  ⟨3, 5, ((deployed.modMgt fun x => { x with sessions := [{ id := 3, role := .owner, slot := 8, ctr := some 4 }] }).modPwr fun x =>
    { x with inReset := true, resetCold := false }), { id := 3, role := .owner, slot := 8, ctr := some 4 }, ⟨by decide, by decide, by decide, (fun c h
    => by cases h; decide)⟩, by decide⟩,
  ⟨State.reset, by decide⟩,
  ⟨State.reset, by decide⟩,
  ⟨State.reset, by decide⟩,
  ⟨(State.reset.modPwr fun x => { x with inReset := true, resetCold := false }), by decide⟩,
  ⟨3, State.reset, by decide⟩,
  ⟨3, 3, (deployed.modMgt fun x => { x with sessions := [{ id := 3, role := .owner, slot := 8, ctr := some 4 }] }),
    { id := 3, role := .owner, slot := 8, ctr := some 4 }, 4, by decide⟩,
  ⟨3, (deployed.modMgt fun x => { x with sessions := [{ id := 3, role := .owner, slot := 8, ctr := some 4 }] }),
    { id := 3, role := .owner, slot := 8, ctr := some 4 }, by decide⟩,
  ⟨3, 4, (deployed.modMgt fun x => { x with sessions := [{ id := 3, role := .owner, slot := 8, ctr := some 4, lastReply := some (.yra 4 3 4 []) }] }),
    { id := 3, role := .owner, slot := 8, ctr := some 4, lastReply := some (.yra 4 3 4 []) }, _, by decide, by decide, by decide, by decide, rfl⟩,
  ⟨(State.reset.modPwr fun x => { x with powered := false }), by decide⟩⟩

theorem witness_PlanningCommandsCommit :
    (∃ (ws : _) (x : _), OneSubmission ws x) ∧
    (∃ (ws : List Staged) (x : _) (y : _), x ∈ ws ∧ y ∈ ws ∧ 0x900 ≤ x.addr ∧ 0x900 ≤ y.addr ∧ x.txn ≠ y.txn) ∧
    (∃ (s : State), checkPln s.live 0xC34 1 = true ∧ s.live.pln.island = false) ∧
    (∃ (s : State), checkPln s.live 0xC34 1 = true ∧ s.live.pln.island = true) ∧
    (∃ (s : State), checkPln s.live 0xC34 2 = true ∧ s.live.pln.island = true ∧ s.live.pln.cmdHeld = true) ∧
    (∃ (s : State), checkPln s.live 0xC34 2 = true ∧ (s.live.pln.island = false ∨ s.live.pln.cmdHeld = false)) ∧
    (∃ (s : State) (w : _), (w = 1 ∨ w = 2) ∧ checkPln s.live 0xC34 w = false) :=
  ⟨⟨[{ txn := 1, src := .yra, role := .owner, addr := 0x824, val := 1, readEpoch := 8, closedAt := 0 },
    { txn := 1, src := .yra, role := .owner, addr := 0x900, val := 1, readEpoch := 8, closedAt := 0 }],
    { txn := 1, src := .yra, role := .owner, addr := 0x824, val := 1, readEpoch := 8, closedAt := 0 }, by decide⟩,
  ⟨[{ txn := 1, src := .yra, role := .owner, addr := 0x900, val := 1, readEpoch := 8, closedAt := 0 },
    { txn := 2, src := .yra, role := .owner, addr := 0x93C, val := 1, readEpoch := 8, closedAt := 0 }], _, _, .head _, .tail _ (.head _), by decide,
    by decide, by decide⟩,
  ⟨solo, by decide⟩,
  ⟨(solo.modPln fun x => { x with island := true }), by decide⟩,
  ⟨(solo.modPln fun x => { x with island := true, cmdHeld := true }), by decide⟩,
  ⟨solo, by decide⟩,
  ⟨{ solo with live := { solo.live with cst := {} } }, 1, by decide⟩⟩

theorem witness_ControlCommandsAct :
    (∃ (k : _), k < 192) ∧
    (∃ (s : State), HandAllowed s ∧ s.live.cst.slotRec s.live.lpe.handSel ≠ []) ∧
    (∃ (s : State), (¬ HandAllowed s ∨ s.live.cst.slotRec s.live.lpe.handSel = [])) ∧
    (∃ (y : Slot), y.handCmd = none) ∧
    (∃ (v : _), fFinite v = true) ∧
    (∃ (v : _), fFinite v = false) ∧
    (∃ (s : State), s.armRefused = false) ∧
    (∃ (s : State), s.armRefused = true) ∧
    (∃ (s : State), s.live.lgc.halted = true) ∧
    (∃ (s : State), s.live.lgc.halted = false) ∧
    (∃ (cmd : _), cmd = 1 ∨ cmd = 2 ∨ cmd = 3) ∧
    (∃ (s : State), s.changeDue = true) ∧
    (∃ (s : State) (cmd : _) (src : _) (role : _), s.live.lgc.forceHeld = some (cmd, src, role)) ∧
    (∃ (s : State), s.changeDue = false) ∧
    (∃ (s : State) (role : _) (cmd : _) (c : _) (fs : _), (cmd = 1 ∨ cmd = 2 ∨ cmd = 3) ∧ forceJudged s cmd role = (c, fs)) ∧
    (∃ (k : _), k < 8) ∧
    (∃ (k : _), k < 8) :=
  ⟨⟨191, by decide⟩,
  ⟨(solo.modPwr fun x => { x with mode := .commission }), by decide⟩,
  ⟨solo, by decide⟩,
  ⟨{}, by decide⟩,
  ⟨0x7F7FFFFF, by decide⟩,
  ⟨0x7F800000, by decide⟩,
  ⟨(solo.modPwr fun x => { x with mode := .tune }), by decide⟩,
  ⟨State.reset, by decide⟩,
  ⟨(State.reset.modLgc fun x => { x with halted := true }), by decide⟩,
  ⟨State.reset, by decide⟩,
  ⟨3, by decide⟩,
  ⟨(solo.modLgc fun x => { x with change := some (8, [], 0, []) }), by decide⟩,
  ⟨(solo.modLgc fun x => { x with forceHeld := some (3, .yml, .owner) }), _, _, _, rfl⟩,
  ⟨State.reset, by decide⟩,
  ⟨State.reset, .owner, 3, _, _, by decide, rfl⟩,
  ⟨7, by decide⟩,
  ⟨7, by decide⟩⟩

theorem witness_FieldCommandsAct :
    (∃ (s : State) (k : _), k < 96 ∧ chConverts (s.chRec k) = true) ∧
    (∃ (s : State) (k : _), k < 96 ∧ chConverts (s.chRec k) = true) ∧
    (∃ (s : State) (k : _), k < 96 ∧ HandAllowed s ∧ chIsOutput (s.chRec k) = true) ∧
    (∃ (s : State) (k : _), k < 96 ∧ (¬ HandAllowed s ∨ chIsOutput (s.chRec k) = false)) ∧
    (∃ (s : State) (k : _), k < 96 ∧ (s.chan k).hand = true) ∧
    (∃ (s : State) (k : _), k < 96 ∧ (s.chan k).hand = false) ∧
    (∃ (k : _) (v : _), k < 96 ∧ fFinite v = true) ∧
    (∃ (k : _) (v : _), k < 96 ∧ fFinite v = false) ∧
    (∃ (s : State) (k : _), k < 96 ∧ (s.chan k).tripLatch = true) ∧
    (∃ (k : _), k < 96) ∧
    (∃ (s : State) (k : _), s.chRec k ≠ [] ∧ chCalMode (s.chRec k) = 1 ∧ HandAllowed s) ∧
    (∃ (s : State) (d : _), (s.drv d).st = 4) ∧
    (∃ (s : State) (d : _), (s.drv d).st ≠ 4) :=
  ⟨⟨solo, 1, by decide⟩,
  ⟨solo, 3, by decide⟩,
  ⟨(solo.modPwr fun x => { x with mode := .commission }), 9, by decide⟩,
  ⟨solo, 95, by decide⟩,
  ⟨(solo.setChan 9 { hand := true }), 9, by decide⟩,
  ⟨State.reset, 95, by decide⟩,
  ⟨95, 0, by decide⟩,
  ⟨95, 0xFF800000, by decide⟩,
  ⟨(solo.setChan 8 { tripLatch := true }), 8, by decide⟩,
  ⟨95, by decide⟩,
  ⟨(solo.modPwr fun x => { x with mode := .commission }), 1, by decide⟩,
  ⟨(solo.setDrv 0 { st := 4 }), 0, by decide⟩,
  ⟨State.reset, 0, by decide⟩⟩

theorem witness_NetworkAndTimeCommandsAct :
    (∃ (g : _), g < 8) ∧
    (∃ (m : _), m < 64) ∧
    (∃ (s : State) (d : _), d < 2 ∧ (s.live.ptp.slot d).servoOff = true) ∧
    (∃ (d : _), d < 2) ∧
    (∃ (d : _), d < 2) ∧
    (∃ (s : State) (src : _) (n : _), tfind s.live.ptp.capTxn (srcCode src) ≠ some n) ∧
    (∃ (s : State) (src : _) (n : _), tfind s.live.ptp.capTxn (srcCode src) = some n) ∧
    (∃ (s : State), s.live.clk.loadSub.toNat ≤ 32767) ∧
    (∃ (s : State), s.live.clk.loadSub.toNat ≤ 32767) ∧
    (∃ (s : State) (src : _) (n : _), tfind s.live.clk.capTxn (srcCode src) ≠ some n) ∧
    (∃ (k : _), k < 16) ∧
    (∃ (k : _), k < 16) ∧
    (∃ (s : State), (s.live.cst.canMb s.live.can.mbCtrl s.live.can.mbNo).isSome = true) ∧
    (∃ (c : _), c < 4) :=
  ⟨⟨7, by decide⟩,
  ⟨63, by decide⟩,
  ⟨(State.reset.modPtp fun x => { x with slot1 := { servoOff := true } }), 1, by decide⟩,
  ⟨1, by decide⟩,
  ⟨1, by decide⟩,
  ⟨State.reset, .yml, 1, by decide⟩,
  ⟨(State.reset.modPtp fun x => { x with capTxn := [(2, 1)] }), .yml, 1, by decide⟩,
  ⟨(State.reset.modClk fun x => { x with loadSub := 32767 }), by decide⟩,
  ⟨State.reset, by decide⟩,
  ⟨State.reset, .yml, 1, by decide⟩,
  ⟨15, by decide⟩,
  ⟨15, by decide⟩,
  ⟨solo, by decide⟩,
  ⟨3, by decide⟩⟩

theorem witness_SystemCommandsAct :
    (∃ (s : State), s.live.sec.running = none) ∧
    (∃ (s : State), s.live.sec.running ≠ none) ∧
    (∃ (i : _), i < 64) ∧
    (∃ (s : State), s.live.sec.lockout = false) ∧
    (∃ (s : State), s.live.sec.debug = 1) ∧
    (∃ (s : State), s.live.sec.lifecycle = .manufacture) ∧
    (∃ (s : State), s.live.sec.lifecycle ≠ .manufacture) ∧
    (∃ (s : State) (m : _), (m = 1 ∨ m = 2 ∨ m = 3 ∨ m = 4) ∧ s.live.modeCmdOk s.holdsClaim m = true) ∧
    (∃ (s : State) (m : _), (m = 1 ∨ m = 2 ∨ m = 3 ∨ m = 4) ∧ s.live.modeCmdOk s.holdsClaim m = false) ∧
    (∃ (i : _), i < 128) :=
  ⟨⟨State.reset, by decide⟩,
  ⟨(State.reset.modSec fun x => { x with running := some { bytes := cmd 0, src := .yml, role := .owner, startedAt := 0 } }), by decide⟩,
  ⟨63, by decide⟩,
  ⟨State.reset, by decide⟩,
  ⟨(State.reset.modSec fun x => { x with debug := 1 }), by decide⟩,
  ⟨State.reset, by decide⟩,
  ⟨(State.reset.modSec fun x => { x with lifecycle := .deployed }), by decide⟩,
  ⟨solo, 3, by decide⟩,
  ⟨solo, 2, by decide⟩,
  ⟨127, by decide⟩⟩

theorem witness_TransactionsReadOneEpoch :
    (∃ (s : State) (src : _) (role : _) (as : _) (b : _), Served s src role as b ∧ externalStaged s.staged + (writesOf as).length ≤ 2048 ∧ (∀ p ∈
      writesOf as, s.writeOk b.core src (writesOf as) p.1 p.2 = true)) ∧
    (∃ (s : State) (t : Txn) (b : _), s.pub = some b ∧ t.readEpoch = b.epoch) ∧
    (∃ (s : State) (t : Txn) (b : _) (q : _), s.pub = some q ∧ s.prev = some b ∧ q.epoch ≠ t.readEpoch) :=
  ⟨⟨deployed, .yml, .owner, [.rd 0x200, .wr 0x208 1], _, ⟨⟨by decide, by decide, fun _ h => (nomatch h), by decide, by decide, by decide⟩, rfl,
    by decide, by decide, by decide, by decide, by decide⟩, by decide, by decide⟩,
  ⟨solo, emptyTxn solo .yml .owner 0 .none, _, rfl, by decide⟩,
  ⟨{ solo with prev := solo.pub }, { emptyTxn solo .yml .owner 0 .none with readEpoch := 7 }, _, _, rfl, rfl, by decide⟩⟩

theorem witness_CapacityIsAllOrNothing :
    (∃ (s : State) (src : _) (role : _) (as : _) (b : _), Served s src role as b ∧ writesOf as ≠ [] ∧ 2048 < externalStaged s.staged + (writesOf
      as).length) ∧
    (∃ (s : State) (src : _) (role : _) (as : _) (b : _), Served s src role as b ∧ externalStaged s.staged + (writesOf as).length ≤ 2048 ∧ (∀ p ∈
      writesOf as, s.writeOk b.core src (writesOf as) p.1 p.2 = true)) ∧
    (∃ (x : Staged), x.mirror = false ∧ (x.src = .yra ∨ x.src = .yml ∨ x.src = .dbg)) ∧
    (∃ (x : Staged), (x.mirror = true ∨ x.src = .dp)) :=
  ⟨⟨{ deployed with staged := List.replicate 2048 { txn := 1, src := .yra, role := .owner, addr := 0x0208, val := 1, readEpoch := 8, closedAt := 0 }, nextTxn := 2 },
    .yml, .owner, [.wr 0x208 1], _, ⟨⟨by decide, by decide, fun _ h => (nomatch h), by decide, by decide, by decide⟩, rfl, by decide, by decide,
    by decide, by decide, by decide⟩, by decide, by decide⟩,
  ⟨deployed, .yml, .owner, [.wr 0x208 1], _, ⟨⟨by decide, by decide, fun _ h => (nomatch h), by decide, by decide, by decide⟩, rfl, by decide,
    by decide, by decide, by decide, by decide⟩, by decide, by decide⟩,
  ⟨{ txn := 1, src := .yra, role := .owner, addr := 0x208, val := 1, readEpoch := 8, closedAt := 0 }, by decide⟩,
  ⟨{ txn := 1, src := .dp, role := .owner, addr := 0x208, val := 1, readEpoch := 8, closedAt := 0 }, by decide⟩⟩

theorem witness_LateCyclesAreCounted :
    (∃ (us : _) (s : State), CycleRuns s us ∧ s.live.cst.cycleMaxUs < us) ∧
    (∃ (us : _) (s : State), CycleRuns s us ∧ us ≤ s.live.cst.cycleMaxUs) :=
  ⟨⟨101, solo, by decide⟩,
  ⟨100, solo, by decide⟩⟩

theorem witness_ResetCausesAreRecorded :
    (∃ (l : List ResetSource) (x : _), x ∈ l) ∧
    (∃ (l : List ResetSource), l ≠ []) ∧
    (∃ (k : Core), k.pwr.sources.Nodup) ∧
    (∃ (s : State), s.live.pwr.inReset = false) ∧
    (∃ (s : State), s.live.pwr.inReset = true) ∧
    (∃ (b : _), b < 6) :=
  ⟨⟨[.powerOn], .powerOn, by decide⟩,
  ⟨[.warmSw, .powerOn], by decide⟩,
  ⟨State.reset.live, by decide⟩,
  ⟨State.reset, by decide⟩,
  ⟨(State.reset.modPwr fun x => { x with inReset := true, active := [.resetN] }), by decide⟩,
  ⟨5, by decide⟩⟩

theorem witness_FailedPartnersAreSeized :
    (∃ (s : State), s.paired = true ∧ s.live.par.killIn = false ∧ s.live.par.pstate = 4 ∧ s.live.par.partnerFailed = true) ∧
    (∃ (s : State), s.paired = true ∧ s.live.cst.pairInUse ≠ 0) ∧
    (∃ (s : State) (code : Nat) (par : _), s.paired = true ∧ s.live.cst.pairInUse ≠ 0 ∧ s.live.par.killIn = false ∧ s.live.par.pstate = 8 ∧
      s.live.par.code = 7 ∧ claimWordOk code par = true ∧ code ≠ 0 ∧ isReadyCode code = false) ∧
    (∃ (s : State) (code : Nat) (par : _), s.paired = true ∧ s.live.cst.pairInUse ≠ 0 ∧ s.live.par.killIn = false ∧ s.live.par.pstate = 8 ∧
      s.live.par.code = 7 ∧ claimWordOk code par = true ∧ (code = 0 ∨ isReadyCode code = true)) :=
  ⟨⟨(duo.modPar fun x => { x with partnerFailed := true }), by decide⟩,
  ⟨duo, by decide⟩,
  ⟨(duo.modPar fun x => { x with pstate := 8, code := 7 }), 7, false, by decide⟩,
  ⟨(duo.modPar fun x => { x with pstate := 8, code := 7 }), 2, false, by decide⟩⟩

theorem witness_WhatResetLeaves :
    (∃ (d : _), d < 2) ∧
    (∃ (l : _), l < 32) :=
  ⟨⟨1, by decide⟩,
  ⟨31, by decide⟩⟩

/-! Clauses that an opaque constant of Config decides (log entries 7, 8, 20): witnesses under a value of it. -/

/-- PassesAndSlicesRun, a visit that does not fail: the nominal gain is an opaque constant of Config; here it is 1. -/
theorem witness_gain (h : Config.sliceGain = 0x3F800000#32) : ∃ (k : Nat) (zs rs ms q : Int) (s : State), k < 18 ∧ (s.slice k).visiting = true ∧ visitFails zs rs ms q = false := by
  refine ⟨17, 0, 640, 320, 0, (solo.setSlice 17 { visiting := true }), by decide, by decide, ?_⟩
  simp only [visitFails, h]
  decide

/-- A signed command of a code with a body, sequence number 1. -/
def cmdB (code : Nat) (body : List Nat) : Bytes := bs ([0x59, 0x53, 0x43, 0x4D, code, 0, body.length, 0] ++ List.replicate 8 0 ++ [1, 0, 0, 0, 0, 0, 0, 0] ++ body ++ List.replicate 64 0)

/-- The same, as the order under way, on a module whose owner is in force. -/
def order (code : Nat) (body : List Nat) : SecRun := { bytes := cmdB code body, src := .yml, role := .owner, startedAt := 0 }

/-- The module that runs it. -/
def owned (code : Nat) (body : List Nat) : State := State.reset.modSec fun x => { x with
  lifecycle := .provisioned, ownerInForce := true, ownerOpen := true, ownerRecords := [([1], [1])], running := some (order code body) }

/-- Where ECDSA verifies, its signature is good. -/
theorem owned_signed (h : ∀ p m g, Config.ecdsaVerify p m g = true) {code : Nat} {body : List Nat} (hc : cmdCode_ (order code body).bytes = code)
    (h1 : code = 9 ∨ code = 10) : (commandTaken (owned code body)).live.sec.cmdSigned (order code body).bytes = true := by
  have ho : (commandTaken (owned code body)).live.sec.owner? = some ([1], [1]) := rfl
  rcases h1 with rfl | rfl <;> simp [Sec.cmdSigned, hc, ho, h]

/-- SignedCommandsAreExecuted, an accepted TAMPER_ACK: ECDSA is an opaque function of Config; here it verifies. -/
theorem witness_ack (h : ∀ p m g, Config.ecdsaVerify p m g = true) : ∃ (s : State) (r : SecRun) (k : Nat) (t : State), s.live.sec.running = some r ∧
    (commandTaken s).cmdCheck r = 1 ∧ (commandTaken s).cmdEffect r = (k, t) ∧ k = 1 ∧ cmdCode_ r.bytes = 9 := by
  refine ⟨owned 9 [], order 9 [], _, _, rfl, ?_, rfl, by decide, by decide⟩
  simp only [State.cmdCheck, owned_signed h (code := 9) (body := []) (by decide) (by decide)]
  decide

/-- SignedCommandsAreExecuted, an accepted FORCE_CLAIM that ends with another result: the same. -/
theorem witness_claim (h : ∀ p m g, Config.ecdsaVerify p m g = true) : ∃ (s : State) (r : SecRun) (k : Nat) (t : State), s.live.sec.running = some r ∧
    (commandTaken s).cmdCheck r = 1 ∧ (commandTaken s).cmdEffect r = (k, t) ∧ k ≠ 1 ∧ cmdCode_ r.bytes = 10 := by
  refine ⟨owned 10 (List.replicate 48 0), order 10 (List.replicate 48 0), _, _, rfl, ?_, rfl, by decide, by decide⟩
  simp only [State.cmdCheck, owned_signed h (code := 10) (body := List.replicate 48 0) (by decide) (by decide)]
  decide

/-- LoadEnds, an attempt that succeeds: the hash, the signature and the code check are opaque; for a slot that passes them. -/
theorem witness_load (b : Bytes) (x : Container × Judge) : 
   let s := ((State.reset.modPwr fun x => { x with mode := .load }).modCst fun y => { y with flash0 := b })
   (loadBegun s).live.cst.chosen = some 0 →
   attempt ((loadBegun s).modCst fun c => { c with tried0 := true }).loadEnv b = .ok x →
   Loading s ∧ s.live.cst.sfdp ≠ 0 ∧ (s.live.sec.ownerHeld = false ∨ s.live.sec.ackPending = false) ∧ ((loadBegun s).tryCasting 0).2 = some x := by
  intro s hc h
  refine ⟨⟨rfl, rfl⟩, (by show (2 : Nat) ≠ 0; decide), .inl rfl, ?_⟩
  have e : ((loadBegun s).modCst fun c => { c with tried0 := true }).live.cst.flash 0 = b := rfl
  simp only [State.tryCasting, ↓reduceIte, e, h]

/-- LoopsAndLogicRun, a change that is accepted: the same. -/
theorem witness_change (b : Bytes) (x : Container × Judge) :
   let s := { solo with live := { solo.live with cst := { solo.live.cst with flash0 := b, flash1 := b }, lgc := { solo.live.lgc with offered := true } } }
   logicOnly s.loadEnv b b = true → attempt s.loadEnv b = .ok x → s.live.cst.keepsTags x.2.c = true → ChangeOffered s ∧ s.judgeChange = .inr x := by
  intro s hl h hk
  refine ⟨⟨rfl, rfl⟩, ?_⟩
  have e : s.live.cst.flash (1 - s.live.cst.slot) = b := rfl
  have e2 : s.live.cst.flash (s.live.cst.slot) = b := rfl
  have ha : s.isActive = true := by rfl
  have hm : s.live.pwr.mode = .active := rfl
  simp only [State.judgeChange, e, e2, hl, h, hk, ha, hm]
  rfl

/-- UpdatesProceed, a casting that passes its checks: the same. -/
theorem witness_update (b : Bytes) (x : Container × Judge) (hlen : (Config.sha384 b).length = 48) (hseq : u32 b 20 ≠ 0) :
   let l : UpdLock := { src := .yml, role := .owner, kind := 2, version := 1, header := List.replicate 24 0 ++ Config.sha384 b, received := List.replicate (offLen (List.replicate 24 0 ++ Config.sha384 b)) 0 ++ b, stage := 3 }
   let s : State := State.reset.modUpd fun x => { x with lock := some l }
   attempt s.loadEnv b = .ok x → AtStage s l 3 ∧ (s.checkUpdate l).1 = 0 := by
  intro l s h
  refine ⟨⟨rfl, rfl⟩, ?_⟩
  have e : slice l.header 24 48 = Config.sha384 b := by
    simp [l, slice, ← hlen]
  have ec : s.live.cst.seq = 0 := rfl
  have ef : s.live.cst.seqFloor = 0 := rfl
  have ek : ¬ (l.kind = 1) := by show ¬ ((2 : Nat) = 1); decide
  have ep : l.payload = b := by simp [l, UpdLock.payload]
  simp only [State.checkUpdate, e, ec, ef, ek, ep, h]
  simp [hseq]

end Sys2Proof.Tests
end

section
/-! PROOFS. The register transaction of R34 to R40: what its accesses leave when none of them acts at once, that nothing refuses a
served one, and its close with and without room in the staging area. -/

namespace Sys2Proof.Machine

open Sys2Proof.Claims

/-- A write that acts only at a boundary waits for it. -/
theorem waits_of_boundaryOnly {addr : Nat} {v : Word} (h : boundaryOnly addr v = true) : Waits addr v := by
  unfold boundaryOnly at h
  split at h
  next r hr =>
    simp only [Bool.and_eq_true, decide_eq_true_eq, ne_eq] at h
    obtain ⟨⟨⟨⟨⟨h284, h288⟩, hw1c⟩, hrw⟩, himm⟩, hst⟩ := h
    exact ⟨r, hr, h284, h288, hw1c, hrw, himm, hst⟩
  next => cases h

/-- A read leaves the state alone and notes the value of the transaction's bank (R34). -/
theorem State.access_rd (s : State) (t : Txn) (addr : Nat) :
    s.access t (.rd addr) = (s, { t with
      accesses := t.accesses + 1, lastAccess := s.now
      values := t.values ++ [readReg (s.bankOf t.readEpoch) s.live t.src t.role addr] }) := rfl

/-- Reads, and writes that wait, leave the state alone: the reads take their values from one bank, whatever was written between them,
and the writes are kept for the close (R34, R40). -/
theorem State.accessAll_waitsOrReads (s : State) (as : List Access) (h : ∀ a ∈ as, waitsOrReads a = true) (t : Txn)
    (ht : t.lastAccess = s.now) :
    s.accessAll t as = (s, { t with
      accesses := t.accesses + as.length
      values := t.values ++ readsOf (s.bankOf t.readEpoch) s.live t.src t.role as
      writes := t.writes ++ writesOf as }) := by
  induction as generalizing t with
  | nil => simp [State.accessAll, readsOf, writesOf]
  | cons a as ih =>
    have hcons : s.accessAll t (a :: as) = (s.access t a).1.accessAll (s.access t a).2 as := rfl
    have hrest : ∀ x ∈ as, waitsOrReads x = true := fun x hx => h x (List.mem_cons_of_mem a hx)
    rw [hcons]
    cases a with
    | rd addr =>
      rw [State.access_rd, ih hrest _ rfl]
      simp [readsOf, writesOf, ht, Nat.add_assoc, Nat.add_comm 1]
    | wr addr v =>
      have hw : Waits addr v := waits_of_boundaryOnly (h (.wr addr v) List.mem_cons_self)
      rw [State.access_waits s t addr v hw, ih hrest _ rfl]
      simp [readsOf, writesOf, ht, Nat.add_assoc, Nat.add_comm 1]

/-- While a later bank is published, the epoch before it is read from the bank kept beside it (R34, R35). -/
theorem State.bankOf_prev (s : State) {q b : Bank} {e : Nat} (hq : s.pub = some q) (hb : s.prev = some b) (he : q.epoch ≠ e) :
    s.bankOf e = b.core := by
  simp [State.bankOf, hq, hb, he]

/-- The rules of a staged write do not depend on the number of the next transaction. -/
theorem writeOk_numbered (s : State) : (numbered s).writeOk = s.writeOk := rfl

/-- A close takes its transaction off the open ones; where that one is not among them, nothing goes. -/
theorem State.drop_fresh (s : State) (t : Txn) (hx : ∀ x ∈ s.txns, x.id ≠ t.id) :
    ({ s with txns := s.txns.filter fun x => x.id ≠ t.id } : State) = s := by
  rw [List.filter_eq_self.mpr fun x h => decide_eq_true (hx x h)]

/-- A close that asks for no reset and finds no room stages nothing and counts the refusal (R38). -/
theorem State.closeTxn_full (s : State) (t : Txn) (hm : t.moduleReset = 0) (hb : t.blockBits = 0) (hx : ∀ x ∈ s.txns, x.id ≠ t.id)
    (hne : t.writes ≠ []) (hfull : stagingMax < externalStaged s.staged + t.writes.length) :
    s.closeTxn t = (s.modEpc fun e => { e with stgFull := sat32 e.stgFull }).answer t .full none := by
  cases t
  dsimp only at hm hb
  subst hm hb
  unfold State.closeTxn
  rw [State.drop_fresh s _ hx]
  exact if_pos (And.intro hfull hne)

/-- A close with nothing to write and nothing dropped only answers (R44). -/
theorem State.closeTxn_reads (s : State) (t : Txn) (hm : t.moduleReset = 0) (hb : t.blockBits = 0) (hx : ∀ x ∈ s.txns, x.id ≠ t.id)
    (hw : t.writes = []) (h0 : t.dropped = 0) : s.closeTxn t = s.answer t .ok none := by
  cases t
  dsimp only at hm hb hw h0
  subst hm hb hw h0
  unfold State.closeTxn
  rw [State.drop_fresh s _ hx]
  simp [State.requestResets]

/-- An answer changes no register of EPC_. -/
@[simp] theorem State.answer_epc (s : State) (t : Txn) (o : TxnOutcome) (commit : Option Nat) :
    (s.answer t o commit).live.epc = s.live.epc := by
  unfold State.answer
  cases t.reply <;> rfl

/-- An answer stages nothing. -/
@[simp] theorem State.answer_staged (s : State) (t : Txn) (o : TxnOutcome) (commit : Option Nat) :
    (s.answer t o commit).staged = s.staged := by
  unfold State.answer
  cases t.reply <;> rfl

end Sys2Proof.Machine

namespace Sys2Proof.Claims

open Sys2Proof Sys2Proof.Machine

section Served

variable {s : State} {src : Source} {role : Role} {n : Nat} {reply : ReplyTo} {as : List Access} {b : Bank}

/-- None of the checks of R451 ends a served transaction. -/
theorem Served.not_refused (h : Served s src role as b) : (numbered s).refuses src role as = none := by
  have hlen : ¬ (1024 < as.length ∧ src ≠ .dp) := fun hl => absurd h.short (Nat.not_le.mpr hl.1)
  have hden : ¬ ((as.any fun a => !s.live.permits src role a) ∨ (src = .dbg ∧ s.live.sec.locked)) := by
    rintro (hany | ⟨hdbg, hlock⟩)
    · obtain ⟨a, ha, hno⟩ := List.any_eq_true.mp hany
      simp [h.allowed a ha] at hno
    · simp [h.unlocked hdbg] at hlock
  have hmir : ¬ (as.any mirroredWrite ∧ !s.isActive) := by
    rintro ⟨hany, hoff⟩
    rcases h.active with hact | hloc
    · simp [hact] at hoff
    · obtain ⟨a, ha, hyes⟩ := List.any_eq_true.mp hany
      simp [hloc a ha] at hyes
  unfold State.refuses
  rw [if_neg hlen]
  exact (if_neg hden).trans (if_neg hmir)

/-- A served transaction reads the bank published at its acceptance (R34). -/
theorem Served.readEpoch (h : Served s src role as b) : (accessed s src role n reply as b).readEpoch = b.epoch := by
  simp [accessed, emptyTxn, h.published]

theorem Served.bankOf (h : Served s src role as b) :
    (numbered s).bankOf (accessed s src role n reply as b).readEpoch = b.core := by
  rw [h.readEpoch]
  exact State.bankOf_pub (numbered s) b h.published

/-- A new transaction has no number in common with an open one. -/
theorem Served.fresh (h : Served s src role as b) : ∀ x ∈ (numbered s).txns, x.id ≠ (accessed s src role n reply as b).id :=
  fun x hx => Nat.ne_of_lt (h.inv.given x hx)

/-- A served transaction that lasts no time closes with the values of the published bank and all its writes. -/
theorem Served.transact (h : Served s src role as b) :
    s.transact src role n 0 reply as = (numbered s).closeTxn (accessed s src role n reply as b) := by
  have hacc : (numbered s).accessAll (emptyTxn s src role n reply) as = (numbered s, accessed s src role n reply as b) := by
    rw [State.accessAll_waitsOrReads _ as h.waits _ rfl,
      show (numbered s).bankOf (emptyTxn s src role n reply).readEpoch = b.core from h.bankOf (n := n) (reply := reply)]
    simp [accessed, emptyTxn, numbered]
  unfold State.transact
  dsimp only
  rw [if_neg (by simp [h.published]), show ({ s with nextTxn := s.nextTxn + 1 } : State).refuses src role as = none from h.not_refused]
  exact congrArg (fun r : State × Txn => r.1.closeTxn r.2) hacc

/-- Where its writes keep their rules and find room, they are all staged, under the epoch that it read, for the next boundary. -/
theorem Served.transact_staged (h : Served s src role as b) (hroom : externalStaged s.staged + (writesOf as).length ≤ 2048)
    (hok : ∀ p ∈ writesOf as, s.writeOk b.core src (writesOf as) p.1 p.2 = true) :
    s.transact src role n 0 reply as = ({ numbered s with staged := s.staged ++ (writesOf as).map fun (p : Nat × Word) =>
      ({ txn := s.nextTxn, src := src, role := role, addr := p.1, val := p.2, readEpoch := b.epoch,
          closedAt := s.now, session := n } : Staged) } : State).answer
        (accessed s src role n reply as b) .ok (if writesOf as = [] then none else some (s.live.epc.epoch + 1)) := by
  rw [h.transact]
  by_cases hne : writesOf as = []
  · rw [State.closeTxn_reads _ _ rfl rfl h.fresh hne rfl]
    simp [hne, numbered]
  · have hrules : ∀ p ∈ (accessed s src role n reply as b).writes, (numbered s).writeOk
        ((numbered s).bankOf (accessed s src role n reply as b).readEpoch) src (writesOf as) p.1 p.2 = true := by
      rw [h.bankOf, writeOk_numbered]
      exact hok
    rw [State.closeTxn_stages _ _ rfl rfl h.fresh hroom hrules hne rfl, if_neg hne, h.readEpoch]
    rfl

end Served

/-- Settles O55: the accesses of a served transaction leave the state alone, so that every read finds the bank of its acceptance, and
the close stages all its writes at once. -/
theorem transactionsReadOneEpoch : Obligations.TransactionsReadOneEpoch := by
  refine ⟨fun s src role n reply as b h hroom hok => h.transact_staged hroom hok, ?_, ?_⟩
  · intro s t a b hp he
    rw [State.access_rd, he, State.bankOf_pub s b hp]
  · intro s t a b q hq hb hne
    rw [State.access_rd, State.bankOf_prev s hq hb hne]

/-- Settles O56: the room is asked for all the writes of the transaction before any of them is staged; past it, the close only counts
the refusal. -/
theorem capacityIsAllOrNothing : Obligations.CapacityIsAllOrNothing := by
  refine ⟨?_, ?_, ?_, ?_⟩
  · intro s src role n reply as b h hne hfull
    rw [h.transact]
    exact State.closeTxn_full _ _ rfl rfl h.fresh hne hfull
  · intro s src role n reply as b h hroom hok
    rw [h.transact_staged hroom hok]
    simp [numbered]
  · intro l x hm hs
    have hx : externalStaged [x] = 1 := by
      rcases hs with hs | hs | hs <;> simp [externalStaged, hm, hs]
    rw [externalStaged_append, hx]
  · intro l x hx
    have h0 : externalStaged [x] = 0 := by
      rcases hx with hm | hs
      · simp [externalStaged, hm]
      · simp [externalStaged, hs]
    rw [externalStaged_append, h0, Nat.add_zero]

end Sys2Proof.Claims
end

section
/-! PROOFS. The logic cycle of R223 and R227: what its phases leave of the engine's counts, and what its end does to them. -/

namespace Sys2Proof.Machine

open Sys2Proof

/-- What the end of a cycle starts from and its phases leave alone (R227, R228): HALTED, OVERRUN_SEEN, LGC_CYCLES, LGC_OVERRUN. -/
def Lgc.counts (x : Lgc) : Bool × Bool × Nat × Nat := (x.halted, x.overrunSeen, x.cycles, x.overrun)

/-- The counts of the engine with the instant and the casting, which give the end of a cycle and its CYCLE_MAX_US. -/
def State.cycleFrame (s : State) : Nat × Cst × (Bool × Bool × Nat × Nat) := (s.now, s.live.cst, s.live.lgc.counts)

/-- What every step of a fold keeps, the fold keeps. -/
theorem foldl_keeps {σ α β : Type} (p : σ → β) (f : σ → α → σ) (h : ∀ s x, p (f s x) = p s) (l : List α) (s : σ) :
    p (l.foldl f s) = p s := by
  rw [← List.foldl_hom p (g₁ := f) (g₂ := fun b _ => b) (fun s x => (h s x).symm), List.foldl_fixed]

theorem Lgc.foldl_counts {α : Type} (f : Lgc → α → Lgc) (h : ∀ x a, (f x a).counts = x.counts) (l : List α) (x : Lgc) :
    (l.foldl f x).counts = x.counts := foldl_keeps Lgc.counts f h l x

theorem State.foldl_cycleFrame {α : Type} (f : State → α → State) (h : ∀ s a, (f s a).cycleFrame = s.cycleFrame) (l : List α)
    (s : State) : (l.foldl f s).cycleFrame = s.cycleFrame := foldl_keeps State.cycleFrame f h l s

/-! Tags, forces and the program's operations. -/

@[simp] theorem Lgc.setTag_counts (x : Lgc) (c : Cst) (id : Nat) (w : Word) : (x.setTag c id w).counts = x.counts := by
  unfold Lgc.setTag
  split <;> rfl

/-- Tags set one after the other, from any list of identifiers and values. -/
theorem Lgc.foldl_setTag_counts {α : Type} (c : Cst) (id : α → Nat) (w : α → Word) (l : List α) (x : Lgc) :
    (l.foldl (fun x a => x.setTag c (id a) (w a)) x).counts = x.counts :=
  Lgc.foldl_counts _ (fun x a => x.setTag_counts c (id a) (w a)) l x

@[simp] theorem Lgc.applyForces_counts (x : Lgc) (c : Cst) : (x.applyForces c).counts = x.counts :=
  Lgc.foldl_setTag_counts c Force.tag Force.val x.forces x

@[simp] theorem Lgc.progSet_counts (x : Lgc) (c : Cst) (slot : Nat) (f : TagVal → TagVal) : (x.progSet c slot f).counts = x.counts := by
  unfold Lgc.progSet
  split <;> rfl

@[simp] theorem Lgc.noteFault_counts (x : Lgc) (bad : Bool) (net code : Nat) : (x.noteFault bad net code).counts = x.counts := by
  unfold Lgc.noteFault
  split <;> rfl

/-- An operation of the program writes tags and notes faults, no more. -/
@[simp] theorem Lgc.runOp_counts (c : Cst) (now : Nat) (x : Lgc) (op : LogicOp) : (x.runOp c now op).counts = x.counts := by
  cases op with
  | quotient net slot d v => simp only [Lgc.runOp]; split <;> simp
  | arrayWrite net n i slot w => simp only [Lgc.runOp]; split <;> simp
  | _ => simp [Lgc.runOp]

/-! The input phase. -/

@[simp] theorem Lgc.takePublished_counts (x : Lgc) (c : Cst) (pouring : Bool) : (x.takePublished c pouring).counts = x.counts := by
  unfold Lgc.takePublished
  extract_lets rolled hosts
  calc
    _ = hosts.counts := Lgc.foldl_setTag_counts c Prod.fst Prod.snd hosts.planOld { hosts with planOld := [] }
    _ = rolled.counts := Lgc.foldl_setTag_counts c Prod.fst Prod.snd rolled.hostOld { rolled with hostOld := [] }
    _ = x.counts := by unfold rolled; split <;> rfl

@[simp] theorem Lgc.takeAdopted_counts (x : Lgc) : x.takeAdopted.counts = x.counts := by
  unfold Lgc.takeAdopted
  split <;> rfl

theorem State.modLgc_cycleFrame (s : State) (f : Lgc → Lgc) (h : ∀ x, (f x).counts = x.counts) :
    (s.modLgc f).cycleFrame = s.cycleFrame := by
  simp [State.cycleFrame, h, State.modLgc]

@[simp] theorem State.takeForce_cycleFrame (s : State) : s.takeForce.cycleFrame = s.cycleFrame :=
  State.modLgc_cycleFrame s _ fun _ => rfl

/-- The input phase sets tags and takes force commands. -/
@[simp] theorem State.inputPhase_cycleFrame (s : State) (latch : Bool) : (s.inputPhase latch).cycleFrame = s.cycleFrame := by
  unfold State.inputPhase
  extract_lets c k s1 s2
  calc
    _ = s2.cycleFrame := State.modLgc_cycleFrame s2 _ fun x => ?_
    _ = s1.cycleFrame := State.takeForce_cycleFrame s1
    _ = s.cycleFrame := State.modLgc_cycleFrame s _ fun x => ?_
  · extract_lets latched can y
    refine (y.applyForces_counts c).trans ?_
    unfold y
    split
    · calc
        _ = can.counts := Lgc.foldl_setTag_counts c Prod.fst Prod.snd can.loopTags can
        _ = latched.counts := Lgc.foldl_setTag_counts c Prod.fst Prod.snd k.canInputs latched
        _ = x.counts := Lgc.foldl_counts _ (fun x r => by split <;> simp) c.ioRecs x
    · rfl
  · extract_lets taken ended
    calc
      _ = ended.counts := Lgc.foldl_setTag_counts c id (fun _ => 1) ended.pulseTags
        { ended with pulseTags := [], pulsed := ended.pulseTags }
      _ = taken.counts := Lgc.foldl_setTag_counts c id (fun _ => 0) taken.pulsed { taken with pulsed := [] }
      _ = x.takeAdopted.counts := Lgc.takePublished_counts _ c _
      _ = x.counts := x.takeAdopted_counts

/-! The output phase. -/

@[simp] theorem State.setChan_cycleFrame (s : State) (n : Nat) (x : Chan) : (s.setChan n x).cycleFrame = s.cycleFrame := rfl

@[simp] theorem State.applyOut_cycleFrame (s : State) (n : Nat) (u : Word) : (s.applyOut n u).cycleFrame = s.cycleFrame := by
  unfold State.applyOut
  split <;> rfl

@[simp] theorem State.driveOut_cycleFrame (s : State) (n : Nat) : (s.driveOut n).cycleFrame = s.cycleFrame := by
  simp only [State.driveOut]
  (repeat' split) <;> simp

@[simp] theorem State.writeOut_cycleFrame (s : State) (n : Nat) (v : Word) : (s.writeOut n v).cycleFrame = s.cycleFrame := by
  simp [State.writeOut]

@[simp] theorem State.haltOutput_cycleFrame (s : State) (r : Rec) : (s.haltOutput r).cycleFrame = s.cycleFrame := by
  unfold State.haltOutput
  split <;> simp

/-- The output phase sets the tags of shed consumers and writes output channels. -/
@[simp] theorem State.outputPhase_cycleFrame (s : State) : s.outputPhase.cycleFrame = s.cycleFrame := by
  unfold State.outputPhase
  extract_lets c s1
  calc
    _ = s1.cycleFrame := State.foldl_cycleFrame _ (fun s r => ?_) _ _
    _ = s.cycleFrame := State.modLgc_cycleFrame s _ fun x => Lgc.foldl_counts _ (fun x p => ?_) _ _
  · dsimp only
    (repeat' split) <;> simp
  · split <;> simp

@[simp] theorem State.watchGrid_lgc (s : State) : s.watchGrid.live.lgc = s.live.lgc := by
  unfold State.watchGrid
  split <;> rfl

/-! The whole cycle. -/

/-- The state at the end of the output phase of a cycle in which the program performs `ops`. -/
def State.cycleWork (s : State) (ops : List LogicOp) : State :=
  let s1 := (s.modLgc fun x => x.tickClock s.now).inputPhase true
  (s1.modLgc fun x => ops.foldl (Lgc.runOp s1.live.cst (s1.live.lgc.clock / 1000)) x).outputPhase

theorem State.cycleWork_cycleFrame (s : State) (ops : List LogicOp) : (s.cycleWork ops).cycleFrame = s.cycleFrame := by
  unfold State.cycleWork
  extract_lets s1
  calc
    _ = _ := State.outputPhase_cycleFrame _
    _ = s1.cycleFrame := State.modLgc_cycleFrame s1 _ fun x => Lgc.foldl_counts _ (Lgc.runOp_counts _ _) ops x
    _ = _ := State.inputPhase_cycleFrame _ true
    _ = s.cycleFrame := State.modLgc_cycleFrame s _ fun _ => rfl

/-- The end of a cycle of `us` µs that started at `now`; `late` where it took longer than CYCLE_MAX_US (R223, R227). -/
def Lgc.closeCycle (x : Lgc) (now us : Nat) (late : Bool) : Lgc := { x with
  lastEnd := some (now + us * 1000), lastUs := min us 65535, maxUs := max x.maxUs (min us 65535), cycles := x.cycles + 1
  overrun := if late then sat32 x.overrun else x.overrun, overrunSeen := x.overrunSeen || late }

/-- The state after the whole cycle. -/
def State.cycleClosed (s : State) (us : Nat) (ops : List LogicOp) : State :=
  ((s.cycleWork ops).modLgc fun x =>
    x.closeCycle (s.cycleWork ops).now us (decide ((s.cycleWork ops).live.cst.cycleMaxUs < us))).watchGrid

/-- Of the counts, the cycle's end alone acts on them: by the casting's limit, from those before the cycle. -/
theorem State.cycleClosed_lgc (s : State) (us : Nat) (ops : List LogicOp) :
    let late := decide (s.live.cst.cycleMaxUs < us)
    (s.cycleClosed us ops).live.lgc.lastEnd = some (s.now + us * 1000)
    ∧ (s.cycleClosed us ops).live.lgc.counts = (s.live.lgc.halted, s.live.lgc.overrunSeen || late, s.live.lgc.cycles + 1,
      if late then sat32 s.live.lgc.overrun else s.live.lgc.overrun) := by
  have hframe := s.cycleWork_cycleFrame ops
  simp only [State.cycleFrame, Lgc.counts, Prod.mk.injEq] at hframe
  obtain ⟨hnow, hcst, hhalted, hseen, hcycles, hoverrun⟩ := hframe
  simp [State.cycleClosed, Lgc.closeCycle, Lgc.counts, hnow, hcst, hhalted, hseen, hcycles, hoverrun]

end Sys2Proof.Machine

namespace Sys2Proof.Claims

open Sys2Proof Sys2Proof.Machine

/-- A cycle that runs goes through its phases and closes. -/
theorem CycleRuns.exec_logicCycle {s : State} {us : Nat} (h : CycleRuns s us) (ops : List LogicOp) :
    exec (.logicCycle us ops) s = .next (s.cycleClosed us ops) := by
  obtain ⟨hruns, hdue, hus⟩ := h
  have hgo : ¬ (!s.logicRuns ∨ !s.cycleDue ∨ 4 * s.live.cst.cycleMaxUs ≤ us) := by simp [hruns, hdue, hus]
  exact if_neg hgo

/-- Settles O57: the phases of a cycle leave the counts alone, and its end adds the overrun where the cycle was late. -/
theorem lateCyclesAreCounted : Obligations.LateCyclesAreCounted := by
  constructor
  · intro us ops s hruns hlate
    obtain ⟨hend, hcounts⟩ := s.cycleClosed_lgc us ops
    simp only [Lgc.counts, Prod.mk.injEq, hlate, decide_true, Bool.or_true, if_true] at hcounts
    obtain ⟨hhalted, hseen, hcycles, hoverrun⟩ := hcounts
    exact ⟨_, hruns.exec_logicCycle ops, hoverrun, hseen, hcycles, hhalted, hend⟩
  · intro us ops s hruns hintime
    obtain ⟨-, hcounts⟩ := s.cycleClosed_lgc us ops
    simp only [Lgc.counts, Prod.mk.injEq, Nat.not_lt.mpr hintime, decide_false, Bool.or_false, Bool.false_eq_true,
      if_false] at hcounts
    obtain ⟨-, hseen, hcycles, hoverrun⟩ := hcounts
    exact ⟨_, hruns.exec_logicCycle ops, hoverrun, hseen, hcycles⟩

end Sys2Proof.Claims
end

section
/-! PROOFS. The takeover of R347: what the claim's changes and the mode's leave of the pair block, and the pair state TAKING. -/

namespace Sys2Proof.Machine

open Sys2Proof

/-- What outputs, the journal and the update lock leave alone while the claim changes hands: the pair block and the mode. -/
def State.pairFrame (s : State) : Par × Mode := (s.live.par, s.live.pwr.mode)

theorem State.foldl_pairFrame {α : Type} (f : State → α → State) (h : ∀ s a, (f s a).pairFrame = s.pairFrame) (l : List α)
    (s : State) : (l.foldl f s).pairFrame = s.pairFrame := foldl_keeps State.pairFrame f h l s

/-! Hand, calibration, the window and the update lock, which a change of the mode may end. -/

@[simp] theorem State.setChan_pairFrame (s : State) (n : Nat) (x : Chan) : (s.setChan n x).pairFrame = s.pairFrame := rfl

@[simp] theorem State.applyOut_pairFrame (s : State) (n : Nat) (u : Word) : (s.applyOut n u).pairFrame = s.pairFrame := by
  unfold State.applyOut
  split <;> rfl

@[simp] theorem State.driveOut_pairFrame (s : State) (n : Nat) : (s.driveOut n).pairFrame = s.pairFrame := by
  simp only [State.driveOut]
  (repeat' split) <;> simp

@[simp] theorem State.setHand_pairFrame (s : State) (n : Nat) (on : Bool) : (s.setHand n on).pairFrame = s.pairFrame := by
  simp [State.setHand]

@[simp] theorem State.handEnds_pairFrame (s : State) : s.handEnds.pairFrame = s.pairFrame := by
  unfold State.handEnds
  refine (State.foldl_pairFrame _ (fun s p => ?_) _ _).trans rfl
  split <;> simp

@[simp] theorem State.calEnds_pairFrame (s : State) : s.calEnds.pairFrame = s.pairFrame := rfl

@[simp] theorem State.abortFlight_pairFrame (s : State) : s.abortFlight.pairFrame = s.pairFrame := by
  unfold State.abortFlight
  split <;> rfl

@[simp] theorem State.abandonWindow_pairFrame (s : State) : s.abandonWindow.pairFrame = s.pairFrame := by
  simp only [State.abandonWindow]
  split
  · exact s.abortFlight_pairFrame
  · rfl

@[simp] theorem State.checkInjection_pairFrame (s : State) : s.checkInjection.pairFrame = s.pairFrame := by
  unfold State.checkInjection
  (repeat' split) <;> rfl

@[simp] theorem State.endUpdate_pairFrame (s : State) (result : Nat) : (s.endUpdate result).pairFrame = s.pairFrame := by
  unfold State.endUpdate
  split
  · rfl
  · simp [State.pairFrame, State.updReply, State.journal]

@[simp] theorem State.holdUpdate_pairFrame (s : State) (why : Nat) : (s.holdUpdate why).pairFrame = s.pairFrame := by
  unfold State.holdUpdate
  split
  · rfl
  · split
    · exact s.endUpdate_pairFrame 16
    · rfl

theorem State.enterMode_pairFrame (s : State) (m : Mode) : (s.enterMode m).pairFrame = (s.live.par, m) := by
  unfold State.enterMode
  split
  next h => rw [← h, State.pairFrame]
  next => simp [State.pairFrame, State.journal]

/-- Of the pair block and the mode, a mode switch changes the mode alone. -/
theorem State.switchMode_pairFrame (s : State) (m : Mode) : (s.switchMode m).pairFrame = (s.live.par, m) := by
  simp only [State.switchMode]
  split
  next h => rw [← h]; rfl
  next =>
    rw [State.checkInjection_pairFrame, ← s.enterMode_pairFrame m]
    (repeat' split) <;> simp

@[simp] theorem State.checkInjection_par (s : State) : s.checkInjection.live.par = s.live.par :=
  congrArg Prod.fst s.checkInjection_pairFrame

/-! The claim (R326 to R330). -/

/-- Settling the gate touches GATE and what decides it, no more. -/
theorem Par.settleGate_keeps {α : Type} (f : Par → α)
    (h : ∀ (p : Par) g c k, f { p with gate := g, compareSince := c, keepGate := k } = f p) (p : Par) (now : Nat) :
    f (p.settleGate now) = f p := by
  unfold Par.settleGate
  (repeat' split) <;> exact h p _ _ _

@[simp] theorem Par.settleGate_code (p : Par) (now : Nat) : (p.settleGate now).code = p.code :=
  Par.settleGate_keeps Par.code (fun _ _ _ _ => rfl) p now

@[simp] theorem Par.settleGate_pcode (p : Par) (now : Nat) : (p.settleGate now).pcode = p.pcode :=
  Par.settleGate_keeps Par.pcode (fun _ _ _ _ => rfl) p now

@[simp] theorem Par.settleGate_pstate (p : Par) (now : Nat) : (p.settleGate now).pstate = p.pstate :=
  Par.settleGate_keeps Par.pstate (fun _ _ _ _ => rfl) p now

@[simp] theorem Par.settleGate_killIn (p : Par) (now : Nat) : (p.settleGate now).killIn = p.killIn :=
  Par.settleGate_keeps Par.killIn (fun _ _ _ _ => rfl) p now

@[simp] theorem Par.settleGate_killOut (p : Par) (now : Nat) : (p.settleGate now).killOut = p.killOut :=
  Par.settleGate_keeps Par.killOut (fun _ _ _ _ => rfl) p now

@[simp] theorem Par.settleGate_gen (p : Par) (now : Nat) : (p.settleGate now).gen = p.gen :=
  Par.settleGate_keeps Par.gen (fun _ _ _ _ => rfl) p now

/-- Under SEIZE and ACTIVE_x a change of the own code moves the gate alone: KILL_OUT stays as it is (R330). -/
theorem State.setClaim_par_of_claims (s : State) {code : Nat} (h : (isActiveCode code || code = 7) = true) :
    (s.setClaim code).live.par = Par.settleGate { s.live.par with code := code, keepGate := false } s.now := by
  simp only [State.setClaim, State.checkInjection_par, h, if_true, State.modPar_par]

theorem isActiveCode_activeCode (k : Core) : isActiveCode k.activeCode = true := by
  unfold Core.activeCode
  split <;> rfl

theorem State.setClaim_activeCode_par (s : State) :
    (s.setClaim s.live.activeCode).live.par = Par.settleGate { s.live.par with code := s.live.activeCode, keepGate := false } s.now :=
  s.setClaim_par_of_claims (by rw [isActiveCode_activeCode, Bool.true_or])

/-- Asserting the kill line touches KILL_OUT and its instant, no more of the pair block. -/
theorem State.assertKill_par_keeps {α : Type} (f : Par → α) (h : ∀ (p : Par) k t, f { p with killOut := k, killOutAt := t } = f p)
    (s : State) : f s.assertKill.live.par = f s.live.par := by
  unfold State.assertKill
  split
  · rfl
  · exact h s.live.par _ _

@[simp] theorem State.assertKill_pcode (s : State) : s.assertKill.live.par.pcode = s.live.par.pcode :=
  s.assertKill_par_keeps Par.pcode fun _ _ _ => rfl

@[simp] theorem State.assertKill_pstate (s : State) : s.assertKill.live.par.pstate = s.live.par.pstate :=
  s.assertKill_par_keeps Par.pstate fun _ _ _ => rfl

@[simp] theorem State.assertKill_gen (s : State) : s.assertKill.live.par.gen = s.live.par.gen :=
  s.assertKill_par_keeps Par.gen fun _ _ _ => rfl

/-- In a pair the kill line is out once it is asserted (R330). -/
theorem State.assertKill_killOut (s : State) (h : s.live.cst.pairInUse ≠ 0) : s.assertKill.live.par.killOut = true := by
  unfold State.assertKill
  split
  next hk => exact hk.resolve_right h
  next => rfl

/-! TAKING (R347). -/

/-- The pair block of a standby that has taken over, up to the kill line and the code. -/
def Par.taking (p : Par) (cause : Nat) : Par := { p with
  pstate := 8, hoLeft := 2, planned := false, cause := cause, handover := none, aTakeover := true
  takeovers := satAdd 16 p.takeovers 1, stale := false, barredWhy := 0, divTake := false
  takenMode := p.partner.mode, takenSafe := p.partner.nclaim % 8 = 3 }

/-- The state at the instant at which the kill line is asserted, before the code changes. -/
def State.takingKill (s : State) (cause : Nat) : State := (s.modPar fun p => (p.taking cause).raise).assertKill

/-- Entry into TAKING after a failure: what the kill line leaves, with the code SEIZE, in HANDOVER. -/
theorem State.enterTaking_seize_pairFrame (s : State) (cause : Nat) : (s.enterTaking 7 cause false).pairFrame
    = (Par.settleGate { (s.takingKill cause).live.par with code := 7, keepGate := false } (s.takingKill cause).now, .handover) := by
  rw [← (s.takingKill cause).setClaim_par_of_claims (code := 7) rfl]
  simp only [State.enterTaking, State.holdUpdate_pairFrame, State.switchMode_pairFrame]
  rfl

theorem State.enterTaking_seize_par (s : State) (cause : Nat) : (s.enterTaking 7 cause false).live.par
    = Par.settleGate { (s.takingKill cause).live.par with code := 7, keepGate := false } (s.takingKill cause).now :=
  congrArg Prod.fst (s.enterTaking_seize_pairFrame cause)

theorem State.enterTaking_seize_mode (s : State) (cause : Nat) : (s.enterTaking 7 cause false).live.pwr.mode = .handover :=
  congrArg Prod.snd (s.enterTaking_seize_pairFrame cause)

/-- SEIZE gives way in the same instant where the partner's code lets it (R347). -/
theorem State.enterTaking_seize_yieldSeize (s : State) (cause : Nat) : (s.enterTaking 7 cause false).yieldSeize =
    if s.live.par.pcode = 0 ∨ isReadyCode s.live.par.pcode = true then
      (s.enterTaking 7 cause false).setClaim (s.enterTaking 7 cause false).live.activeCode
    else s.enterTaking 7 cause false := by
  have hcode : (s.enterTaking 7 cause false).live.par.code = 7 := by simp [State.enterTaking_seize_par]
  have hpcode : (s.enterTaking 7 cause false).live.par.pcode = s.live.par.pcode := by
    simp [State.enterTaking_seize_par, State.takingKill, Par.raise, Par.taking]
  simp only [State.yieldSeize, hcode, hpcode, true_and]

/-- The row of R340 for a READY standby whose partner is declared failed. -/
theorem State.settlePair_of_partnerFailed (s : State) (hpair : s.paired = true) (hkill : s.live.par.killIn = false)
    (hready : s.live.par.pstate = 4) (hfailed : s.live.par.partnerFailed = true) :
    s.settlePair = (s.enterTaking 7 3 false).yieldSeize := by
  simp [State.settlePair, hpair, hkill, hready, hfailed]

/-- No row of R340 but that of KILL_IN leads out of TAKING. -/
theorem State.settlePair_of_taking (s : State) (hkill : s.live.par.killIn = false) (htaking : s.live.par.pstate = 8) :
    s.settlePair = s := by
  simp [State.settlePair, hkill, htaking]

/-! The partner's code (R327). -/

/-- The check of the partner's code against its frames notes faults, no more. -/
theorem State.compareCodes_row (s : State) : s.compareCodes.live.par.code = s.live.par.code
    ∧ s.compareCodes.live.par.pstate = s.live.par.pstate ∧ s.compareCodes.live.par.killIn = s.live.par.killIn := by
  simp only [State.compareCodes]
  (repeat' split) <;> exact ⟨rfl, rfl, rfl⟩

end Sys2Proof.Machine

namespace Sys2Proof.Claims

open Sys2Proof Sys2Proof.Machine

/-- The partner's code leaves the own code and pair state alone; it moves the gate. -/
theorem partnerCode_row (s : State) (code : Nat) : (partnerCode s code).live.par.code = s.live.par.code
    ∧ (partnerCode s code).live.par.pstate = s.live.par.pstate ∧ (partnerCode s code).live.par.killIn = s.live.par.killIn := by
  simp [partnerCode, State.compareCodes_row]

/-- A module in TAKING, not killed, that drives SEIZE. -/
structure Seizes (s : State) : Prop where
  killIn : s.live.par.killIn = false
  pstate : s.live.par.pstate = 8
  code : s.live.par.code = 7

theorem Seizes.partnerCode {s : State} (h : Seizes s) (code : Nat) : Seizes (partnerCode s code) := by
  obtain ⟨hcode, hpstate, hkill⟩ := partnerCode_row s code
  exact ⟨hkill.trans h.killIn, hpstate.trans h.pstate, hcode.trans h.code⟩

/-- A valid code of the partner under which its claim does not fall is taken; SEIZE may give way to it, and the pair settles (R327). -/
theorem exec_partnerCodeChange_of_not_falls {s : State} {code : Nat} {par : Bool} (hreads : ReadsClaims s)
    (hok : claimWordOk code par = true) (hfalls : ¬ ClaimFalls s code) :
    exec (.partnerCodeChange code par) s = .next (seizeGivesWay (partnerCode s code) code).settlePair := by
  have hpair : ¬ (s.live.epc.casting = true ∧ s.live.cst.pairInUse = 0) := by simpa [imp_iff_not_or] using hreads
  have hfalls' : ¬ ((seizeGivesWay (partnerCode s code) code).paired = true ∧ (partnerCode s code).live.par.pstate = 4
      ∧ code = 0 ∧ (!(partnerCode s code).live.par.partnerFailed) = true) := by
    rwa [Bool.not_eq_true']
  change execPartnerCodeChange code par s = _
  unfold execPartnerCodeChange
  rw [if_neg hpair, if_neg (by simp [hok])]
  exact congrArg (fun t : State => Host.Outcome.next t.settlePair) (if_neg hfalls')

/-- In TAKING the partner's code decides over SEIZE alone: the module stays in TAKING. -/
theorem Seizes.exec_partnerCodeChange {s : State} (h : Seizes s) {code : Nat} {par : Bool} (hpair : s.live.cst.pairInUse ≠ 0)
    (hok : claimWordOk code par = true) :
    exec (.partnerCodeChange code par) s = .next (seizeGivesWay (Claims.partnerCode s code) code) := by
  have hp := h.partnerCode code
  have hfalls : ¬ ClaimFalls s code := fun ⟨_, hready, _⟩ => absurd (hp.pstate.symm.trans hready) (by decide)
  rw [exec_partnerCodeChange_of_not_falls (.inr hpair) hok hfalls]
  congr 1
  unfold seizeGivesWay
  split
  · exact State.settlePair_of_taking _ (by simp [State.setClaim_activeCode_par, hp.killIn])
      (by simp [State.setClaim_activeCode_par, hp.pstate])
  · exact State.settlePair_of_taking _ hp.killIn hp.pstate

/-- Settles O59: the failed partner's row of the pair states is the entry into TAKING, which raises the generation, asserts the kill
line and then drives SEIZE; in TAKING only the partner's code ends SEIZE. -/
theorem failedPartnersAreSeized : Obligations.FailedPartnersAreSeized := by
  refine ⟨?_, ?_, ?_, ?_⟩
  · intro s hpair hkill hready hfailed
    rw [s.settlePair_of_partnerFailed hpair hkill hready hfailed, s.enterTaking_seize_yieldSeize]
  · intro s _ hpair
    have hkill : (s.takingKill 3).live.par.killOut = true := State.assertKill_killOut _ hpair
    refine ⟨?_, ?_, ?_, ?_, s.enterTaking_seize_mode 3⟩ <;> rw [s.enterTaking_seize_par]
    · simp [State.takingKill, Par.raise, Par.taking]
    · simp
    · simp [hkill]
    · simp [State.takingKill, Par.raise, Par.taking]
  · intro s code par _ hpair hkill htaking hseize hok hnone hready
    have h : Seizes s := ⟨hkill, htaking, hseize⟩
    refine ⟨_, h.exec_partnerCodeChange hpair hok, ?_⟩
    have hstays : seizeGivesWay (partnerCode s code) code = partnerCode s code := by simp [seizeGivesWay, hnone, hready]
    rw [hstays, (h.partnerCode code).code]
  · intro s code par _ hpair hkill htaking hseize hok hgives
    have h : Seizes s := ⟨hkill, htaking, hseize⟩
    refine ⟨_, h.exec_partnerCodeChange hpair hok, ?_⟩
    rw [seizeGivesWay, if_pos ⟨(h.partnerCode code).code, hgives⟩, State.setClaim_activeCode_par, Par.settleGate_code]
    exact isActiveCode_activeCode _

end Sys2Proof.Claims
end

section
/-! PROOFS. RST_CAUSE and the block reset counters (R480): the word of a set of sources, what a source's assertion makes of the set,
and what the reset of a block leaves of the power block. -/

namespace Sys2Proof.Machine

open Sys2Proof

/-! The word of RST_CAUSE. -/

theorem ResetSource.code_injective : Function.Injective ResetSource.code := by
  intro x y
  cases x <;> cases y <;> decide

theorem ResetSource.code_le_five (x : ResetSource) : x.code ≤ 5 := by cases x <;> decide

theorem topSource_eq_max? (l : List ResetSource) : topSource l = (l.map ResetSource.code).max?.getD 0 := by
  have hfold : topSource l = (l.map ResetSource.code).foldl max 0 := by rw [topSource, List.foldl_map]
  rw [hfold, List.foldl_max, Nat.zero_max]

/-- The top code of a set with sources is the greatest element of its codes. -/
theorem max?_code_eq_topSource {l : List ResetSource} (h : l ≠ []) : (l.map ResetSource.code).max? = some (topSource l) := by
  have hsome : (l.map ResetSource.code).max? ≠ none := by simp [h]
  obtain ⟨m, hm⟩ := Option.ne_none_iff_exists'.mp hsome
  rw [topSource_eq_max?, hm, Option.getD_some]

theorem code_le_topSource {l : List ResetSource} {x : ResetSource} (h : x ∈ l) : x.code ≤ topSource l :=
  (List.max?_eq_some_iff.mp (max?_code_eq_topSource (List.ne_nil_of_mem h))).2 _ (List.mem_map_of_mem h)

theorem exists_code_eq_topSource {l : List ResetSource} (h : l ≠ []) : ∃ x ∈ l, x.code = topSource l :=
  List.mem_map.mp (List.max?_eq_some_iff.mp (max?_code_eq_topSource h)).1

/-- A list of sources as a number: for each of them the power of 2 of its code. -/
def codeSum (l : List ResetSource) : Nat := (l.map fun x => 2 ^ x.code).sum

/-- In a list without repetition no bit of the number carries into another: its bits are the codes of the sources. -/
theorem testBit_codeSum {l : List ResetSource} (h : l.Nodup) (x : ResetSource) : (codeSum l).testBit x.code = true ↔ x ∈ l := by
  have hset : codeSum l = ∑ i ∈ (l.map ResetSource.code).toFinset, 2 ^ i := by
    rw [List.sum_toFinset _ (h.map ResetSource.code_injective), List.map_map]
    rfl
  rw [hset, ← Nat.mem_bitIndices, ← List.mem_toFinset, Finset.toFinset_bitIndices_sum_two_pow, List.mem_toFinset,
    List.mem_map_of_injective ResetSource.code_injective]

/-- The bits of the sources add up above those that stand in a word already. -/
theorem foldl_sourceBits (l : List ResetSource) (a : Nat) :
    (l.map fun c => (7 + c.code, 1, 1)).foldl (fun a (f : Nat × Nat × Nat) => a + (f.2.2 % 2 ^ f.2.1) * 2 ^ f.1) a
      = 2 ^ 7 * codeSum l + a := by
  induction l generalizing a with
  | nil => simp [codeSum]
  | cons c l ih =>
    have hsum : codeSum (c :: l) = 2 ^ c.code + codeSum l := List.sum_cons
    rw [List.map_cons, List.foldl_cons, ih, hsum, pow_add]
    dsimp only
    omega

/-- RST_CAUSE as a number: the set of sources above DETAIL and CAUSE. -/
theorem readPwr_rstCause_toNat (k : Core) : (readPwr k 0x280).toNat
    = (2 ^ 7 * codeSum k.pwr.sources + (k.pwr.detail % 8 * 8 + topSource k.pwr.sources % 8)) % 2 ^ 32 := by
  change (pack ([(0, 3, topSource k.pwr.sources), (3, 3, k.pwr.detail)] ++ k.pwr.sources.map fun c => (7 + c.code, 1, 1))).toNat = _
  rw [pack, BitVec.toNat_ofNat, List.foldl_append, foldl_sourceBits]
  simp [Nat.add_comm]

theorem readPwr_rstCause_top (k : Core) : field (readPwr k 0x280) 2 0 = topSource k.pwr.sources % 8 := by
  rw [field, readPwr_rstCause_toNat, Nat.shiftRight_zero]
  omega

/-- All the bits of the set lie within the register's 32. -/
theorem readPwr_rstCause_bit (k : Core) (x : ResetSource) :
    bit (readPwr k 0x280) (7 + x.code) = (codeSum k.pwr.sources).testBit x.code := by
  have hcode := x.code_le_five
  have hlow : k.pwr.detail % 8 * 8 + topSource k.pwr.sources % 8 < 2 ^ 7 := by omega
  rw [bit, readPwr_rstCause_toNat, Nat.testBit_mod_two_pow, Nat.testBit_two_pow_mul_add _ hlow, if_neg (by omega),
    Nat.add_sub_cancel_left, decide_eq_true (by omega), Bool.true_and]

/-! The set of sources. -/

@[simp] theorem Pwr.afterReset_sources (x : Pwr) (cold : Bool) : (x.afterReset cold).sources = x.sources := by
  unfold Pwr.afterReset
  dsimp only
  split <;> rfl

@[simp] theorem State.applyReset_sources (s : State) (cold : Bool) :
    (s.applyReset cold).live.pwr.sources = s.live.pwr.sources := Pwr.afterReset_sources _ _

/-- The first source of a reset begins the set anew. -/
theorem State.assertReset_sources_of_first {s : State} (h : s.live.pwr.inReset = false) (src : ResetSource) (detail : Nat) :
    (s.assertReset src detail).live.pwr.sources = [src] := by
  simp only [State.assertReset, h, Bool.false_eq_true, if_false, State.applyReset_sources, State.modPwr_pwr]

/-- A source asserted in a reset in progress joins the set once, also where it makes the reset a cold one. -/
theorem State.assertReset_sources_of_inReset {s : State} (h : s.live.pwr.inReset = true) (src : ResetSource) (detail : Nat) :
    (s.assertReset src detail).live.pwr.sources
      = if s.live.pwr.sources.contains src then s.live.pwr.sources else s.live.pwr.sources ++ [src] := by
  simp only [State.assertReset, h, if_true]
  split
  · rw [State.applyReset_sources, State.modPwr_pwr]
  · rw [State.modPwr_pwr]

/-! Block resets (R485). -/

@[simp] theorem State.closeAllYra_pwr (s : State) : s.closeAllYra.live.pwr = s.live.pwr := rfl

@[simp] theorem State.closeYml_pwr (s : State) (p : Session → Bool) : (s.closeYml p).live.pwr = s.live.pwr := rfl

@[simp] theorem State.abortFlight_pwr (s : State) : s.abortFlight.live.pwr = s.live.pwr := by
  unfold State.abortFlight
  split <;> rfl

@[simp] theorem State.endSolve_pwr (s : State) (code cause : Nat) : (s.endSolve code cause).live.pwr = s.live.pwr := by
  unfold State.endSolve
  split <;> rfl

@[simp] theorem State.deadlineOutcome_pwr (s : State) : s.deadlineOutcome.live.pwr = s.live.pwr := by
  simp only [State.deadlineOutcome]
  (repeat' split) <;> simp

/-- A fold whose steps leave the power block alone leaves it alone. -/
theorem State.foldl_pwr {α : Type} (f : State → α → State) (h : ∀ s a, (f s a).live.pwr = s.live.pwr) (l : List α)
    (s : State) : (l.foldl f s).live.pwr = s.live.pwr := foldl_keeps (fun s : State => s.live.pwr) f h l s

/-- Finishing the mailboxes of a controller touches CAN alone. -/
theorem State.finishMbs_pwr (c : Nat) (l : List Nat) (s : State) : (l.foldl (fun s m =>
    if (s.live.can.mb c m).state ≠ 0 then s.modMb c m fun x => x.finish 6 true else s) s).live.pwr = s.live.pwr := by
  refine State.foldl_pwr _ (fun s m => ?_) l s
  split <;> rfl

@[simp] theorem State.modCtl_pwr (s : State) (c : Nat) (f : CanCtl → CanCtl) : (s.modCtl c f).live.pwr = s.live.pwr := rfl

@[simp] theorem State.canSettle_pwr (s : State) : s.canSettle.live.pwr = s.live.pwr := by
  refine State.foldl_pwr _ (fun s c => ?_) _ s
  dsimp only
  (repeat' split)
  · rfl
  · rfl
  · rw [State.modCtl_pwr, State.finishMbs_pwr]
  · rfl

@[simp] theorem State.resetCan_pwr (s : State) : s.resetCan.live.pwr = s.live.pwr := by
  simp only [State.resetCan, State.canSettle_pwr, State.modCan_pwr]
  exact State.foldl_pwr _ (fun s c => State.finishMbs_pwr c _ s) _ s

/-- The power block after the reset of block `b`: its counter one further, and the CP no longer running where it is the CP's. -/
def Pwr.countBlock (p : Pwr) (b : Nat) : Pwr :=
  match b with
  | 0 => { p with cpRunning := false, blkCp := satAdd 8 p.blkCp 1 }
  | 1 => { p with blkSolver := satAdd 8 p.blkSolver 1 }
  | 2 => { p with blkAsm := satAdd 8 p.blkAsm 1 }
  | 3 => { p with blkEth := satAdd 8 p.blkEth 1 }
  | 4 => { p with blkCan := satAdd 8 p.blkCan 1 }
  | _ => { p with blkMgt := satAdd 8 p.blkMgt 1 }

/-- Of the power block, the reset of a block changes its own counter, and stops the CP where it is the CP's. -/
theorem State.resetBlock_pwr (s : State) (b : Nat) : (s.resetBlock b).live.pwr = s.live.pwr.countBlock b := by
  unfold State.resetBlock Pwr.countBlock
  split
  · simp [State.resetCp]
  all_goals simp

theorem Pwr.countBlock_cause (p : Pwr) (b : Nat) : (p.countBlock b).sources = p.sources ∧ (p.countBlock b).detail = p.detail := by
  unfold Pwr.countBlock
  split <;> exact ⟨rfl, rfl⟩

end Sys2Proof.Machine

namespace Sys2Proof.Claims

open Sys2Proof Sys2Proof.Machine

/-- Settles O58: CAUSE is the maximum of the codes, the bits above it are their powers of 2, which a set adds up without a carry;
the assertion of a source alone changes the set, for a block reset only counts. -/
theorem resetCausesAreRecorded : Obligations.ResetCausesAreRecorded := by
  refine ⟨readPwr_rstCause_top, fun _ _ => code_le_topSource, fun _ => exists_code_eq_topSource, ?_, ?_, ?_, ?_, ?_⟩
  · intro k x hnodup
    rw [readPwr_rstCause_bit, testBit_codeSum hnodup]
  · intro s src d h
    exact State.assertReset_sources_of_first h src d
  · intro s src d x h
    rw [State.assertReset_sources_of_inReset h]
    split
    next hin => exact ⟨.inr, fun hx => hx.elim (fun e => e ▸ List.contains_iff_mem.mp hin) id⟩
    next => rw [List.mem_append, List.mem_singleton, or_comm]
  · intro s b _
    rw [s.resetBlock_pwr b]
    exact s.live.pwr.countBlock_cause b
  · intro s
    simp only [State.resetBlock_pwr]
    exact ⟨rfl, rfl, rfl, rfl, rfl, rfl⟩

end Sys2Proof.Claims
end

section
/-! PROOFS. The block as a whole: that every command completes, what a command keeps, what a step and a run keep. -/

namespace Sys2Proof.Machine

open Sys2Proof

/-! Every command completes. -/

/-- An outcome that is a next state. -/
def Completes (o : Host.Outcome State Fault Refusal) : Prop := ∃ t, o = .next t

theorem Completes.next (t : State) : Completes (.next t) := ⟨t, rfl⟩

theorem Completes.ite {c : Prop} [Decidable c] {a b : Host.Outcome State Fault Refusal} (ha : Completes a) (hb : Completes b) :
    Completes (if c then a else b) := by
  split <;> assumption

/-- A meaning is a next state (the first group) or branches by conditions and matches into next states (the second): no branch ends in
a fault or a refusal. -/
theorem exec_completes (c : Instr) (s : State) : Completes (exec c s) := by
  cases c with
  | pourComplete | registerWrite | epcClrStats | seriesSubmit | refreshAll | identHold | asmClrStats | asmRelease |
      paramOverride | coldNext | slvClrStats | islCmdEnter | islCmdLeave | plnClrStats | loopTick | lpeHand | lpeAuto |
      lpeAutoAll | lpeHandValue | injArm | injAbort | lpeClrStats | lgcRestart | forceSet | forceRemove | forceRemoveAll |
      lgcClrStats | passStart | fchClrStats | fanRestart | fanClrStats | clearGroup | clearMeter | clearAll | unsAck |
      nrgClrStats | parSwitch | divClr | parSelftest | parClrStats | reassemblyTimeout | servoOff | ptpCapture | ptpLoadArm |
      ptpLoadStep | ptpClrStats | ethClrStats | yraData | yraClose | canSend | canCancel | canRelease | canClrStats |
      vbakMeasure | clkCapture | clkLoadArm | clkLoadStep | temperatureTrim | dstTransition | alarmFiredClear | provision |
      enrol | enrolPub | revoke | deploy | returnModule | scrap | secSettings | tamperAck | forceClaim | debugUnlock | dbgReq |
      dbgLock | dbgOpenNext | attGo | resetNRelease | rstWarm | rstCold | blockResetCp | blockResetSolver | blockResetAsm |
      blockResetEth | blockResetCan | blockResetMgt | modeCommission | modeRun | modeTune | modeSafehold | startMode | updOffer |
      updChunk | endOffer | updAbort | updSwap | updConfirm | updRevert | updFloor | mgtHello | mgtOpen | mgtProve | mgtClose |
      mgtHealth | mgtJournal | mgtRegs | mgtReset | closeAll | mgtClrStats | overtempChange | sysClrStats | tamperInputInactive |
      backupDomainLoss => exact .next _
  | epochBoundary | livenessStage | dpAbsent | crystalLoss | bootStart | bootEnd | loadComplete | openingEpoch | ladleReady |
      horizonStepBoundary | paramSave | knownAnswerTest | entryStart | entryEnd | solveDeadline | crucibleFault | holdEnd |
      gridLossConfirm | islandEnter | gridRestore | islandLeave | groupRestore | outputInstant | setpointWrite | preSamplesDone |
      injectionDone | logicCycle | logicWatchdog | hostTagWrite | onlineChangeCheck | changeEpoch | fchStart | fchUrgent |
      fchHand | fchAuto | fltReset | fchHandValue | sliceHandover | calibrationVisitEnd | sliceStuck | calZero | calSpan |
      calAverageDone | calAccept | calDiscard | calFactory | outputFaultTimer | stageTrip | tripRetry | shuntOpen | shuntRetry |
      vfldLow | vfldRestored | kickEnd | retryWaitEnd | tachLoss | lowSpeedRekick | tachRecovery | stallRetry |
      referencePeriodEnd | referenceSwitch | forcedPeriodClose | gainChange | heatSample | intervalClose | periodicCapture |
      partnerCodeChange | gateOpen | watchdogFire | watchdogReset | heartbeatSend | heartbeatFrame | hbPathLost | linkPathLost |
      pathRestored | killInEnergised | killInReleased | killOutRelease | waitTimeout | joinFrame | epochFrame |
      calendarSyncStep | commitFrame | staleTimeout | tagsFrame | resyncComplete | immediateFrame | changeFrame | handoverFrame |
      handoverStart | handoverEnd | takeBack | outputsFrame | divergeFrame | divergenceResolve | selftestPeriodic | linkChange |
      ethFrameRx | prpSupervision | arpRequest | icmpEcho | ptpAnnounce | ptpSync | delayReq | delayResp | ptpSyncLoss |
      ptpReturn | addendWrite | ptpArmedLoad | yraOpen | yraProve | yraSessionTimeout | telemetry | yspSyncSend | canFrameRx |
      canObjectTimeout | canFrameEnd | busOff | busOffRecovery | canSleep | canWake | wakeEdge | wakeFrame | vbakSwitch |
      vbakReturn | calendarArmedLoad | mainsWindow | ptpReferenceCompare | automaticStep | referenceTimeout | alarmFire |
      alarmArm | alarmDisarm | tamperActivation | challengeExpiry | partialTimeout | burstOpen | burstClose | burstTimeout |
      drbgReseed | powerOnReset | powerOnRelease | pfWarning | pfWarningEnd | pfWarmReset | resetNRequest | moduleResetExecute |
      blockResetExecute | lockstepMismatch | cpFirmwareWatchdog | lockTimeout | installation | swapPoint | trialConfirmed |
      trialFailure | mgtFrameDiscard | mgtSessionTimeout | speedChange | dramUncorrectable | dramCorrected | pulseEdge |
      dinSample | pwmPeriodStart | busIntegration | busOffRecoveryComplete | selftestFrame | selftestComplete | bulkFrame |
      securityCommandEnd | attestationComplete | takingActiveCode =>
    simp only [exec]
    delta execEpochBoundary execLivenessStage execDpAbsent execCrystalLoss execBootStart execBootEnd execLoadComplete
      execOpeningEpoch execLadleReady execHorizonStepBoundary execParamSave execKnownAnswerTest execEntryStart execEntryEnd
      execSolveDeadline execCrucibleFault execHoldEnd execGridLossConfirm execIslandEnter execGridRestore execIslandLeave
      execGroupRestore execOutputInstant execSetpointWrite execPreSamplesDone execInjectionDone execLogicCycle execLogicWatchdog
      execHostTagWrite execOnlineChangeCheck execChangeEpoch execFchStart execFchUrgent execFchHand execFchAuto execFltReset
      execFchHandValue execSliceHandover execCalibrationVisitEnd execSliceStuck execCalZero execCalSpan execCalAverageDone
      execCalAccept execCalDiscard execCalFactory execOutputFaultTimer execStageTrip execTripRetry execShuntOpen execShuntRetry
      execVfldLow execVfldRestored execKickEnd execRetryWaitEnd execTachLoss execLowSpeedRekick execTachRecovery execStallRetry
      execReferencePeriodEnd execReferenceSwitch execForcedPeriodClose execGainChange execHeatSample execIntervalClose
      execPeriodicCapture execPartnerCodeChange execGateOpen execWatchdogFire execWatchdogReset execHeartbeatSend
      execHeartbeatFrame execHbPathLost execLinkPathLost execPathRestored execKillInEnergised execKillInReleased
      execKillOutRelease execWaitTimeout execJoinFrame execEpochFrame execCalendarSyncStep execCommitFrame execStaleTimeout
      execTagsFrame execResyncComplete execImmediateFrame execChangeFrame execHandoverFrame execHandoverStart execHandoverEnd
      execTakeBack execOutputsFrame execDivergeFrame execDivergenceResolve execSelftestPeriodic execLinkChange execEthFrameRx
      execPrpSupervision execArpRequest execIcmpEcho execPtpAnnounce execPtpSync execDelayReq execDelayResp execPtpSyncLoss
      execPtpReturn execAddendWrite execPtpArmedLoad execYraOpen execYraProve execYraSessionTimeout execTelemetry execYspSyncSend
      execCanFrameRx execCanObjectTimeout execCanFrameEnd execBusOff execBusOffRecovery execCanSleep execCanWake execWakeEdge
      execWakeFrame execVbakSwitch execVbakReturn execCalendarArmedLoad execMainsWindow execPtpReferenceCompare execAutomaticStep
      execReferenceTimeout execAlarmFire execAlarmArm execAlarmDisarm execTamperActivation execChallengeExpiry execPartialTimeout
      execBurstOpen execBurstClose execBurstTimeout execDrbgReseed execPowerOnReset execPowerOnRelease execPfWarning
      execPfWarningEnd execPfWarmReset execResetNRequest execModuleResetExecute execBlockResetExecute execLockstepMismatch
      execCpFirmwareWatchdog execLockTimeout execInstallation execSwapPoint execTrialConfirmed execTrialFailure
      execMgtFrameDiscard execMgtSessionTimeout execSpeedChange execDramUncorrectable execDramCorrected execPulseEdge
      execDinSample execPwmPeriodStart execBusIntegration execBusOffRecoveryComplete execSelftestFrame execSelftestComplete
      execBulkFrame execSecurityCommandEnd execAttestationComplete execTakingActiveCode State.writeChan State.writeBy
    repeat' first | with_reducible exact .next _ | with_reducible apply Completes.ite | split | extract_lets

/-! What a command keeps. -/

/-- Every command but SECURITY_COMMAND_END keeps the queue, the time, the invariant and the lifecycle. -/
theorem exec_kept : ∀ (c : Instr) (s : State), c ≠ .securityCommandEnd → KeptBy s (exec c s)
  | .securityCommandEnd, _, h => absurd rfl h
  | .epochBoundary, _, _ => execEpochBoundary_kept _
  | .pourComplete, _, _ => execPourComplete_kept _
  | .livenessStage, _, _ => execLivenessStage_kept _
  | .dpAbsent, _, _ => execDpAbsent_kept _
  | .registerWrite .., _, _ => execRegisterWrite_kept _ _ _ _
  | .crystalLoss, _, _ => execCrystalLoss_kept _
  | .epcClrStats .., _, _ => execEpcClrStats_kept _ _
  | .bootStart .., _, _ => execBootStart_kept _ _
  | .bootEnd .., _, _ => execBootEnd_kept _ _ _ _
  | .loadComplete, _, _ => execLoadComplete_kept _
  | .openingEpoch, _, _ => execOpeningEpoch_kept _
  | .ladleReady, _, _ => execLadleReady_kept _
  | .horizonStepBoundary, _, _ => execHorizonStepBoundary_kept _
  | .seriesSubmit .., _, _ => execSeriesSubmit_kept _ _ _
  | .refreshAll .., _, _ => execRefreshAll_kept _ _ _
  | .identHold .., _, _ => execIdentHold_kept _ _ _
  | .asmClrStats .., _, _ => execAsmClrStats_kept _ _ _
  | .asmRelease .., _, _ => execAsmRelease_kept _ _ _
  | .paramOverride .., _, _ => execParamOverride_kept _ _ _
  | .paramSave, _, _ => execParamSave_kept _
  | .knownAnswerTest .., _, _ => execKnownAnswerTest_kept _ _
  | .entryStart .., _, _ => execEntryStart_kept _ _
  | .entryEnd .., _, _ => execEntryEnd_kept _ _ _
  | .solveDeadline, _, _ => execSolveDeadline_kept _
  | .crucibleFault .., _, _ => execCrucibleFault_kept _ _ _ _
  | .coldNext .., _, _ => execColdNext_kept _ _
  | .slvClrStats .., _, _ => execSlvClrStats_kept _ _
  | .holdEnd, _, _ => execHoldEnd_kept _
  | .gridLossConfirm, _, _ => execGridLossConfirm_kept _
  | .islandEnter, _, _ => execIslandEnter_kept _
  | .gridRestore, _, _ => execGridRestore_kept _
  | .islandLeave, _, _ => execIslandLeave_kept _
  | .groupRestore, _, _ => execGroupRestore_kept _
  | .islCmdEnter .., _, _ => execIslCmdEnter_kept _ _
  | .islCmdLeave .., _, _ => execIslCmdLeave_kept _ _
  | .plnClrStats .., _, _ => execPlnClrStats_kept _ _
  | .loopTick .., _, _ => execLoopTick_kept _ _
  | .outputInstant, _, _ => execOutputInstant_kept _
  | .setpointWrite .., _, _ => execSetpointWrite_kept _ _ _ _
  | .lpeHand .., _, _ => execLpeHand_kept _ _
  | .lpeAuto .., _, _ => execLpeAuto_kept _ _
  | .lpeAutoAll .., _, _ => execLpeAutoAll_kept _ _
  | .lpeHandValue .., _, _ => execLpeHandValue_kept _ _ _
  | .injArm .., _, _ => execInjArm_kept _ _
  | .injAbort .., _, _ => execInjAbort_kept _ _
  | .preSamplesDone, _, _ => execPreSamplesDone_kept _
  | .injectionDone, _, _ => execInjectionDone_kept _
  | .lpeClrStats .., _, _ => execLpeClrStats_kept _ _
  | .logicCycle .., _, _ => execLogicCycle_kept _ _ _
  | .logicWatchdog .., _, _ => execLogicWatchdog_kept _ _
  | .lgcRestart .., _, _ => execLgcRestart_kept _ _
  | .forceSet .., _, _ => execForceSet_kept _ _ _ _
  | .forceRemove .., _, _ => execForceRemove_kept _ _ _
  | .forceRemoveAll .., _, _ => execForceRemoveAll_kept _ _
  | .hostTagWrite .., _, _ => execHostTagWrite_kept _ _ _ _ _
  | .lgcClrStats .., _, _ => execLgcClrStats_kept _ _
  | .onlineChangeCheck, _, _ => execOnlineChangeCheck_kept _
  | .changeEpoch, _, _ => execChangeEpoch_kept _
  | .passStart .., _, _ => execPassStart_kept _ _ _
  | .fchStart .., _, _ => execFchStart_kept _ _ _
  | .fchUrgent .., _, _ => execFchUrgent_kept _ _ _
  | .fchHand .., _, _ => execFchHand_kept _ _ _
  | .fchAuto .., _, _ => execFchAuto_kept _ _ _
  | .fltReset .., _, _ => execFltReset_kept _ _ _
  | .fchHandValue .., _, _ => execFchHandValue_kept _ _ _ _
  | .sliceHandover, _, _ => execSliceHandover_kept _
  | .calibrationVisitEnd .., _, _ => execCalibrationVisitEnd_kept _ _ _ _ _ _
  | .sliceStuck .., _, _ => execSliceStuck_kept _ _
  | .calZero .., _, _ => execCalZero_kept _ _ _
  | .calSpan .., _, _ => execCalSpan_kept _ _ _
  | .calAverageDone .., _, _ => execCalAverageDone_kept _ _
  | .calAccept .., _, _ => execCalAccept_kept _ _ _
  | .calDiscard .., _, _ => execCalDiscard_kept _ _ _
  | .calFactory .., _, _ => execCalFactory_kept _ _ _
  | .outputFaultTimer .., _, _ => execOutputFaultTimer_kept _ _ _ _
  | .stageTrip .., _, _ => execStageTrip_kept _ _
  | .tripRetry .., _, _ => execTripRetry_kept _ _
  | .shuntOpen .., _, _ => execShuntOpen_kept _ _
  | .shuntRetry .., _, _ => execShuntRetry_kept _ _
  | .vfldLow .., _, _ => execVfldLow_kept _ _
  | .vfldRestored .., _, _ => execVfldRestored_kept _ _
  | .fchClrStats .., _, _ => execFchClrStats_kept _ _
  | .kickEnd .., _, _ => execKickEnd_kept _ _
  | .retryWaitEnd .., _, _ => execRetryWaitEnd_kept _ _
  | .tachLoss .., _, _ => execTachLoss_kept _ _
  | .lowSpeedRekick .., _, _ => execLowSpeedRekick_kept _ _
  | .tachRecovery .., _, _ => execTachRecovery_kept _ _
  | .stallRetry .., _, _ => execStallRetry_kept _ _
  | .fanRestart .., _, _ => execFanRestart_kept _ _ _
  | .fanClrStats .., _, _ => execFanClrStats_kept _ _
  | .referencePeriodEnd .., _, _ => execReferencePeriodEnd_kept _ _ _
  | .referenceSwitch .., _, _ => execReferenceSwitch_kept _ _
  | .forcedPeriodClose .., _, _ => execForcedPeriodClose_kept _ _ _
  | .gainChange .., _, _ => execGainChange_kept _ _ _ _
  | .heatSample .., _, _ => execHeatSample_kept _ _
  | .intervalClose .., _, _ => execIntervalClose_kept _ _ _
  | .periodicCapture .., _, _ => execPeriodicCapture_kept _ _ _
  | .clearGroup .., _, _ => execClearGroup_kept _ _ _ _
  | .clearMeter .., _, _ => execClearMeter_kept _ _ _ _
  | .clearAll .., _, _ => execClearAll_kept _ _ _
  | .unsAck .., _, _ => execUnsAck_kept _ _
  | .nrgClrStats .., _, _ => execNrgClrStats_kept _ _
  | .partnerCodeChange .., _, _ => execPartnerCodeChange_kept _ _ _
  | .gateOpen .., _, _ => execGateOpen_kept _ _
  | .watchdogFire .., _, _ => execWatchdogFire_kept _ _
  | .watchdogReset, _, _ => execWatchdogReset_kept _
  | .heartbeatSend, _, _ => execHeartbeatSend_kept _
  | .heartbeatFrame .., _, _ => execHeartbeatFrame_kept _ _ _
  | .hbPathLost, _, _ => execHbPathLost_kept _
  | .linkPathLost, _, _ => execLinkPathLost_kept _
  | .pathRestored .., _, _ => execPathRestored_kept _ _
  | .killInEnergised, _, _ => execKillInEnergised_kept _
  | .killInReleased, _, _ => execKillInReleased_kept _
  | .killOutRelease, _, _ => execKillOutRelease_kept _
  | .waitTimeout, _, _ => execWaitTimeout_kept _
  | .joinFrame .., _, _ => execJoinFrame_kept _ _ _ _ _ _ _ _
  | .epochFrame .., _, _ => execEpochFrame_kept _ _ _ _ _ _
  | .calendarSyncStep, _, _ => execCalendarSyncStep_kept _
  | .commitFrame .., _, _ => execCommitFrame_kept _ _ _ _ _ _ _
  | .staleTimeout, _, _ => execStaleTimeout_kept _
  | .tagsFrame .., _, _ => execTagsFrame_kept _ _ _ _
  | .resyncComplete .., _, _ => execResyncComplete_kept _ _
  | .immediateFrame .., _, _ => execImmediateFrame_kept _ _ _ _ _
  | .changeFrame .., _, _ => execChangeFrame_kept _ _ _ _ _ _
  | .handoverFrame .., _, _ => execHandoverFrame_kept _ _ _ _
  | .handoverStart, _, _ => execHandoverStart_kept _
  | .handoverEnd, _, _ => execHandoverEnd_kept _
  | .takeBack, _, _ => execTakeBack_kept _
  | .outputsFrame .., _, _ => execOutputsFrame_kept _ _ _
  | .divergeFrame .., _, _ => execDivergeFrame_kept _ _ _ _ _
  | .divergenceResolve, _, _ => execDivergenceResolve_kept _
  | .selftestPeriodic .., _, _ => execSelftestPeriodic_kept _ _ _
  | .parSwitch .., _, _ => execParSwitch_kept _ _
  | .divClr .., _, _ => execDivClr_kept _ _
  | .parSelftest .., _, _ => execParSelftest_kept _ _
  | .parClrStats .., _, _ => execParClrStats_kept _ _
  | .linkChange .., _, _ => execLinkChange_kept _ _ _ _
  | .ethFrameRx .., _, _ => execEthFrameRx_kept _ _ _
  | .prpSupervision, _, _ => execPrpSupervision_kept _
  | .arpRequest .., _, _ => execArpRequest_kept _ _ _ _
  | .icmpEcho .., _, _ => execIcmpEcho_kept _ _ _ _ _
  | .reassemblyTimeout .., _, _ => execReassemblyTimeout_kept _ _
  | .ptpAnnounce .., _, _ => execPtpAnnounce_kept _ _ _ _ _ _
  | .ptpSync .., _, _ => execPtpSync_kept _ _ _ _ _ _ _
  | .delayReq .., _, _ => execDelayReq_kept _ _
  | .delayResp .., _, _ => execDelayResp_kept _ _ _ _
  | .ptpSyncLoss .., _, _ => execPtpSyncLoss_kept _ _
  | .ptpReturn, _, _ => execPtpReturn_kept _
  | .addendWrite .., _, _ => execAddendWrite_kept _ _ _ _
  | .servoOff .., _, _ => execServoOff_kept _ _ _ _
  | .ptpCapture .., _, _ => execPtpCapture_kept _ _
  | .ptpLoadArm .., _, _ => execPtpLoadArm_kept _ _ _ _
  | .ptpArmedLoad .., _, _ => execPtpArmedLoad_kept _ _
  | .ptpLoadStep .., _, _ => execPtpLoadStep_kept _ _ _ _ _
  | .ptpClrStats .., _, _ => execPtpClrStats_kept _ _ _ _
  | .ethClrStats .., _, _ => execEthClrStats_kept _ _
  | .yraOpen .., _, _ => execYraOpen_kept _ _ _ _
  | .yraProve .., _, _ => execYraProve_kept _ _ _ _
  | .yraData .., _, _ => execYraData_kept _ _ _ _ _ _
  | .yraClose .., _, _ => execYraClose_kept _ _ _ _
  | .yraSessionTimeout .., _, _ => execYraSessionTimeout_kept _ _
  | .telemetry .., _, _ => execTelemetry_kept _ _
  | .yspSyncSend .., _, _ => execYspSyncSend_kept _ _
  | .canFrameRx .., _, _ => execCanFrameRx_kept _ _ _
  | .canObjectTimeout .., _, _ => execCanObjectTimeout_kept _ _ _
  | .canFrameEnd .., _, _ => execCanFrameEnd_kept _ _ _ _ _
  | .busOff .., _, _ => execBusOff_kept _ _
  | .busOffRecovery .., _, _ => execBusOffRecovery_kept _ _
  | .canSend .., _, _ => execCanSend_kept _ _
  | .canCancel .., _, _ => execCanCancel_kept _ _
  | .canRelease .., _, _ => execCanRelease_kept _ _
  | .canSleep .., _, _ => execCanSleep_kept _ _ _
  | .canWake .., _, _ => execCanWake_kept _ _ _
  | .wakeEdge .., _, _ => execWakeEdge_kept _ _
  | .wakeFrame .., _, _ => execWakeFrame_kept _ _ _
  | .canClrStats .., _, _ => execCanClrStats_kept _ _
  | .vbakSwitch .., _, _ => execVbakSwitch_kept _ _ _
  | .vbakReturn .., _, _ => execVbakReturn_kept _ _ _
  | .vbakMeasure .., _, _ => execVbakMeasure_kept _ _
  | .clkCapture .., _, _ => execClkCapture_kept _ _
  | .clkLoadArm .., _, _ => execClkLoadArm_kept _ _ _
  | .calendarArmedLoad, _, _ => execCalendarArmedLoad_kept _
  | .clkLoadStep .., _, _ => execClkLoadStep_kept _ _ _ _
  | .temperatureTrim .., _, _ => execTemperatureTrim_kept _ _
  | .mainsWindow, _, _ => execMainsWindow_kept _
  | .ptpReferenceCompare, _, _ => execPtpReferenceCompare_kept _
  | .automaticStep, _, _ => execAutomaticStep_kept _
  | .referenceTimeout, _, _ => execReferenceTimeout_kept _
  | .dstTransition, _, _ => execDstTransition_kept _
  | .alarmFire .., _, _ => execAlarmFire_kept _ _
  | .alarmArm .., _, _ => execAlarmArm_kept _ _ _
  | .alarmDisarm .., _, _ => execAlarmDisarm_kept _ _ _
  | .alarmFiredClear .., _, _ => execAlarmFiredClear_kept _ _ _
  | .tamperActivation .., _, _ => execTamperActivation_kept _ _
  | .provision .., _, _ => execProvision_kept _ _ _
  | .enrol .., _, _ => execEnrol_kept _ _ _
  | .enrolPub .., _, _ => execEnrolPub_kept _ _ _
  | .revoke .., _, _ => execRevoke_kept _ _ _
  | .deploy .., _, _ => execDeploy_kept _ _ _
  | .returnModule .., _, _ => execReturnModule_kept _ _ _
  | .scrap .., _, _ => execScrap_kept _ _ _
  | .secSettings .., _, _ => execSecSettings_kept _ _ _
  | .tamperAck .., _, _ => execTamperAck_kept _ _ _
  | .forceClaim .., _, _ => execForceClaim_kept _ _ _
  | .debugUnlock .., _, _ => execDebugUnlock_kept _ _ _
  | .dbgReq .., _, _ => execDbgReq_kept _ _
  | .dbgLock .., _, _ => execDbgLock_kept _ _
  | .dbgOpenNext .., _, _ => execDbgOpenNext_kept _ _
  | .challengeExpiry, _, _ => execChallengeExpiry_kept _
  | .partialTimeout, _, _ => execPartialTimeout_kept _
  | .burstOpen .., _, _ => execBurstOpen_kept _ _
  | .burstClose, _, _ => execBurstClose_kept _
  | .burstTimeout, _, _ => execBurstTimeout_kept _
  | .attGo .., _, _ => execAttGo_kept _ _ _
  | .drbgReseed, _, _ => execDrbgReseed_kept _
  | .powerOnReset, _, _ => execPowerOnReset_kept _
  | .powerOnRelease .., _, _ => execPowerOnRelease_kept _ _
  | .pfWarning .., _, _ => execPfWarning_kept _ _
  | .pfWarningEnd .., _, _ => execPfWarningEnd_kept _ _
  | .pfWarmReset, _, _ => execPfWarmReset_kept _
  | .resetNRequest, _, _ => execResetNRequest_kept _
  | .resetNRelease, _, _ => execResetNRelease_kept _
  | .rstWarm .., _, _ => execRstWarm_kept _ _
  | .rstCold .., _, _ => execRstCold_kept _ _
  | .moduleResetExecute, _, _ => execModuleResetExecute_kept _
  | .blockResetCp .., _, _ => execBlockResetCp_kept _ _
  | .blockResetSolver .., _, _ => execBlockResetSolver_kept _ _
  | .blockResetAsm .., _, _ => execBlockResetAsm_kept _ _
  | .blockResetEth .., _, _ => execBlockResetEth_kept _ _
  | .blockResetCan .., _, _ => execBlockResetCan_kept _ _
  | .blockResetMgt .., _, _ => execBlockResetMgt_kept _ _
  | .blockResetExecute .., _, _ => execBlockResetExecute_kept _ _ _
  | .lockstepMismatch .., _, _ => execLockstepMismatch_kept _ _
  | .cpFirmwareWatchdog .., _, _ => execCpFirmwareWatchdog_kept _ _
  | .modeCommission .., _, _ => execModeCommission_kept _ _
  | .modeRun .., _, _ => execModeRun_kept _ _
  | .modeTune .., _, _ => execModeTune_kept _ _
  | .modeSafehold .., _, _ => execModeSafehold_kept _ _
  | .startMode .., _, _ => execStartMode_kept _ _ _
  | .updOffer .., _, _ => execUpdOffer_kept _ _ _
  | .updChunk .., _, _ => execUpdChunk_kept _ _ _ _
  | .endOffer .., _, _ => execEndOffer_kept _ _
  | .updAbort .., _, _ => execUpdAbort_kept _ _
  | .lockTimeout, _, _ => execLockTimeout_kept _
  | .installation .., _, _ => execInstallation_kept _ _
  | .swapPoint, _, _ => execSwapPoint_kept _
  | .updSwap .., _, _ => execUpdSwap_kept _ _
  | .updConfirm .., _, _ => execUpdConfirm_kept _ _
  | .trialConfirmed, _, _ => execTrialConfirmed_kept _
  | .updRevert .., _, _ => execUpdRevert_kept _ _
  | .trialFailure, _, _ => execTrialFailure_kept _
  | .updFloor .., _, _ => execUpdFloor_kept _ _
  | .mgtHello .., _, _ => execMgtHello_kept _ _
  | .mgtOpen .., _, _ => execMgtOpen_kept _ _ _ _
  | .mgtProve .., _, _ => execMgtProve_kept _ _ _ _
  | .mgtClose .., _, _ => execMgtClose_kept _ _ _ _
  | .mgtHealth .., _, _ => execMgtHealth_kept _ _ _ _
  | .mgtJournal .., _, _ => execMgtJournal_kept _ _ _ _ _ _
  | .mgtRegs .., _, _ => execMgtRegs_kept _ _ _ _ _ _
  | .mgtReset .., _, _ => execMgtReset_kept _ _ _ _ _ _
  | .mgtFrameDiscard .., _, _ => execMgtFrameDiscard_kept _ _
  | .mgtSessionTimeout .., _, _ => execMgtSessionTimeout_kept _ _
  | .speedChange, _, _ => execSpeedChange_kept _
  | .closeAll .., _, _ => execCloseAll_kept _ _
  | .mgtClrStats .., _, _ => execMgtClrStats_kept _ _
  | .dramUncorrectable .., _, _ => execDramUncorrectable_kept _ _ _ _
  | .dramCorrected .., _, _ => execDramCorrected_kept _ _
  | .overtempChange .., _, _ => execOvertempChange_kept _ _
  | .sysClrStats .., _, _ => execSysClrStats_kept _ _
  | .tamperInputInactive .., _, _ => execTamperInputInactive_kept _ _
  | .backupDomainLoss, _, _ => execBackupDomainLoss_kept _
  | .pulseEdge .., _, _ => execPulseEdge_kept _ _
  | .dinSample .., _, _ => execDinSample_kept _ _ _
  | .pwmPeriodStart .., _, _ => execPwmPeriodStart_kept _ _
  | .busIntegration .., _, _ => execBusIntegration_kept _ _
  | .busOffRecoveryComplete .., _, _ => execBusOffRecoveryComplete_kept _ _
  | .selftestFrame .., _, _ => execSelftestFrame_kept _ _ _
  | .selftestComplete .., _, _ => execSelftestComplete_kept _ _ _ _ _
  | .bulkFrame .., _, _ => execBulkFrame_kept _ _ _
  | .attestationComplete, _, _ => execAttestationComplete_kept _
  | .takingActiveCode, _, _ => execTakingActiveCode_kept _

/-- Every command keeps the queue, the time and the invariant. -/
theorem exec_stays {c : Instr} {s t : State} (h : exec c s = .next t) : Stays s t := by
  by_cases hc : c = .securityCommandEnd
  · subst hc
    exact execSecurityCommandEnd_stays s t h
  · exact (exec_kept c s hc t h).stays

/-! What a step and a run keep. -/

theorem step_of_cons {s : State} {c : Instr} {rest : List Instr} (h : s.pending = c :: rest) :
    step s = exec c { s with pending := rest } := by
  rw [step, h]

theorem step_of_nil {s : State} (h : s.pending = []) : step s = .next s.idle := by
  rw [step, h]

/-- The queue is no part of the invariant. -/
theorem inv_of_queue {s : State} (h : s.Inv) (q : List Instr) : State.Inv { s with pending := q } :=
  ⟨h.numbers, h.given, h.intact, h.beside, h.one, h.room⟩

/-- A step completes, and keeps the invariant. -/
theorem step_next {s : State} (h : s.Inv) : ∃ t, step s = .next t ∧ t.Inv := by
  cases hq : s.pending with
  | nil => exact ⟨s.idle, step_of_nil hq, s.idle_inv h⟩
  | cons c rest =>
    obtain ⟨t, ht⟩ := exec_completes c { s with pending := rest }
    exact ⟨t, (step_of_cons hq).trans ht, (exec_stays ht).inv (inv_of_queue h rest)⟩

theorem run_succ {s t : State} (n : Nat) (h : step s = .next t) : run (n + 1) s = run n t := by
  rw [run, h]

end Sys2Proof.Machine

namespace Sys2Proof.Claims

open Sys2Proof Sys2Proof.Machine

/-- Settles O4, by the branches of every meaning. -/
theorem everyCommandCompletes : Obligations.EveryCommandCompletes := exec_completes

/-- Settles O5: SECURITY_COMMAND_END aside, a command keeps what `Kept` lists; that one keeps all of it but the lifecycle. -/
theorem commandsKeepQueueAndTime : Obligations.CommandsKeepQueueAndTime :=
  fun _ _ _ h => ⟨(exec_stays h).pending, (exec_stays h).now⟩

/-- Settles O6. -/
theorem onlySignedCommandsMoveTheLifecycle : Obligations.OnlySignedCommandsMoveTheLifecycle :=
  fun c s t hc h => (exec_kept c s hc t h).lifecycle

/-- Settles O7: a command keeps the invariant, and so does the idle cycle. -/
theorem stepKeepsTheInvariant : Obligations.StepKeepsTheInvariant := by
  intro s t h hstep
  obtain ⟨u, hu, hinv⟩ := step_next h
  obtain rfl : u = t := Host.Outcome.next.inj (hu.symm.trans hstep)
  exact hinv

/-- Settles O9, by induction on the number of steps: each completes and keeps the invariant. -/
theorem runsAreSafe : Obligations.RunsAreSafe := by
  intro s hs n
  induction n generalizing s with
  | zero => exact ⟨s, rfl, hs⟩
  | succ n ih =>
    obtain ⟨t, ht, hinv⟩ := step_next hs
    rw [run_succ n ht]
    exact ih t hinv

/-- Settles O1. -/
theorem stepRunsTheFrontCommand : Obligations.StepRunsTheFrontCommand := fun _ _ _ => step_of_cons

/-- Settles O2: the idle cycle takes 10 ns and keeps the queue. -/
theorem anEmptyQueueIdles : Obligations.AnEmptyQueueIdles :=
  fun s h => ⟨step_of_nil h, s.idle_now, s.idle_pending.trans h⟩

/-- Settles O3. -/
theorem noWordSpellsACommand : Obligations.NoWordSpellsACommand := fun _ _ _ => ⟨rfl, rfl⟩

/-- Settles O8: nothing is open, published or staged. -/
theorem resetMeetsTheInvariant : Obligations.ResetMeetsTheInvariant where
  numbers := List.nodup_nil
  given _ h := nomatch h
  intact _ h := nomatch h
  beside h := nomatch h
  one h := nomatch h
  room := Nat.zero_le _

end Sys2Proof.Claims
end

section
/-! PROOFS. The register-write commands (R34 to R39, R44, R45): the accesses a command stands for, how its transaction is accepted, and
the close of a transaction that stages, drops, finds no room or asks for a reset. -/

namespace Sys2Proof.Machine

open Sys2Proof

/-! The registers that the commands write. -/

/-- Every write of the register waits for the boundary, whatever its word: no field of it acts at the access. -/
def alwaysWaits (addr : Nat) : Bool :=
  match regAt addr with
  | some r => addr ≠ 0x284 && addr ≠ 0x288 && r.w1c = 0 && r.rw = 0 && r.imm = 0 && (r.rwe ≠ 0 || r.wo ≠ 0)
  | none => false

theorem waits_of_alwaysWaits {addr : Nat} (h : alwaysWaits addr = true) (v : Word) : Waits addr v := by
  unfold alwaysWaits at h
  split at h
  next r hr =>
    simp only [Bool.and_eq_true, Bool.or_eq_true, decide_eq_true_eq, ne_eq] at h
    obtain ⟨⟨⟨⟨⟨h284, h288⟩, hw1c⟩, hrw⟩, himm⟩, hpart⟩ := h
    refine ⟨r, hr, h284, h288, hw1c, hrw, by simp [himm], ?_⟩
    rcases hpart with hp | hp <;> simp [stagedPart, hr, himm, hp]
  next => cases h

theorem alwaysWaits_setpoint : ∀ n < 192, alwaysWaits (0x1400 + n * 0x10) = true := by decide +kernel
theorem alwaysWaits_tagPair : ∀ k < 8, alwaysWaits (0x2060 + 8 * k) = true ∧ alwaysWaits (0x2064 + 8 * k) = true := by decide +kernel
theorem alwaysWaits_calCmd : ∀ n < 96, alwaysWaits (0x5828 + n * 0x40) = true := by decide +kernel
theorem alwaysWaits_addend : ∀ d < 2, alwaysWaits (0x3514 + 4 * d) = true := by decide +kernel
theorem alwaysWaits_canCmd : ∀ c < 4, alwaysWaits (0x3828 + c * 0x20) = true := by decide +kernel
theorem alwaysWaits_inputWindow : ∀ i < 64, alwaysWaits (0x0900 + 4 * i) = true := by decide +kernel
theorem alwaysWaits_commandWindow : ∀ i < 64, alwaysWaits (0x3F00 + 4 * i) = true := by decide +kernel
theorem alwaysWaits_challenge : ∀ i < 4, alwaysWaits (0x3E90 + 4 * i) = true := by decide +kernel
theorem alwaysWaits_updateWindow : ∀ i < 128, alwaysWaits (0x0600 + 4 * i) = true := by decide +kernel

/-- FLT_RESET is the one bit of its register that waits. -/
theorem boundaryOnly_faultReset : ∀ n < 96, Claims.boundaryOnly (0x4020 + n * 0x40) 0x10 = true := by decide +kernel

/-- What a write to a mirrored register needs of the module (R47). -/
theorem mirroredWrite_of_waits {addr : Nat} {v : Word} (h : Waits addr v) : mirroredWrite (.wr addr v) = !isLocal addr := by
  obtain ⟨r, hr, -⟩ := h
  simp [mirroredWrite, hr]

/-! Closes (R37 to R39, R44). -/

/-- A close drops the one write of its transaction where that breaks its rule: it is counted, and nothing is staged (R39). -/
theorem State.closeTxn_drops (s : State) (t : Txn) (a : Nat) (v : Word) (hm : t.moduleReset = 0) (hb : t.blockBits = 0)
    (hx : ∀ x ∈ s.txns, x.id ≠ t.id) (hw : t.writes = [(a, v)]) (h0 : t.dropped = 0) (hr : externalStaged s.staged + 1 ≤ stagingMax)
    (hbad : s.writeOk (s.bankOf t.readEpoch) t.src [(a, v)] a v = false) :
    s.closeTxn t = (s.werr a t.src .value).answer { t with dropped := 1 } .partialDrop none := by
  cases t
  dsimp only at hm hb hw h0 hbad
  subst hm hb hw h0
  unfold State.closeTxn
  rw [State.drop_fresh s _ hx]
  refine (if_neg fun h => ?_).trans ?_
  · have : stagingMax < externalStaged s.staged + 1 := h.1
    omega
  · simp [State.requestResets, hbad]

/-- A close with no write to stage asks for the resets of its transaction and answers (R479, R484). -/
theorem State.closeTxn_resets (s : State) (t : Txn) (hone : t.moduleReset = 0 ∨ t.blockBits = 0) (hx : ∀ x ∈ s.txns, x.id ≠ t.id)
    (hw : t.writes = []) (h0 : t.dropped = 0) :
    s.closeTxn t = (s.requestResets t.moduleReset t.blockBits 0).answer t .ok none := by
  have hboth : ¬ (t.moduleReset ≠ 0 ∧ t.blockBits ≠ 0) := fun h => hone.elim h.1 h.2
  cases t
  dsimp only at hboth hw h0
  subst hw h0
  unfold State.closeTxn
  rw [State.drop_fresh s _ hx]
  simp [hboth]

end Sys2Proof.Machine

namespace Sys2Proof.Claims

open Sys2Proof Sys2Proof.Machine

/-- The accesses of a list of writes. -/
def accessesOf (ws : List (Nat × Word)) : List Access := ws.map fun p => .wr p.1 p.2

/-! The commands. -/

theorem mem_words {a : Nat} {ws : List Word} {p : Nat × Word} (h : p ∈ words a ws) : ∃ i < ws.length, p.1 = a + 4 * i := by
  obtain ⟨⟨v, i⟩, hq, rfl⟩ := List.mem_map.mp h
  exact ⟨i, by simpa using (List.mem_zipIdx hq).2.1, rfl⟩

theorem accessesOf_words (a : Nat) (ws : List Word) : accessesOf (words a ws) = writesAt a ws := by
  simp [accessesOf, words, writesAt]

theorem length_words (a : Nat) (ws : List Word) : (words a ws).length = ws.length := by simp [words]

/-- Words of a window, and a command bit behind them. -/
theorem waits_window {a n c : Nat} {l : List Word} {v : Word} (hwin : ∀ i < n, alwaysWaits (a + 4 * i) = true)
    (hc : alwaysWaits c = true) : ∀ p ∈ words a (l.take n) ++ [(c, v)], Waits p.1 p.2 := by
  intro _ hp
  rcases List.mem_append.mp hp with hp | hp
  · obtain ⟨i, hi, ha⟩ := mem_words hp
    exact waits_of_alwaysWaits (ha ▸ hwin i (by simp at hi; omega)) _
  · obtain rfl := List.mem_singleton.mp hp
    exact waits_of_alwaysWaits hc _

theorem accessesOf_window (a n c : Nat) (l : List Word) (v : Word) :
    accessesOf (words a (l.take n) ++ [(c, v)]) = writesAt a (l.take n) ++ [.wr c v] := by
  rw [accessesOf, List.map_append, ← accessesOf, accessesOf_words]
  rfl

/-- A list of writes to registers that wait whatever the word. -/
theorem waits_all {ws : List (Nat × Word)} (h : (ws.map Prod.fst).all alwaysWaits = true) : ∀ p ∈ ws, Waits p.1 p.2 :=
  fun _ hp => waits_of_alwaysWaits (List.all_eq_true.mp h _ (List.mem_map_of_mem hp)) _

theorem waits_one {a : Nat} (v : Word) (h : alwaysWaits a = true) : ∀ p ∈ [(a, v)], Waits p.1 p.2 :=
  waits_all (by simpa using h)

/-- A register-write command stands for one transaction of its sender with its words. -/
theorem StagedWrite.exec_submit {c : Instr} {w : Who} {ws : List (Nat × Word)} (h : StagedWrite c w ws) (s : State) :
    exec c s = .next (s.submit w (accessesOf ws)) := by
  cases h with
  | seriesSubmit _ l => exact congrArg (fun as => Host.Outcome.next (s.submit w as)) (accessesOf_window ..).symm
  | attGo _ chal => exact congrArg (fun as => Host.Outcome.next (s.submit w as)) (accessesOf_window ..).symm
  | provision | enrol | enrolPub | revoke | deploy | returnModule | scrap | secSettings | tamperAck | forceClaim | debugUnlock =>
    exact congrArg (fun as => Host.Outcome.next (s.submit w as)) (accessesOf_window ..).symm
  | updOffer _ l =>
    exact congrArg (fun as => Host.Outcome.next (s.submit w (.wr 0x04C4 (word 0) :: as))) (accessesOf_window ..).symm
  | updChunk _ ofs l =>
    exact congrArg (fun as => Host.Outcome.next (s.submit w (.wr 0x04C4 (word ofs) :: as))) (accessesOf_window ..).symm
  | refreshAll _ hold | identHold _ hold | asmClrStats _ hold | asmRelease _ hold => cases hold <;> rfl
  | startMode _ commission => cases commission <;> rfl
  | setpointWrite _ _ _ h | hostTagWrite _ _ _ _ h | fltReset _ _ h | calZero _ _ h | calSpan _ _ h | calAccept _ _ h | calDiscard _ _ h
      | calFactory _ _ h | addendWrite _ _ _ h | canSleep _ _ h | canWake _ _ h | alarmArm _ _ h | alarmDisarm _ _ h => exact if_pos h
  | _ => rfl

/-- Its writes all wait for the boundary. -/
theorem StagedWrite.waits {c : Instr} {w : Who} {ws : List (Nat × Word)} (h : StagedWrite c w ws) : ∀ p ∈ ws, Waits p.1 p.2 := by
  cases h with
  | registerWrite _ addr v h => exact fun p hp => List.mem_singleton.mp hp ▸ waits_of_boundaryOnly h
  | seriesSubmit _ l => exact waits_window alwaysWaits_inputWindow (by decide +kernel)
  | attGo _ chal => exact waits_window alwaysWaits_challenge (by decide +kernel)
  | provision | enrol | enrolPub | revoke | deploy | returnModule | scrap | secSettings | tamperAck | forceClaim | debugUnlock =>
    exact waits_window alwaysWaits_commandWindow (by decide +kernel)
  | updOffer | updChunk =>
    exact List.forall_mem_cons.mpr ⟨waits_of_alwaysWaits (addr := 0x04C4) (by decide +kernel) _, waits_window alwaysWaits_updateWindow (by decide +kernel)⟩
  | setpointWrite _ n v h => exact waits_one _ (alwaysWaits_setpoint n h)
  | hostTagWrite _ k tag v h => exact waits_all (by simpa using alwaysWaits_tagPair k h)
  | fltReset _ n h => exact fun p hp => List.mem_singleton.mp hp ▸ waits_of_boundaryOnly (boundaryOnly_faultReset n h)
  | calZero _ n h | calSpan _ n h | calAccept _ n h | calDiscard _ n h | calFactory _ n h => exact waits_one _ (alwaysWaits_calCmd n h)
  | addendWrite _ d v h => exact waits_one _ (alwaysWaits_addend d h)
  | canSleep _ c h | canWake _ c h => exact waits_one _ (alwaysWaits_canCmd c h)
  | _ => exact waits_all (by simp only [List.map]; decide +kernel)

theorem StagedWrite.ne_nil {c : Instr} {w : Who} {ws : List (Nat × Word)} (h : StagedWrite c w ws) : ws ≠ [] := by
  cases h <;> simp [signed]

/-- Its writes are within the limit of R36. -/
theorem StagedWrite.length_le {c : Instr} {w : Who} {ws : List (Nat × Word)} (h : StagedWrite c w ws) : ws.length ≤ 1024 := by
  cases h <;> simp [signed, length_words] <;> omega

/-! How a requester's transaction is taken. -/

/-- The state once the debug port's last burst is noted (R456). -/
def noted (s : State) (w : Who) : State := s.modSec fun x => { x with lastBurst := if w.src = .dbg then s.now else x.lastBurst }

/-- The session that a requester's transaction belongs to. -/
def sessionOf (w : Who) : Nat := if w.src = .dbg then 0 else w.session

theorem begun_eq (s : State) (w : Who) : begun s w = numbered (noted s w) := by
  unfold begun noted numbered
  by_cases h : w.src = .dbg
  · simp only [h, if_true]
    rfl
  · simp only [h, if_false]
    rfl

theorem begun_now (s : State) (w : Who) : (begun s w).now = s.now := by
  rw [begun_eq]
  rfl

theorem noted_inv {s : State} (h : s.Inv) (w : Who) : (noted s w).Inv :=
  ⟨h.numbers, h.given, h.intact, h.beside, h.one, h.room⟩

/-- A requester that is heard and has its role, no burst being open: a transaction of its own. -/
theorem submit_own {s : State} {w : Who} {role : Role} (as : List Access) (h : s.hears w.src = true) (hr : s.whoRole w = some role)
    (hb : w.src = .dbg → s.burst? = none) :
    s.submit w as = (noted s w).transact w.src role (sessionOf w) w.dur .none as := by
  by_cases hs : w.src = .dbg
  · rw [State.submit_dbg s w as role h hr hs (hb hs)]
    simp only [noted, sessionOf, hs, if_true]
  · rw [State.submit_other s w as role h hr hs]
    simp only [noted, sessionOf, hs, if_false]
    rfl

/-- A requester that is not heard, or has no role, changes nothing. -/
theorem submit_unheard {s : State} {w : Who} (as : List Access) (h : s.hears w.src = false ∨ s.whoRole w = none) : s.submit w as = s := by
  unfold State.submit
  rcases h with h | h
  · exact if_pos (by simp [h])
  · simp [h]

/-! What a transaction does, by the checks of R451. -/

/-- A transaction after its accesses: it closes, or stays open for its time (R36). -/
def finished (s : State) (dur : Nat) (r : State × Txn) : State :=
  if dur = 0 then r.1.closeTxn r.2 else { r.1 with txns := r.1.txns ++ [{ r.2 with closeAt := some (s.now + dur) }] }

section Transact

variable {s : State} {src : Source} {role : Role} {n dur : Nat} {as : List Access} {b : Bank}

theorem transact_notServed (h : s.pub = none) :
    s.transact src role n dur .none as = (numbered s).send (.txn src .none .notServed 0 0 none []) := by
  unfold State.transact
  rw [if_pos (by simp [h])]
  simp [State.answer, emptyTxn, numbered, h]

theorem transact_refused (h : s.pub = some b) {o : TxnOutcome} (hr : (numbered s).refuses src role as = some o) :
    s.transact src role n dur .none as = (numbered s).refuse (emptyTxn s src role n .none) o := by
  unfold State.transact
  rw [if_neg (by simp [h])]
  change (match (numbered s).refuses src role as with | some o => _ | none => _) = _
  rw [hr]
  rfl

theorem transact_runs (h : s.pub = some b) (hr : (numbered s).refuses src role as = none) :
    s.transact src role n dur .none as = finished s dur ((numbered s).accessAll (emptyTxn s src role n .none) as) := by
  unfold State.transact
  rw [if_neg (by simp [h])]
  change (match (numbered s).refuses src role as with | some o => _ | none => _) = _
  rw [hr]
  rfl

theorem emptyTxn_readEpoch (h : s.pub = some b) : (emptyTxn s src role n .none).readEpoch = b.epoch := by
  simp [emptyTxn, h]

end Transact

/-! A requester whose writes may be made. -/

section Heard

variable {s : State} {w : Who} {role : Role} {b : Bank} {ws : List (Nat × Word)}

/-- None of the checks of R451 ends its transaction. -/
theorem Heard.not_refused (h : Heard s w role b ws) (hlen : ws.length ≤ 1024) :
    (numbered (noted s w)).refuses w.src role (accessesOf ws) = none := by
  have hlong : ¬ (1024 < (accessesOf ws).length ∧ w.src ≠ .dp) := by
    rintro ⟨hl, -⟩
    rw [accessesOf, List.length_map] at hl
    omega
  have hden : ¬ (((accessesOf ws).any fun a => !s.live.permits w.src role a) ∨ (w.src = .dbg ∧ s.live.sec.locked)) := by
    rintro (hany | ⟨hdbg, hlock⟩)
    · obtain ⟨_, ha, hno⟩ := List.any_eq_true.mp hany
      obtain ⟨p, hp, rfl⟩ := List.mem_map.mp ha
      simp [h.allowed p hp] at hno
    · simp [h.unlocked hdbg] at hlock
  have hmir : ¬ ((accessesOf ws).any mirroredWrite ∧ !s.isActive) := by
    rintro ⟨hany, hoff⟩
    rcases h.active with hact | hloc
    · simp [hact] at hoff
    · obtain ⟨_, ha, hyes⟩ := List.any_eq_true.mp hany
      obtain ⟨p, hp, rfl⟩ := List.mem_map.mp ha
      simp [mirroredWrite, hloc p hp] at hyes
  unfold State.refuses
  exact (if_neg hlong).trans ((if_neg hden).trans (if_neg hmir))

/-- Its transaction, once its accesses are known. -/
theorem Heard.submit (h : Heard s w role b ws) (hlen : ws.length ≤ 1024) :
    s.submit w (accessesOf ws) =
      finished s w.dur ((begun s w).accessAll (emptyTxn (noted s w) w.src role (sessionOf w) .none) (accessesOf ws)) := by
  rw [begun_eq, submit_own _ h.heard h.who h.alone, transact_runs (s := noted s w) h.published (h.not_refused hlen)]
  rfl

/-- The number of its transaction is not that of an open one. -/
theorem Heard.fresh (h : Heard s w role b ws) : ∀ x ∈ (begun s w).txns, x.id ≠ s.nextTxn := by
  rw [begun_eq]
  exact fun x hx => Nat.ne_of_lt (h.inv.given x hx)

/-- The transaction of a requester's writes that wait, as its accesses leave it. -/
def writesTxn (s : State) (w : Who) (role : Role) (b : Bank) (ws : List (Nat × Word)) : Txn :=
  { id := s.nextTxn, src := w.src, role := role, readEpoch := b.epoch, acceptedAt := s.now, lastAccess := s.now
    closeAt := none, reply := .none, accesses := ws.length, values := [], writes := ws, dropped := 0, session := sessionOf w }

/-- A transaction of one access that leaves no write: what it asks for is a reset, or nothing. -/
def bareTxn (s : State) (w : Who) (role : Role) (m bits : Nat) : Txn :=
  { emptyTxn (noted s w) w.src role (sessionOf w) .none with
    accesses := 1, lastAccess := (begun s w).now, moduleReset := m, blockBits := bits, blockWrites := (decide (bits ≠ 0)).toNat }

/-- A staged-write command of a heard requester leaves a transaction with its words. -/
theorem Heard.exec_finished {c : Instr} (h : Heard s w role b ws) (hc : StagedWrite c w ws) :
    exec c s = .next (finished s w.dur (begun s w, writesTxn s w role b ws)) := by
  have hacc : (begun s w).accessAll (emptyTxn (noted s w) w.src role (sessionOf w) .none) (accessesOf ws)
      = (begun s w, writesTxn s w role b ws) := by
    rw [accessesOf, State.access_waits_all _ ws hc.waits _ (begun_now s w).symm]
    simp only [emptyTxn, show (noted s w).pub = some b from h.published]
    simp [writesTxn, noted]
  rw [hc.exec_submit, h.submit hc.length_le, hacc]

/-- Where such a command lasts no time, its transaction closes at once. -/
theorem Heard.exec_closes {c : Instr} (h : Heard s w role b ws) (hc : StagedWrite c w ws) (h0 : w.dur = 0) :
    exec c s = .next ((begun s w).closeTxn (writesTxn s w role b ws)) := by
  rw [h.exec_finished hc, h0]
  rfl

/-- The bank that its close reads. -/
theorem Heard.bankOf (h : Heard s w role b ws) : (begun s w).bankOf b.epoch = b.core := by
  rw [begun_eq]
  exact State.bankOf_pub (numbered (noted s w)) b h.published

/-- The rules of its writes do not depend on the number of the next transaction, or on the debug port's last burst. -/
theorem begun_writeOk (s : State) (w : Who) : (begun s w).writeOk = s.writeOk := by
  rw [begun_eq]
  rfl

theorem begun_staged (s : State) (w : Who) : (begun s w).staged = s.staged := by
  rw [begun_eq]
  rfl

theorem begun_txns (s : State) (w : Who) : (begun s w).txns = s.txns := by
  rw [begun_eq]
  rfl

theorem begun_epc (s : State) (w : Who) : (begun s w).live.epc = s.live.epc := by
  rw [begun_eq]
  rfl

end Heard

/-- Settles O10: the accesses of the command only note its words, and the close stages them all. -/
theorem registerWritesAreStaged : Obligations.RegisterWritesAreStaged := by
  intro c w ws s role b hc h h0
  have hrules : ∀ p ∈ (writesTxn s w role b ws).writes, (begun s w).writeOk ((begun s w).bankOf b.epoch) w.src ws p.1 p.2 = true := by
    rw [h.bankOf, begun_writeOk]
    exact h.rules
  rw [h.exec_closes hc h0, State.closeTxn_stages _ _ rfl rfl h.fresh (begun_staged s w ▸ h.room) hrules hc.ne_nil rfl, begun_eq]
  rfl

/-- Settles O11: a transaction that lasts is only added to the open ones; in an open burst the accesses are kept. -/
theorem registerWritesMayStayOpen : Obligations.RegisterWritesMayStayOpen := by
  refine ⟨?_, ?_⟩
  · intro c w ws s role b hc h hdur
    rw [h.exec_finished hc, finished, if_neg hdur, begun_txns]
    rfl
  · intro c w ws s t hc hdbg hh hb
    rw [hc.exec_submit]
    unfold State.submit
    rw [hdbg, if_neg (by simp [hh]), hb]
    have hwho : s.whoRole w = some s.live.sec.dbgRole := by simp [State.whoRole, hdbg]
    rw [hwho]
    rfl

/-- Settles O13: the close drops the one write that breaks its rule; an access to no writable register is counted and leaves nothing to
close but the answer. -/
theorem wrongWritesAreDropped : Obligations.WrongWritesAreDropped := by
  refine ⟨?_, ?_⟩
  · intro c w a v s role b hc h h0 hroom hbad
    have hrule : (begun s w).writeOk ((begun s w).bankOf b.epoch) w.src [(a, v)] a v = false := by
      rw [h.bankOf, begun_writeOk]
      exact hbad
    have hfree : externalStaged (begun s w).staged + 1 ≤ stagingMax := by
      rw [begun_staged]
      exact hroom
    rw [h.exec_closes hc h0, State.closeTxn_drops _ (writesTxn s w role b [(a, v)]) a v rfl rfl h.fresh rfl rfl hfree hrule]
    rfl
  · intro w a v s role b hreg h h0
    have hacc : (begun s w).accessAll (emptyTxn (noted s w) w.src role (sessionOf w) .none) (accessesOf [(a, v)])
        = ((begun s w).werr (a % 65536) w.src (if isReadOnly a then .readOnly else .reserved),
            bareTxn s w role 0 0) := by
      simp only [accessesOf, List.map, State.accessAll, List.foldl, State.access, hreg]
      rfl
    change Host.Outcome.next (s.submit w (accessesOf [(a, v)])) = _
    have hfresh : ∀ x ∈ ((begun s w).werr (a % 65536) w.src (if isReadOnly a then .readOnly else .reserved)).txns,
        x.id ≠ (bareTxn s w role 0 0).id := h.fresh
    rw [h.submit (by simp), hacc, finished, if_pos h0, State.closeTxn_reads _ _ rfl rfl hfresh rfl rfl]
    simp [State.answer, bareTxn, emptyTxn, show (noted s w).pub = some b from h.published]

/-- A requester that is heard and has its role, no burst being open: its command is a transaction of its own. -/
theorem StagedWrite.exec_own {c : Instr} {w : Who} {ws : List (Nat × Word)} {s : State} {role : Role} (hc : StagedWrite c w ws)
    (h : s.hears w.src = true) (hr : s.whoRole w = some role) (hb : w.src = .dbg → s.burst? = none) :
    exec c s = .next ((noted s w).transact w.src role (sessionOf w) w.dur .none (accessesOf ws)) := by
  rw [hc.exec_submit, submit_own _ h hr hb]

theorem accessesOf_not_long {ws : List (Nat × Word)} (h : ws.length ≤ 1024) (src : Source) :
    ¬ (1024 < (accessesOf ws).length ∧ src ≠ .dp) := by
  rw [accessesOf, List.length_map]
  exact fun hl => absurd h (Nat.not_le.mpr hl.1)

/-- A write for which the role has no right, or a LOCK in force at the debug port: DENIED (R451). -/
theorem refuses_denied {s : State} {src : Source} {role : Role} {ws : List (Nat × Word)} (hlen : ws.length ≤ 1024)
    (h : (∃ p ∈ ws, s.live.permits src role (.wr p.1 p.2) = false) ∨ (src = .dbg ∧ s.live.sec.locked = true)) :
    s.refuses src role (accessesOf ws) = some .denied := by
  unfold State.refuses
  rw [if_neg (accessesOf_not_long hlen src), if_pos]
  refine h.imp ?_ id
  rintro ⟨p, hp, hno⟩
  exact List.any_eq_true.mpr ⟨_, List.mem_map_of_mem hp, by simp [hno]⟩

/-- A write to a mirrored register while the module is not active: NOT_ACTIVE, where nothing came before it (R47, R451). -/
theorem refuses_notActive {s : State} {src : Source} {role : Role} {ws : List (Nat × Word)} (hlen : ws.length ≤ 1024)
    (hp : ∀ p ∈ ws, s.live.permits src role (.wr p.1 p.2) = true) (hl : src = .dbg → s.live.sec.locked = false)
    (hw : ∀ p ∈ ws, Waits p.1 p.2) (hact : s.isActive = false) (hloc : ∃ p ∈ ws, isLocal p.1 = false) :
    s.refuses src role (accessesOf ws) = some .notActive := by
  have hden : ¬ (((accessesOf ws).any fun a => !s.live.permits src role a) ∨ (src = .dbg ∧ s.live.sec.locked)) := by
    rintro (hany | ⟨hdbg, hlock⟩)
    · obtain ⟨_, ha, hno⟩ := List.any_eq_true.mp hany
      obtain ⟨p, hmem, rfl⟩ := List.mem_map.mp ha
      simp [hp p hmem] at hno
    · simp [hl hdbg] at hlock
  obtain ⟨p, hmem, hp1⟩ := hloc
  have hmir : (accessesOf ws).any mirroredWrite = true :=
    List.any_eq_true.mpr ⟨_, List.mem_map_of_mem hmem, by rw [mirroredWrite_of_waits (hw p hmem), hp1]; rfl⟩
  unfold State.refuses
  rw [if_neg (accessesOf_not_long hlen src), if_neg hden, if_pos ⟨hmir, by simp [hact]⟩]

/-- Settles O12: the checks of R451 end the transaction before its accesses; past the staging area's room the close does. -/
theorem registerWritesAreTurnedAway : Obligations.RegisterWritesAreTurnedAway := by
  refine ⟨?_, ?_, ?_, ?_, ?_⟩
  · intro c w ws s role hc hh hr hb hp
    rw [hc.exec_own hh hr hb, transact_notServed (s := noted s w) hp, begun_eq]
  · intro c w ws s role b hc hh hr hb hp hno
    have href : (numbered (noted s w)).refuses w.src role (accessesOf ws) = some .denied := refuses_denied hc.length_le hno
    rw [hc.exec_own hh hr hb, transact_refused (s := noted s w) hp href, begun_eq, State.refuse, if_pos rfl]
    simp [State.answer, emptyTxn, show (noted s w).pub = some b from hp]
  · intro c w ws s role b hc hh hr hb hp hall hlock hact hloc
    have href : (numbered (noted s w)).refuses w.src role (accessesOf ws) = some .notActive :=
      refuses_notActive hc.length_le hall hlock hc.waits hact hloc
    rw [hc.exec_own hh hr hb, transact_refused (s := noted s w) hp href, begun_eq, State.refuse, if_neg (by decide)]
    simp [State.answer, emptyTxn, show (noted s w).pub = some b from hp]
  · intro c w ws s role b hc h h0 hfull
    rw [h.exec_closes hc h0, State.closeTxn_full _ _ rfl rfl h.fresh hc.ne_nil (begun_staged s w ▸ hfull)]
    rfl
  · intro c w ws s hc h
    rw [hc.exec_submit, submit_unheard _ h]

/-! Writes to RST_. -/

/-- The register of a reset command, and the word. -/
theorem ResetWrite.exec_submit {c : Instr} {w : Who} {m bits : Nat} (h : ResetWrite c w m bits) (s : State) :
    exec c s = .next (s.submit w (accessesOf [(if m = 0 then 0x0288 else 0x0284, word (m + bits))])) := by
  cases h <;> rfl

/-- The word holds the module reset or the block bits. -/
theorem ResetWrite.fields {c : Instr} {w : Who} {m bits : Nat} (h : ResetWrite c w m bits) :
    (m = 0 ∧ field (word bits) 5 0 = bits) ∨ (bits = 0 ∧ m ≠ 0 ∧ m ≠ 3 ∧ field (word m) 1 0 = m) := by
  cases h <;> decide

/-- The access of a reset command only notes its reset (R479, R484). -/
theorem ResetWrite.access {c : Instr} {w : Who} {m bits : Nat} (h : ResetWrite c w m bits) (s : State) (role : Role) :
    (begun s w).accessAll (emptyTxn (noted s w) w.src role (sessionOf w) .none)
        (accessesOf [(if m = 0 then 0x0288 else 0x0284, word (m + bits))])
      = (begun s w, bareTxn s w role m bits) := by
  have h284 : (regAt 0x284).isSome = true := by decide +kernel
  have h288 : (regAt 0x288).isSome = true := by decide +kernel
  obtain ⟨r4, h4⟩ := Option.isSome_iff_exists.mp h284
  obtain ⟨r8, h8⟩ := Option.isSome_iff_exists.mp h288
  simp only [accessesOf, List.map, State.accessAll, List.foldl, State.access]
  rcases h.fields with ⟨rfl, hf⟩ | ⟨rfl, hm, h3, hf⟩
  · simp only [if_true, h8, Nat.reduceEqDiff, if_false, Nat.zero_add, hf]
    simp [bareTxn, emptyTxn]
  · simp only [hm, if_false, h4, if_true, Nat.add_zero, hf, h3]
    simp [bareTxn, emptyTxn]

/-- Settles O15: the access notes the reset, the close asks for it; the deeper of two pending module resets stands. -/
theorem resetWritesArePending : Obligations.ResetWritesArePending := by
  refine ⟨?_, ?_, ?_, ?_⟩
  · rintro c w m bits s role b a hc h rfl h0
    have hone : m = 0 ∨ bits = 0 := by cases hc <;> simp
    rw [hc.exec_submit, h.submit (by simp), hc.access, finished, if_pos h0,
      State.closeTxn_resets _ (bareTxn s w role m bits) hone h.fresh rfl rfl]
    simp [State.answer, bareTxn, emptyTxn, show (noted s w).pub = some b from h.published]
  · intro s d
    rfl
  · intro s m d hm
    exact if_neg hm
  · intro s bits d hb
    exact if_neg hb

end Sys2Proof.Claims
end

section
/-! PROOFS. Liveness, the crystal and its loss (R17, R22, R23, R556): which blocks the loss of a path, of the optimiser's window and of the
CAN clock change. -/

namespace Sys2Proof.Machine

open Sys2Proof

/-! What a step changes, block by block. -/

/-- A fold whose steps change the CAN block alone changes it alone. -/
theorem State.foldl_onlyCan {α : Type} (f : State → α → State) (h : ∀ s a, ∃ y, f s a = s.modCan fun _ => y) (l : List α) (s : State) :
    ∃ y, l.foldl f s = s.modCan fun _ => y := by
  induction l generalizing s with
  | nil => exact ⟨s.live.can, rfl⟩
  | cons a l ih =>
    obtain ⟨y, hy⟩ := h s a
    obtain ⟨z, hz⟩ := ih (f s a)
    exact ⟨z, by rw [List.foldl_cons, hz, hy]; rfl⟩

/-- The states of the CAN controllers change the CAN block alone. -/
theorem State.canSettle_onlyCan (s : State) : ∃ y, s.canSettle = s.modCan fun _ => y := by
  unfold State.canSettle
  refine State.foldl_onlyCan _ (fun s c => ?_) _ s
  dsimp only
  split_ifs
  · exact ⟨_, rfl⟩
  · exact ⟨s.live.can, rfl⟩
  · obtain ⟨y, hy⟩ := State.foldl_onlyCan (fun s m => if (s.live.can.mb c m).state ≠ 0 then s.modMb c m fun x => x.finish 6 true else s)
      (fun s m => by split_ifs; exacts [⟨_, rfl⟩, ⟨s.live.can, rfl⟩])
      (List.range (canMbCount (s.live.cst.canCtrl c))) s
    rw [hy]
    exact ⟨_, rfl⟩
  · exact ⟨s.live.can, rfl⟩

/-- A record changes the journal alone. -/
theorem State.journal_blocks (s : State) (event : Nat) (data : Bytes) (alarm : Bool) :
    ∃ m, s.journal event data alarm = s.modMgt fun _ => m := ⟨_, rfl⟩

/-- A lost path changes the journal, the pair and PAIR_LOCK. -/
theorem State.losePath_blocks (s : State) (hb : Bool) :
    ∃ m p k, s.losePath hb = { s with live := { s.live with mgt := m, par := p, epc := { s.live.epc with pairLock := k } } } := by
  obtain ⟨m, hm⟩ := s.journal_blocks 27 (ev2 (if hb then 0 else 1) 0) false
  unfold State.losePath
  rw [hm]
  dsimp only
  split_ifs
  all_goals exact ⟨_, _, _, rfl⟩

theorem State.abortFlight_blocks (s : State) : ∃ v, s.abortFlight = s.modSlv fun _ => v := by
  refine ⟨s.abortFlight.live.slv, ?_⟩
  unfold State.abortFlight
  split <;> rfl

/-- The end of the optimiser's window changes the solver, the assembler, and CRU_RUN and the memory's states of SYS_. -/
theorem State.abandonWindow_blocks (s : State) (h : s.live.sys.cruRun = false) :
    ∃ v a w d, s.abandonWindow =
      { s with live := { s.live with slv := v, asm := a, sys := { s.live.sys with dramWaiting := w, dramSr := d } } } := by
  obtain ⟨v, hv⟩ := s.abortFlight_blocks
  unfold State.abandonWindow
  rw [hv]
  split
  next r hr =>
    rw [State.windowEnds, ← h]
    exact ⟨_, _, _, _, rfl⟩
  next => exact ⟨_, _, _, _, rfl⟩

/-- A record is the last of the journal once it is written. -/
theorem State.journal_last (s : State) (event : Nat) (data : Bytes) (alarm : Bool) :
    (s.journal event data alarm).live.mgt.journal.getLast?.map (fun r => (r.event, r.data))
      = some (event, data.take 16 ++ List.replicate (16 - data.length) 0) := by
  unfold State.journal
  rw [State.modMgt_mgt, List.getLast?_drop, if_neg (by simp [journalMax])]
  simp

end Sys2Proof.Machine

namespace Sys2Proof.Claims

open Sys2Proof Sys2Proof.Machine

/-- The state after a loss of the crystal, up to the CAN controllers. -/
def crystalLost (s : State) : State :=
  let a := portsDown (clocksLost s)
  let b := if a.paired && a.live.par.linkOk then a.losePath false else a
  ((b.modPln fun p => { p with cClock := true }).abandonWindow).canSettle

theorem CrystalInUse.exec_crystalLoss {s : State} (h : CrystalInUse s) : exec .crystalLoss s = .next (crystalLost s) := by
  obtain ⟨hosc, hpwr⟩ := h
  exact if_neg (by simp [hosc, hpwr])

/-- What the loss of the crystal changes: SYS_, the ports, the pair, PAIR_LOCK, the journal, the solver, the assembler, the plan's causes
and the CAN controllers. -/
theorem crystalLost_blocks (s : State) : ∃ m p k v a w d y,
    crystalLost s = { s with live := { s.live with
      mgt := m, par := p, epc := { s.live.epc with pairLock := k }, slv := v, asm := a, can := y
      pln := { s.live.pln with cClock := true }
      eth := (portsDown s).live.eth
      sys := { s.live.sys with xtalOk := false, reserveOsc := true, cruRun := false, eth0Clk := false, eth1Clk := false, cplClk := false
                               dramWaiting := w, dramSr := d } } } := by
  have hpath : ∃ m p k, (if (portsDown (clocksLost s)).paired && (portsDown (clocksLost s)).live.par.linkOk
        then (portsDown (clocksLost s)).losePath false else portsDown (clocksLost s))
      = { portsDown (clocksLost s) with live := { (portsDown (clocksLost s)).live with
          mgt := m, par := p, epc := { (portsDown (clocksLost s)).live.epc with pairLock := k } } } := by
    split
    · exact State.losePath_blocks _ _
    · exact ⟨_, _, _, rfl⟩
  obtain ⟨m, p, k, hpath⟩ := hpath
  unfold crystalLost
  dsimp only
  rw [hpath]
  generalize hb : State.modPln _ _ = b
  obtain ⟨v, a, w, d, hwin⟩ := b.abandonWindow_blocks (by rw [← hb]; rfl)
  obtain ⟨y, hcan⟩ := b.abandonWindow.canSettle_onlyCan
  rw [hcan, hwin, ← hb]
  exact ⟨_, _, _, _, _, _, _, _, rfl⟩

/-- A module that is not booted: without supply, in a module reset, before BOOT, or in BACKUP. -/
theorem not_booted_iff (s : State) : s.booted = false ↔
    s.live.pwr.powered = false ∨ s.live.pwr.inReset = true ∨ s.live.pwr.bootStarted = false ∨ s.live.pwr.mode = .backup := by
  simp only [State.booted, Bool.and_eq_false_iff, Bool.not_eq_false', decide_eq_false_iff_not, ne_eq, not_not, or_assoc]

/-- Settles O18: each event as its conditions give it; the loss of the crystal by the blocks it changes. -/
theorem livenessAndCrystalAreWatched : Obligations.LivenessAndCrystalAreWatched := by
  refine ⟨?_, ?_, ?_, ?_, ?_, ?_, ?_, ?_, ?_, ?_, ?_, ?_, ?_⟩
  · intro s h
    exact if_neg (by simp [h])
  · intro s h
    exact if_pos (by simp [h])
  · intro s h hc
    obtain ⟨hb, ha, hm⟩ := h
    refine (if_neg (by simp [hb, ha, hm])).trans ?_
    simp [hc]
  · intro s h hc
    obtain ⟨hb, ha, hm⟩ := h
    refine (if_neg (by simp [hb, ha, hm])).trans ?_
    simp [hc]
    rfl
  · intro s h
    refine if_pos ?_
    by_contra hn
    simp only [not_or, Bool.not_eq_true, Bool.not_eq_true', Bool.not_eq_false, Nat.not_lt] at hn
    exact h hn
  · exact fun s h => h.exec_crystalLoss
  · intro s
    refine ⟨rfl, ?_⟩
    have h := State.journal_last (s.modSys fun x => { x with
      xtalOk := false, reserveOsc := true, cruRun := false, eth0Clk := false, eth1Clk := false, cplClk := false }) 8 (ev1 0) false
    have h1 := congrArg (Option.map fun r : Nat × Bytes => (r.1, r.2.take 1)) h
    rw [Option.map_map] at h1
    exact h1
  · intro s p up g h hp
    refine ⟨_, if_neg (Nat.not_le.mpr hp), ?_⟩
    obtain rfl | rfl : p = 0 ∨ p = 1 := by omega
    · simp [Eth.setPort, Eth.port, h]
    · simp [Eth.setPort, Eth.port, h]
  · intro s h
    exact if_pos (by simp [h])
  · intro s
    simp only [State.refclkOut, Bool.not_eq_true', not_booted_iff]
  · intro s h hr hb hm
    obtain ⟨m, p, k, v, a, w, d, y, hl⟩ := crystalLost_blocks s
    refine ⟨_, h.exec_crystalLoss, ?_, ?_⟩
    · simp [State.refclkOut, State.booted, h.1, h.2, hr, hb, hm]
    · rw [hl]
      simp [State.refclkOut, State.booted, h.2, hr, hb, hm]
  · intro s h
    obtain ⟨m, p, k, v, a, w, d, y, hl⟩ := crystalLost_blocks s
    refine ⟨_, h.exec_crystalLoss, ?_⟩
    rw [hl]
    exact ⟨rfl, rfl, rfl, rfl, rfl, rfl, rfl, rfl, rfl, rfl, rfl, rfl, rfl, rfl, rfl, rfl, rfl, rfl, rfl, rfl, rfl, rfl⟩
  · intro s h
    refine if_pos ?_
    by_contra hn
    simp only [not_or, Bool.not_eq_true, Bool.not_eq_true', Bool.not_eq_false] at hn
    exact h hn

end Sys2Proof.Claims
end

section
/-! PROOFS. The boundary and its commit (R16, R28, R34 to R37): who wins among the staged writes, and what the commit keeps. -/

namespace Sys2Proof.Machine

open Sys2Proof

/-! The commit of the writes that are due. -/

/-- A command window without writes commits nothing. -/
theorem State.commitWindow_nil (s : State) : s.commitWindow [] = s := rfl

/-- The commit of one write, no word of the input window among the due: it acts. -/
theorem State.commitWinners_one (s : State) (x : Staged) : s.commitWinners [x] [] = s.commitOne x := by
  unfold State.commitWinners
  simp only [State.commitWindow_nil, ite_self]
  by_cases hc : hasCommand x.addr = true
  · by_cases hf : x.addr = 0x2048
    · rw [hf] at hc
      simp [hc, oneForce, hf]
    · simp [hc, oneForce, hf]
  · simp [hc, oneForce]

theorem State.commitWinners_none (s : State) : s.commitWinners [] [] = s := by
  unfold State.commitWinners
  simp only [State.commitWindow_nil, ite_self]
  rfl

/-- While the pour lasts, a winner acts, and what it counts takes its place among the closings. -/
theorem State.commitOne_pouring {s : State} (h : s.live.epc.pouring = true) (x : Staged) :
    s.commitOne x = (s.applyWrite x.src x.role x.session x.addr x.val).orderWerr s x := if_pos h

/-- The counts of a commit end no pour. -/
theorem State.commitCounts_pouring (s : State) (ws : List Staged) (bad : List Nat) (lost : Nat) :
    (s.commitCounts ws bad lost).live.epc.pouring = s.live.epc.pouring := View.congr_pouring (s.commitCounts_view ws bad lost)

theorem State.commitOne_counted {s : State} (h : s.live.epc.pouring = true) (x : Staged) (ws : List Staged) (bad : List Nat) (lost : Nat) :
    (s.commitCounts ws bad lost).commitOne x = ((s.commitCounts ws bad lost).applyWrite x.src x.role x.session x.addr x.val).orderWerr
      (s.commitCounts ws bad lost) x :=
  State.commitOne_pouring ((State.commitCounts_pouring s ws bad lost).trans h) x

/-- A staged write that is due is committed: nothing is left staged. -/
theorem State.commitStaged_of_due (s : State) (ws : List Staged) (hs : s.staged = ws) (h : ∀ x ∈ ws, x.closedAt < s.now)
    {bad : List Nat} (hbad : (List.range 17).filter (collided (sortBy Staged.before ws)) = bad) {rest : List Staged}
    (hrest : ((sortBy Staged.before ws).filter fun x => !bad.contains (collideGroup x.src x.addr)) = rest)
    (hwin : ∀ x ∈ rest, collideGroup x.src x.addr ≠ 1) :
    s.commitStaged = ((({ s with staged := [] }.commitCounts (sortBy Staged.before ws) bad (rest.filter (superseded rest)).length).commitWinners
      (rest.filter fun x => !superseded rest x) []).commitTail (rest.filter fun x => !superseded rest x) []) := by
  have hdue : (s.staged.filter fun x => decide (x.closedAt < s.now)) = ws := by
    rw [hs]
    exact List.filter_eq_self.mpr fun x hx => decide_eq_true (h x hx)
  have hleft : (s.staged.filter fun x => !decide (x.closedAt < s.now)) = [] := by
    rw [hs]
    exact List.filter_eq_nil_iff.mpr fun x hx => by simp [h x hx]
  have hw : (rest.filter fun x => collideGroup x.src x.addr = 1) = [] :=
    List.filter_eq_nil_iff.mpr fun x hx => by simp [hwin x hx]
  have hr : (rest.filter fun x => collideGroup x.src x.addr ≠ 1) = rest :=
    List.filter_eq_self.mpr fun x hx => by simp [hwin x hx]
  unfold State.commitStaged
  simp only [hdue, hbad, hrest, hw, hr, hleft]

/-! The boundary. -/

@[simp] theorem State.openWindow_staged (s : State) : s.openWindow.staged = s.staged := by
  unfold State.openWindow
  dsimp only
  split_ifs <;> rfl

@[simp] theorem State.latchCalendar_staged (s : State) : s.latchCalendar.staged = s.staged := by
  unfold State.latchCalendar State.settleRef
  split_ifs
  · rfl
  · exact State.openWindow_staged _

@[simp] theorem State.checkLiveness_staged (s : State) : s.checkLiveness.staged = s.staged := by
  obtain ⟨y, hy⟩ := (s.modEpc fun e => { e with
    dpAbsent := e.dpAbsent && !e.liveStaged, liveMiss := if e.liveStaged then 0 else min 3 (e.liveMiss + 1), liveStaged := false }).canSettle_onlyCan
  unfold State.checkLiveness
  rw [hy]
  rfl

@[simp] theorem State.reannounce_staged (s : State) : s.reannounce.staged = s.staged := by
  unfold State.reannounce
  dsimp only
  split <;> rfl

@[simp] theorem State.reclaim_staged (s : State) : s.reclaim.staged = s.staged :=
  foldl_keeps State.staged _ (fun s t => State.answer_staged (s.modEpc _) t _ _) _ _

@[simp] theorem State.finishPour_staged (s : State) : s.finishPour.staged = s.staged := by
  unfold State.finishPour
  split
  · rfl
  · dsimp only
    split_ifs <;> rfl

/-- The beginning of an epoch leaves the staging area as it is. -/
theorem State.newEpoch_staged (s : State) : s.newEpoch.staged = s.staged := by
  have h : s.finishPour.reclaim.staged = s.staged := by rw [State.reclaim_staged, State.finishPour_staged]
  unfold State.newEpoch
  dsimp only
  generalize s.finishPour.reclaim = r at h ⊢
  rw [← h]
  refine (State.latchCalendar_staged _).trans ((State.checkLiveness_staged _).trans ?_)
  exact State.reannounce_staged _

/-- The end of the pour keeps the open transactions; the boundary then takes those that read a bank before the published one. -/
theorem State.reclaim_txns (s : State) : s.reclaim.txns = s.txns.filter fun x => x.readEpoch = (s.pub.map Bank.epoch).getD 0 := by
  unfold State.reclaim
  exact View.congr_txns (s := { s with prev := none, txns := s.txns.filter fun t => t.readEpoch = (s.pub.map Bank.epoch).getD 0 })
    (view_foldl _ (fun x t => by simp) _ _)

theorem State.reclaim_pub (s : State) : s.reclaim.pub = s.pub := by
  unfold State.reclaim
  exact View.congr_pub (s := { s with prev := none, txns := s.txns.filter fun t => t.readEpoch = (s.pub.map Bank.epoch).getD 0 })
    (view_foldl _ (fun x t => by simp) _ _)

theorem State.finishPour_txns (s : State) : s.finishPour.txns = s.txns := by
  unfold State.finishPour
  split
  · rfl
  · dsimp only
    split_ifs <;> rfl

/-- What the beginning of an epoch leaves of banks and transactions (R35). -/
theorem State.newEpoch_banks (s : State) : s.newEpoch.pub = s.finishPour.pub ∧
    s.newEpoch.txns = s.txns.filter (fun x => x.readEpoch = (s.finishPour.pub.map Bank.epoch).getD 0) := by
  have h := State.newEpoch_any s
  have hp := State.reclaim_pub s.finishPour
  have ht := (State.reclaim_txns s.finishPour).trans (by rw [State.finishPour_txns])
  generalize s.newEpoch = n at h ⊢
  generalize s.finishPour.reclaim = r at h hp ht
  exact ⟨(show n.pub = r.pub from congrArg View.pub h).trans hp, (show n.txns = r.txns from congrArg View.txns h).trans ht⟩

/-- A commit with no write due changes no block's view: it only takes the pairs and the calibrations that are due. -/
theorem State.commitStaged_idle (s : State) (h : ∀ x ∈ s.staged, s.now ≤ x.closedAt) : s.commitStaged.view = s.view := by
  have hdue : (s.staged.filter fun x => decide (x.closedAt < s.now)) = [] :=
    List.filter_eq_nil_iff.mpr fun x hx => by simpa using h x hx
  have hleft : (s.staged.filter fun x => !decide (x.closedAt < s.now)) = s.staged :=
    List.filter_eq_self.mpr fun x hx => by simpa using h x hx
  have hbad : (List.range 17).filter (collided []) = [] :=
    List.filter_eq_nil_iff.mpr fun g _ => by simp [collided, groupTxns]
  unfold State.commitStaged
  simp only [hdue, hleft, show sortBy Staged.before ([] : List Staged) = [] from rfl, hbad, List.filter_nil, List.length_nil,
    State.commitWinners_none]
  rw [State.commitTail_view, State.commitCounts_view]

/-- A commit keeps the counter, or a reset that it asserts ends the run. -/
theorem State.commitStaged_epoch (s : State) :
    s.commitStaged.live.epc.epoch = s.live.epc.epoch ∨ s.commitStaged.pub = none := by
  unfold State.commitStaged
  dsimp only
  rcases ((State.commitWinners_quiet _ _ _).then (State.commitTail_view _ _ _)).after (State.commitCounts_view _ _ _ _) with h | h
  · exact .inl ((View.congr_epoch h).trans rfl)
  · exact .inr h.pub

/-- A boundary that falls: the epoch begins, its writes commit, and the pour starts unless a reset has ended the run. -/
def State.boundaryPour (s : State) : State :=
  let c := s.newEpoch.commitStaged
  if c.live.epc.pouring then (if c.live.epc.casting then c.castingBoundary else c).prepareBank else c

theorem State.boundaryPour_of_pouring {s : State} (h : s.newEpoch.commitStaged.live.epc.pouring = true) :
    ∃ c : State, s.boundaryPour = c.prepareBank ∧ c.view = s.newEpoch.commitStaged.view := by
  unfold State.boundaryPour
  dsimp only
  generalize s.newEpoch.commitStaged = c at h ⊢
  exact ⟨_, if_pos h, view_ite_self c.castingBoundary_view⟩

theorem State.boundaryPour_of_ended {s : State} (h : ¬ s.newEpoch.commitStaged.live.epc.pouring = true) :
    s.boundaryPour = s.newEpoch.commitStaged := by
  unfold State.boundaryPour
  dsimp only
  generalize s.newEpoch.commitStaged = c at h ⊢
  exact if_neg h

theorem exec_epochBoundary {s : State} (h : s.boundaryDue = true) : exec .epochBoundary s = .next s.boundaryPour := by
  change execEpochBoundary s = _
  unfold execEpochBoundary State.boundaryPour
  dsimp only
  by_cases hp : s.newEpoch.commitStaged.live.epc.pouring = true
  · rw [if_neg (by simp [h]), if_neg (by simp [hp]), if_pos hp]
  · rw [if_neg (by simp [h]), if_pos (by simp [hp]), if_neg hp]

end Sys2Proof.Machine

namespace Sys2Proof.Claims

open Sys2Proof Sys2Proof.Machine

theorem collideGroup_lt (src : Source) (addr : Nat) : collideGroup src addr < 17 := by
  have h : srcCode src < 4 := by cases src <;> decide
  unfold collideGroup
  split_ifs <;> omega

/-- No group outside those of the due writes collides. -/
theorem not_collided_of_le_one {ws : List Staged} (h : ∀ x ∈ ws, collideGroup x.src x.addr ≤ 1) (g : Nat) : collided ws g = false := by
  unfold collided
  by_cases hg : 2 ≤ g
  · have : groupTxns ws g = [] := by
      unfold groupTxns
      rw [List.filter_eq_nil_iff.mpr fun x hx => by have := h x hx; simp; omega]
      rfl
    simp [this]
  · simp [hg]

/-- One transaction alone collides with nothing. -/
theorem not_collided_one (x : Staged) (g : Nat) : collided [x] g = false := by
  unfold collided groupTxns
  by_cases h : collideGroup x.src x.addr = g
  · simp [h, List.eraseDups_cons]
  · simp [h]

/-- Two transactions that write one group collide there, and nowhere else. -/
theorem collided_two {x y : Staged} (ht : x.txn ≠ y.txn) (hg : collideGroup y.src y.addr = collideGroup x.src x.addr)
    (h2 : 2 ≤ collideGroup x.src x.addr) (g : Nat) : collided [x, y] g = decide (g = collideGroup x.src x.addr) := by
  unfold collided groupTxns
  by_cases h : collideGroup x.src x.addr = g
  · subst h
    simp [hg, h2, List.eraseDups_cons, ht.symm]
  · simp [hg, h, Ne.symm h]

theorem range_filter_eq {n g : Nat} (h : g < n) : (List.range n).filter (fun k => decide (k = g)) = [g] := by
  have h1 : (List.range n).filter (fun k => decide (k = g)) = (List.range n).filter (· == g) := rfl
  rw [h1, List.filter_beq, List.nodup_range.count, if_pos (List.mem_range.mpr h)]
  rfl

/-- Settles O17. -/
theorem stagedWritesCommit : Obligations.StagedWritesCommit := by
  refine ⟨?_, ?_, ?_, ?_, ?_, ?_⟩
  · intro s x hs hx hp hg
    have hbad : (List.range 17).filter (collided [x]) = [] := List.filter_eq_nil_iff.mpr fun g _ => by simp [not_collided_one]
    rw [State.commitStaged_of_due s [x] hs (by simpa using hx) hbad (rest := [x]) (by simp [sortBy, insertBy]) (by simpa using hg)]
    have hsup : superseded [x] x = false := by simp [superseded]
    simp only [List.filter, hsup, Bool.not_false, List.length_nil]
    rw [State.commitWinners_one, State.commitOne_counted (s := { s with staged := [] }) hp]
    rfl
  · intro s x y hs hxy hy hp ha ht hgx hgy
    have hx : x.closedAt < s.now := by omega
    have hsort : sortBy Staged.before [x, y] = [x, y] := by simp [sortBy, insertBy, Staged.before, hxy]
    have hbad : (List.range 17).filter (collided (sortBy Staged.before [x, y])) = [] := by
      rw [hsort]
      exact List.filter_eq_nil_iff.mpr fun g _ => by
        simp [not_collided_of_le_one (ws := [x, y]) (by simp [hgx, hgy]) g]
    have hout : ¬ (0x480 ≤ y.addr ∧ y.addr < 0x800) := by
      intro h
      unfold collideGroup at hgy
      split_ifs at hgy
      all_goals omega
    rw [State.commitStaged_of_due s [x, y] hs (by simp [hx, hy]) hbad (rest := [x, y]) (by rw [hsort]; simp) (by simp [hgx, hgy])]
    have hsx : superseded [x, y] x = true := by
      have hrange : (decide (0x480 ≤ y.addr) && decide (y.addr < 0x800)) = false := by
        rw [← Bool.decide_and]
        exact decide_eq_false hout
      simp [superseded, ha, hrange, ht.symm]
    have hsy : superseded [x, y] y = false := by
      simp [superseded]
    simp only [List.filter, hsx, hsy, hsort]
    simp only [Bool.not_true, Bool.not_false, List.length_singleton]
    rw [State.commitWinners_one, State.commitOne_counted (s := { s with staged := [] }) hp]
  · intro s x y hs hx hy ht hg hgy
    have hsort : ∃ ws, (ws = [x, y] ∨ ws = [y, x]) ∧ sortBy Staged.before [x, y] = ws := by
      unfold sortBy
      simp only [List.foldr, insertBy]
      split_ifs <;> simp
    obtain ⟨ws, hws, hsort⟩ := hsort
    have hbad : (List.range 17).filter (collided (sortBy Staged.before [x, y])) = [collideGroup x.src x.addr] := by
      rw [← range_filter_eq (collideGroup_lt x.src x.addr), hsort]
      rcases hws with rfl | rfl
      · exact List.filter_congr fun g _ => collided_two ht hgy hg g
      · exact List.filter_congr fun g _ => hgy ▸ collided_two ht.symm hgy.symm (hgy ▸ hg) g
    refine ⟨ws, hws, ?_⟩
    rw [State.commitStaged_of_due s [x, y] hs (by simp [hx, hy]) hbad (rest := []) (by
      rw [hsort]
      rcases hws with rfl | rfl <;> simp [hgy]) (by simp), hsort]
    simp only [List.filter_nil, List.length_nil, State.commitWinners_none]
  · intro s t x h
    exact if_pos h
  · intro s t x h ho
    exact (if_neg (Nat.not_le.mpr h)).trans (if_pos ho)
  · intro s t x h ho
    exact (if_neg (Nat.not_le.mpr h)).trans (if_neg (Nat.not_lt.mpr ho))

/-- Settles O16: with no write due the commit is quiet, and the view of the new epoch is that of its beginning; the pour's end by its
time. -/
theorem theBoundaryAdvances : Obligations.TheBoundaryAdvances := by
  refine ⟨?_, ?_, ?_, ?_, ?_, ?_, ?_⟩
  · intro s hd hs
    have hn : s.newEpoch.now = s.now := (State.newEpoch_kept s).now
    have hv : s.newEpoch.commitStaged.view = s.newEpoch.view :=
      State.commitStaged_idle _ (by rw [State.newEpoch_staged, hn]; exact hs)
    obtain ⟨c, hc, hcv⟩ := State.boundaryPour_of_pouring ((View.congr_pouring hv).trans (State.newEpoch_pouring s))
    have hcn := hcv.trans hv
    obtain ⟨hpub, htxns⟩ := State.newEpoch_banks s
    refine ⟨_, exec_epochBoundary hd, ?_⟩
    rw [hc]
    exact ⟨(View.congr_epoch hcn).trans (State.newEpoch_epoch s), (View.congr_pouring hcn).trans (State.newEpoch_pouring s), rfl,
      (View.congr_pub hcn).trans hpub, (View.congr_prev hcn).trans (State.newEpoch_prev s), (View.congr_txns hcn).trans htxns,
      (View.congr_external hcn).trans (congrArg externalStaged (State.newEpoch_staged s)),
      (View.congr_pending hcn).trans (State.newEpoch_kept s).pending, (View.congr_now hcn).trans hn⟩
  · intro s hd
    have hprev := State.commitStaged_prev _ (State.newEpoch_prev s)
    have hep := State.commitStaged_epoch s.newEpoch
    rw [State.newEpoch_epoch] at hep
    refine ⟨_, exec_epochBoundary hd, ?_⟩
    by_cases hp : s.newEpoch.commitStaged.live.epc.pouring = true
    · obtain ⟨c, hc, hcv⟩ := State.boundaryPour_of_pouring hp
      rw [hc]
      exact ⟨(View.congr_prev hcv).trans hprev, hep.imp (View.congr_epoch hcv).trans (View.congr_pub hcv).trans⟩
    · rw [State.boundaryPour_of_ended hp]
      exact ⟨hprev, hep⟩
  · intro s hd
    exact if_pos (by simp [hd])
  · intro s
    simp [State.boundaryDue, State.toLock, and_assoc]
  · intro s b hb ht
    change Host.Outcome.next s.finishPour = _
    have hl : ¬ 120000 < s.now - s.live.epc.boundaryAt := by omega
    simp [State.finishPour, hb, hl]
  · intro s b hb ht
    change Host.Outcome.next s.finishPour = _
    simp [State.finishPour, hb, ht]
    rfl
  · intro s hb
    change Host.Outcome.next s.finishPour = _
    simp [State.finishPour, hb]

end Sys2Proof.Claims
end

section
/-! PROOFS. BOOT and LOAD (R474 to R479, R495, R50, R76 to R81): what the start of BOOT leaves, and the ends of both. -/

namespace Sys2Proof.Machine

open Sys2Proof

theorem State.undoInstall_par (s : State) : s.undoInstall.live.par = s.live.par := by
  unfold State.undoInstall
  split <;> rfl

/-- The start of BOOT leaves the pair as it is: a watchdog that has fired stays so. -/
theorem exec_bootStart_par (ratio : Nat) (s u : State) (h : exec (.bootStart ratio) s = .next u) : u.live.par = s.live.par := by
  change execBootStart ratio s = .next u at h
  unfold execBootStart at h
  dsimp only at h
  split at h
  next => cases h; rfl
  next =>
    split at h
    next => cases h; rfl
    next =>
      cases h
      rw [State.undoInstall_par]
      simp only [State.modUpd_par, State.modSys_par]
      cases (strapOf ratio).isNone <;> rfl

@[simp] theorem Cst.setErr_flash (c : Cst) (slot : Nat) (e : CstErr) : (c.setErr slot e).flash = c.flash := by
  unfold Cst.setErr
  split <;> rfl

theorem State.noteErr_cst (s : State) (event slot : Nat) (e : CstErr) : (s.noteErr event slot e).live.cst = s.live.cst := by
  rw [State.noteErr, State.journal, State.modMgt_cst]

/-- An attempt on a casting writes no flash. -/
theorem State.tryCasting_flash (s : State) (slot : Nat) : (s.tryCasting slot).1.live.cst.flash = s.live.cst.flash := by
  have htried : (s.modCst fun c => if slot = 0 then { c with tried0 := true } else { c with tried1 := true }).live.cst.flash
      = s.live.cst.flash := by
    rw [State.modCst_cst]
    split <;> rfl
  unfold State.tryCasting
  dsimp only
  split
  · rw [State.noteErr_cst, State.modCst_cst, Cst.setErr_flash, foldl_keeps (fun t : State => t.live.cst) _
      (fun t e => t.noteErr_cst 5 slot e), htried]
  · exact htried

end Sys2Proof.Machine

namespace Sys2Proof.Claims

open Sys2Proof Sys2Proof.Machine

/-- A module 50 µs after its release, its watchdog fired. -/
def firedBeforeBoot : State :=
  { (State.reset.modPar fun x => { x with wdFired := true }).modPwr fun p => { p with releasedAt := some 0, bootStarted := false } with
    now := 50000 }

/-- Refutes O19: the start of BOOT does not re-arm a watchdog that has fired since the release. -/
theorem not_bootRuns : ¬ Obligations.BootRuns := by
  intro h
  obtain ⟨u, hu, hfacts⟩ := h.1 0 firedBeforeBoot 0 ⟨rfl, rfl, by decide⟩
  obtain ⟨-, -, -, -, -, -, -, -, -, -, hwd, -⟩ := hfacts
  have hpar := exec_bootStart_par 0 firedBeforeBoot u hu
  rw [hpar] at hwd
  cases hwd

/-- The conditions of LOAD pass where it is running. -/
theorem Loading.runs {s : State} (h : Loading s) : ¬ (s.live.pwr.mode ≠ .load ∨ s.live.pwr.inReset = true) := by
  simp [h.1, h.2]

/-- LOAD with a chosen slot: its material is sealed away, or the slot is tried, and the other one after it. -/
theorem Loading.exec_chosen {s : State} (h : Loading s) (hf : s.live.cst.sfdp ≠ 0) {slot : Nat}
    (hc : (loadBegun s).live.cst.chosen = some slot) :
    exec .loadComplete s =
      if (s.live.sec.ownerHeld && s.live.sec.ackPending) = true then
        .next ((((loadBegun s).modCst fun c => { c.setErr slot { code := cSealedHold } with
          tried0 := decide (slot = 0), tried1 := decide (slot ≠ 0) }).noteErr 4 slot { code := cSealedHold }).loadFails)
      else match ((loadBegun s).tryCasting slot).2 with
        | some x => .next (((loadBegun s).tryCasting slot).1.install slot x.1 x.2)
        | none => if slotEmpty (((loadBegun s).tryCasting slot).1.live.cst.flash (1 - slot)) = true then
            .next ((loadBegun s).tryCasting slot).1.loadFails
          else match (((loadBegun s).tryCasting slot).1.tryCasting (1 - slot)).2 with
            | some x => .next ((((loadBegun s).tryCasting slot).1.tryCasting (1 - slot)).1.install (1 - slot) x.1 x.2)
            | none => .next (((loadBegun s).tryCasting slot).1.tryCasting (1 - slot)).1.loadFails := by
  have hflash : (loadBegun s).live.cst.sfdp ≠ 0 := hf
  refine (if_neg h.runs).trans ((if_neg hflash).trans ?_)
  split
  next h0 => cases hc.symm.trans h0
  next x hx =>
    obtain rfl : slot = x := Option.some.inj (hc.symm.trans hx)
    rw [State.tryCasting_flash]
    rfl

/-- Settles O20: the ends of LOAD in the order of its checks. -/
theorem loadEnds : Obligations.LoadEnds := by
  refine ⟨?_, ?_, ?_, ?_, ?_, ?_, ?_⟩
  · intro s h hf
    exact (if_neg h.runs).trans (if_pos hf)
  · intro s h hf hc
    have hflash : (loadBegun s).live.cst.sfdp ≠ 0 := hf
    refine (if_neg h.runs).trans ((if_neg hflash).trans ?_)
    split
    next => rfl
    next x hx => cases hc.symm.trans hx
  · intro s slot h hf hc ho ha
    rw [h.exec_chosen hf hc]
    exact if_pos (by simp [ho, ha])
  · intro s slot x h hf hc ho ht
    rw [h.exec_chosen hf hc]
    refine (if_neg (by rcases ho with ho | ho <;> simp [ho])).trans ?_
    rw [ht]
  · intro s slot r h hf hc ho ht he
    rw [h.exec_chosen hf hc]
    refine (if_neg (by rcases ho with ho | ho <;> simp [ho])).trans ?_
    rw [ht]
    exact if_pos he
  · intro s slot r h hf hc ho ht he
    rw [h.exec_chosen hf hc]
    refine (if_neg (by rcases ho with ho | ho <;> simp [ho])).trans ?_
    rw [ht]
    refine (if_neg (by simp [he])).trans ?_
    cases (r.tryCasting (1 - slot)).2 <;> rfl
  · intro s h
    refine if_pos ?_
    by_contra hn
    simp only [not_or, not_not, Bool.not_eq_true] at hn
    exact h hn

end Sys2Proof.Claims
end

section
/-! PROOFS. The assembler, the solver and the plan (R101 to R136, R150 to R164, R178 to R192): when their events act, and what they leave. -/

namespace Sys2Proof.Machine

open Sys2Proof

/-! What ISLAND's entry and end leave of the plan's state. -/

@[simp] theorem State.journal_pln (s : State) (event : Nat) (data : Bytes) (alarm : Bool) :
    (s.journal event data alarm).live.pln = s.live.pln := by
  rw [State.journal, State.modMgt_pln]

/-- The plan's state that neither the points nor the groups shed change (R188 to R192). -/
def Pln.stay (p : Pln) : Bool × Bool × Bool × Bool × Option Nat × Bool × Nat :=
  (p.island, p.enterDue, p.leaveDue, p.cmdHeld, p.restoreAt, p.islandRecord, p.entries)

theorem State.setPoint_stay (s : State) (p : Nat) (v : Word) : (s.setPoint p v).live.pln.stay = s.live.pln.stay := by
  unfold State.setPoint
  dsimp only
  split_ifs <;> rfl

theorem State.setPoints_stay (s : State) : s.setPoints.live.pln.stay = s.live.pln.stay := by
  unfold State.setPoints
  split
  · rfl
  · dsimp only
    generalize hq : List.foldl _ s _ = q
    have hkeep : q.live.pln.stay = s.live.pln.stay := by
      rw [← hq]
      refine foldl_keeps (fun t : State => t.live.pln.stay) _ (fun t v => ?_) _ s
      split_ifs
      · rfl
      · exact t.setPoint_stay _ _
    exact hkeep

theorem State.journals_stay (event : Nat) (d : Nat → Bytes) (l : List Nat) (s : State) :
    (l.foldl (fun s g => s.journal event (d g)) s).live.pln.stay = s.live.pln.stay :=
  foldl_keeps (fun t : State => t.live.pln.stay) _ (fun t g => congrArg Pln.stay (t.journal_pln event (d g) false)) l s

theorem State.shedAborts_stay (s : State) (new : List Nat) : (s.shedAborts new).live.pln.stay = s.live.pln.stay := by
  unfold State.shedAborts
  split_ifs <;> rfl

theorem State.setShed_stay (s : State) (shed : List Nat) : (s.setShed shed).live.pln.stay = s.live.pln.stay := by
  unfold State.setShed
  dsimp only
  rw [State.shedAborts_stay]
  exact (State.journals_stay _ _ _ _).trans (State.journals_stay _ _ _ _)

theorem State.enterIsland_stay (s : State) : s.enterIsland.live.pln.stay
    = (true, false, s.live.pln.leaveDue, s.live.pln.cmdHeld, none, false, satAdd 16 s.live.pln.entries 1) := by
  unfold State.enterIsland
  dsimp only
  rw [State.setPoints_stay, State.setShed_stay, State.modPln_pln, State.journal_pln]
  rfl

theorem State.leaveIsland_stay (s : State) : ∃ r, s.leaveIsland.live.pln.stay
    = (false, s.live.pln.enterDue, false, false, r, s.live.pln.islandRecord, s.live.pln.entries) := by
  unfold State.leaveIsland
  dsimp only
  rw [State.setPoints_stay]
  split_ifs
  · rw [State.setShed_stay, State.modPln_pln, State.journal_pln]
    exact ⟨_, rfl⟩
  · rw [State.modPln_pln, State.journal_pln]
    exact ⟨_, rfl⟩

end Sys2Proof.Machine

namespace Sys2Proof.Claims

open Sys2Proof Sys2Proof.Machine

/-- Settles O23. -/
theorem thePlanRuns : Obligations.ThePlanRuns := by
  refine ⟨?_, ?_, ?_, ?_, ?_, ?_, ?_, ?_, ?_, ?_, ?_, ?_, ?_, ?_, ?_, ?_, ?_⟩
  · rintro s r ⟨hr, hb, hd, ht⟩
    change execHoldEnd s = _
    simp only [execHoldEnd, hr, hb, hd, ht]
    rfl
  · intro s h
    change execHoldEnd s = _
    unfold execHoldEnd
    split
    next r hr => exact if_neg fun hc => h r ⟨hr, hc.1, by simpa using hc.2.1, hc.2.2⟩
    next => rfl
  · rintro s b ⟨hl, hc, hb, ht⟩
    change execGridLossConfirm s = _
    simp [execGridLossConfirm, hl, hc, hb, ht]
  · intro s hl hc hb
    change execGridLossConfirm s = _
    simp [execGridLossConfirm, hl, hc, hb]
  · intro s h
    change execGridLossConfirm s = _
    unfold execGridLossConfirm
    by_cases hg : s.live.pln.gridLost = true ∨ s.live.epc.casting = false
    · exact if_pos (by simpa using hg)
    · obtain ⟨hi, hn⟩ := (or_assoc.mpr h).resolve_left hg
      obtain ⟨hl, hc⟩ := not_or.mp hg
      obtain ⟨b, hb⟩ := Option.ne_none_iff_exists'.mp hi
      rw [if_neg (by simpa using hg)]
      dsimp only
      rw [hb]
      exact if_neg fun hd => hn b ⟨by simpa using hl, by simpa using hc, hb, hd⟩
  · intro s h hi
    obtain ⟨hb, hd, hm⟩ := h
    change execIslandEnter s = _
    simp [execIslandEnter, hb, hd, hm, hi]
  · intro s h hi
    obtain ⟨hb, hd, hm⟩ := h
    change execIslandEnter s = _
    simp [execIslandEnter, hb, hd, hm, hi]
  · intro s h
    refine if_pos ?_
    grind
  · rintro s b t ⟨hl, hb, ht, hn⟩
    change execGridRestore s = _
    simp [execGridRestore, hl, hb, ht, hn]
  · intro s hl hb
    change execGridRestore s = _
    simp [execGridRestore, hl, hb]
  · intro s h
    change execGridRestore s = _
    unfold execGridRestore
    by_cases hg : s.live.pln.gridLost = false
    · exact if_pos (by simp [hg])
    · obtain ⟨hi, hn⟩ := h.resolve_left hg
      obtain ⟨b, hb⟩ := Option.ne_none_iff_exists'.mp hi
      rw [if_neg (by simpa using hg), hb]
      dsimp only
      split
      next t ht => exact if_neg fun hd => hn b t ⟨by simpa using hg, hb, ht, hd⟩
      next => rfl
  · rintro s ⟨hb, hd, hi⟩
    change execIslandLeave s = _
    simp [execIslandLeave, hb, hd, hi]
  · intro s h
    exact if_pos (by grind)
  · rintro s t ⟨hr, hi, hs, ht⟩
    change execGroupRestore s = _
    simp [execGroupRestore, hr, hi, hs, ht]
  · intro s h
    change execGroupRestore s = _
    unfold execGroupRestore
    split
    next t ht =>
      refine if_pos ?_
      have := h t
      grind
    next => rfl
  · intro s
    have h := s.enterIsland_stay
    simp only [Pln.stay, Prod.mk.injEq] at h
    obtain ⟨hi, he, -, -, hr, hrec, hn⟩ := h
    exact ⟨hi, he, hr, hrec, hn⟩
  · intro s
    obtain ⟨r, h⟩ := s.leaveIsland_stay
    simp only [Pln.stay, Prod.mk.injEq] at h
    obtain ⟨hi, -, hl, hc, -⟩ := h
    exact ⟨hi, hl, hc⟩

/-- A new horizon step passes the conditions of its row. -/
theorem HorizonStepDue.passes {s : State} (h : HorizonStepDue s) : ¬ ((!s.atBoundary) = true ∨ (!s.live.epc.casting) = true
    ∨ (!s.live.cst.optimiser) = true ∨ s.live.cst.t0 (s.bound / 32768) = s.live.asm.stepStart) := by
  obtain ⟨hb, hc, ho, hs⟩ := h
  simp [hb, hc, ho, hs]

/-- The snapshot handed over by the active unit is not that of the cycle `e`. -/
theorem noSnapshot {x : Option (Nat × List (Nat × Dy × Bool))} {e : Nat} (h : ∀ v, x ≠ some (e, v)) :
    (x.bind fun p => if p.1 = e then some p.2 else none) = none := by
  cases x with
  | none => rfl
  | some p => exact if_neg fun he => h p.2 (by rw [← he])

/-- Settles O21. -/
theorem theAssemblerRuns : Obligations.TheAssemblerRuns := by
  refine ⟨?_, ?_, ?_, ?_, ?_, ?_, ?_, ?_, ?_, ?_, ?_, ?_, ?_, ?_, ?_⟩
  · rintro s ⟨ho, hc, hr⟩
    refine (if_neg (by simp [ho, hc, hr])).trans ?_
    dsimp only
  · intro s h
    refine if_pos ?_
    by_contra hn
    simp only [not_or, Bool.not_eq_true, Bool.not_eq_true', Bool.not_eq_false, Option.isSome_eq_false_iff, Option.isNone_iff_eq_none] at hn
    exact h hn
  · intro s e x l he ht h
    change execLadleReady s = _
    have hf : (s.live.asm.ladles.isEmpty && s.follows) = false := by rcases h with h | h <;> simp [h]
    simp only [execLadleReady, he, ht, hf]
    simp
  · intro s e x l v he ht hl hf hs
    change execLadleReady s = _
    simp [execLadleReady, he, ht, hl, hf, hs, State.adoptSnapshot]
  · intro s e x l he ht hl hf hs hlate
    change execLadleReady s = _
    simp only [execLadleReady, he, ht, hl, hf, noSnapshot hs]
    simp [State.adoptSnapshot, hlate]
  · intro s e x l he ht hl hf hs hsoon
    change execLadleReady s = _
    simp only [execLadleReady, he, ht, hl, hf, noSnapshot hs]
    simp [hsoon]
  · intro s h
    change execLadleReady s = _
    unfold execLadleReady
    split
    next e y ys he ht => rcases h with h | h <;> simp_all
    next => rfl
  · intro s h hf
    refine (if_neg h.passes).trans ?_
    simp only [hf]
    rfl
  · intro s h hf hd
    refine (if_neg h.passes).trans ?_
    simp only [hf, hd]
  · intro s e v h hf hd hs
    refine (if_neg h.passes).trans ?_
    simp only [hf, hd, hs, if_true]
    rfl
  · intro s e h hf hd hs
    refine (if_neg h.passes).trans ?_
    simp only [hf, hd]
    split
    next n v hn =>
      have hne : n ≠ e := fun he => hs v (by rw [hn, he])
      simp only [hne, if_false]
      rfl
    next => rfl
  · intro s v start
    rfl
  · intro s h
    refine if_pos ?_
    by_contra hn
    simp only [not_or, Bool.not_eq_true', Bool.not_eq_false] at hn
    exact h hn
  · rintro s ⟨hc, ho, ht⟩
    refine ⟨_, if_pos ⟨hc, ho, ht⟩, ?_⟩
    intro p q hm hne
    exact List.mem_filterMap.mpr ⟨(p, q), hm, if_neg fun hn => hne.elim (absurd hn.1) (absurd hn.2)⟩
  · intro s h
    exact if_neg h

/-- Two next states under a negated condition. -/
theorem next_ite_not (c : Bool) (x y : State) :
    (if (!c) = true then .next x else .next y : Host.Outcome State Fault Refusal) = .next (if c = true then y else x) := by
  cases c <;> rfl

/-- Settles O22. -/
theorem theSolverRuns : Obligations.TheSolverRuns := by
  refine ⟨?_, ?_, ?_, ?_, ?_, ?_, ?_, ?_, ?_, ?_⟩
  · intro bad s r hr hk hq
    change execKnownAnswerTest bad s = _
    unfold execKnownAnswerTest
    rw [hr]
    dsimp only
    rw [if_neg (by simp [hk, hq])]
    exact next_ite_not _ _ _
  · intro bad s h
    change execKnownAnswerTest bad s = _
    unfold execKnownAnswerTest
    split
    next r hr => exact if_pos (by rcases h r hr with h | h <;> simp [h])
    next => rfl
  · intro l s h
    obtain ⟨e, he⟩ := Option.isSome_iff_exists.mp h
    change execEntryStart l s = _
    simp only [execEntryStart, he]
  · intro l s h
    change execEntryStart l s = _
    simp only [execEntryStart, h]
  · intro l ce s r e hr hf he
    change execEntryEnd l ce s = _
    simp only [execEntryEnd, hr, hf, he]
  · intro l ce s h
    change execEntryEnd l ce s = _
    unfold execEntryEnd
    split
    next => rfl
    next r hr =>
      rw [h r hr]
  · rintro s r ⟨hr, ht⟩
    change execSolveDeadline s = _
    simp only [execSolveDeadline, hr, ht, if_true]
  · intro s h
    change execSolveDeadline s = _
    unfold execSolveDeadline
    split
    next r hr => exact if_neg fun ht => h r ⟨hr, ht⟩
    next => rfl
  · intro l ecc bad s r hr hp hl
    change execCrucibleFault l ecc bad s = _
    unfold execCrucibleFault
    rw [hr]
    dsimp only
    rw [if_neg (by omega)]
    rw [next_ite_not]
    cases ecc <;> rfl
  · intro l ecc bad s h
    change execCrucibleFault l ecc bad s = _
    unfold execCrucibleFault
    split
    next => rfl
    next r hr => exact if_pos (h r hr)

end Sys2Proof.Claims
end

section
/-! PROOFS. Slices, channels and fans (R248 to R292): when their events act, one condition at a time. -/

namespace Sys2Proof.Machine

open Sys2Proof

/-- What a sample of a digital input leaves of its channel, apart from its value and its conditions (R253). -/
def Chan.sample (x : Chan) : Bool × Nat × Option Nat × Nat × Bool := (x.level, x.results, x.lastAt, x.stableAt, x.din)

theorem Chan.noteFault_sample (old new : Chan) : (Chan.noteFault old new).sample = new.sample := by
  unfold Chan.noteFault
  dsimp only
  split_ifs <;> rfl

/-- R253: the level is noted with the instant it has stood since, and taken once it has been stable. -/
theorem Chan.dinSample_sample (x : Chan) (b : Bytes) (level : Bool) (now : Nat) : (x.dinSample b level now).sample
    = (level, x.results + 1, some now, (if x.level = level then x.stableAt else now),
        if decide ((if x.level = level then x.stableAt else now) + chDebounce b * 100000 ≤ now) then level else x.din) := by
  unfold Chan.dinSample
  dsimp only
  generalize hy : Chan.noteFault x _ = y
  split
  · exact (congrArg Chan.sample hy.symm).trans (Chan.noteFault_sample _ _)
  · exact (congrArg Chan.sample hy.symm).trans (Chan.noteFault_sample _ _)

end Sys2Proof.Machine

namespace Sys2Proof.Claims

open Sys2Proof Sys2Proof.Machine

/-- A pass that is due passes the conditions of its start. -/
theorem PassDue.passes {s : State} {g : Nat} (h : PassDue s g) :
    ¬ ((!s.live.fch.configured) = true ∨ (!s.live.cst.groupHasEntries g) = true ∨ s.now < (s.grp g).dueAt) := by
  obtain ⟨hc, he, hd⟩ := h
  simp [hc, he, hd]

/-- Settles O25. -/
theorem passesAndSlicesRun : Obligations.PassesAndSlicesRun := by
  refine ⟨?_, ?_, ?_, ?_, ?_, ?_, ?_, ?_, ?_, ?_, ?_, ?_, ?_⟩
  · intro g l s k h hk hp
    change Host.Outcome.next (s.passStart g l) = _
    unfold State.passStart
    dsimp only
    rw [if_neg h.passes, if_neg (by simp [hk]), if_neg (by simp [hp])]
    rfl
  · intro g l s k h hk hp
    change Host.Outcome.next (s.passStart g l) = _
    unfold State.passStart
    dsimp only
    rw [if_neg h.passes, if_neg (by simp [hk]), if_pos hp]
    rfl
  · intro g l s h hk
    change Host.Outcome.next (s.passStart g l) = _
    unfold State.passStart
    dsimp only
    rw [if_neg h.passes, if_pos (by simp [hk])]
    rfl
  · intro g l s h
    change Host.Outcome.next (s.passStart g l) = _
    unfold State.passStart
    dsimp only
    rw [if_pos]
    by_contra hn
    simp only [not_or, Bool.not_eq_true', Bool.not_eq_false, Nat.not_lt] at hn
    exact h hn
  · rintro s g k ⟨hg, hk, hc, hm, hr, ht, hp, hn⟩
    change execSliceHandover s = _
    unfold execSliceHandover
    dsimp only
    rw [hg, hk]
    exact if_pos ⟨hc, hm, by simp [hr], ht, by simp [hp], by simp [hn]⟩
  · intro s h
    change execSliceHandover s = _
    unfold execSliceHandover
    dsimp only
    split
    next g k hg hk =>
      refine if_neg fun ⟨hc, hm, hr, ht, hp, hn⟩ => h g k ⟨hg, hk, hc, hm, ?_, ht, ?_, ?_⟩
      · simpa using hr
      · simpa using hp
      · simpa using hn
    next => rfl
  · intro k zs rs ms q s hk hv hf
    change execCalibrationVisitEnd k zs rs ms q s = _
    unfold execCalibrationVisitEnd
    dsimp only
    rw [if_pos ⟨hk, hv⟩, if_neg (by simp [hf])]
    rfl
  · intro k zs rs ms q s hk hv hf
    change execCalibrationVisitEnd k zs rs ms q s = _
    unfold execCalibrationVisitEnd
    dsimp only
    rw [if_pos ⟨hk, hv⟩, if_pos hf]
    rfl
  · intro k zs rs ms q s h
    refine if_neg fun hn => ?_
    rcases h with h | h
    · omega
    · simp [h] at hn
  · intro k s g j hg hj
    change execSliceStuck k s = _
    unfold execSliceStuck
    rw [hg]
    unfold stuckNoted at hj
    dsimp only at hj ⊢
    rw [hj]
    rfl
  · intro k s g hg hj
    change execSliceStuck k s = _
    unfold execSliceStuck
    rw [hg]
    unfold stuckNoted at hj
    dsimp only at hj ⊢
    rw [hj]
    rfl
  · intro k s hg hk hv
    change execSliceStuck k s = _
    unfold execSliceStuck
    rw [hg]
    exact if_pos ⟨hk, hv⟩
  · intro k s hg h
    change execSliceStuck k s = _
    unfold execSliceStuck
    rw [hg]
    refine if_neg fun hn => ?_
    rcases h with h | h
    · omega
    · simp [h] at hn

/-! Fans. -/

/-- A condition on an instant that may not have been noted. -/
theorem option_any_le {x : Option Nat} {d now : Nat} :
    x.any (fun t => decide (t + d ≤ now)) = true ↔ ∃ t, x = some t ∧ t + d ≤ now := by
  cases x <;> simp

/-- Settles O27. -/
theorem fansAreWatched : Obligations.FansAreWatched := by
  refine ⟨?_, ?_, ?_, ?_, ?_, ?_, ?_, ?_, ?_, ?_, ?_, ?_, ?_, ?_, ?_, ?_, ?_, ?_⟩
  · intro d s h hg
    exact (if_pos h).trans (if_pos hg)
  · intro d s h hg ha hr
    refine (if_pos h).trans ((if_neg ?_).trans (if_pos ⟨ha, by simp [hr]⟩))
    exact Bool.eq_false_iff.mp hg
  · intro d s h hg ha
    refine (if_pos h).trans ((if_neg (Bool.eq_false_iff.mp hg)).trans (if_neg fun hn => ?_))
    rcases ha with ha | ha
    · omega
    · simp [ha] at hn
  · intro d s h
    exact if_neg h
  · intro d s h
    exact if_pos h
  · intro d s h
    exact if_neg h
  · intro d s h
    exact if_pos h
  · intro d s h
    exact if_neg h
  · rintro d s ⟨hs, ht⟩
    exact if_pos ⟨hs, option_any_le.mpr ht⟩
  · intro d s h
    exact if_neg fun hn => h ⟨hn.1, option_any_le.mp hn.2⟩
  · rintro d s ⟨hs, ht⟩
    exact if_pos ⟨hs, option_any_le.mpr ht⟩
  · intro d s h
    exact if_neg fun hn => h ⟨hn.1, option_any_le.mp hn.2⟩
  · rintro d s ⟨hs, hr, ht, hz⟩
    exact if_pos ⟨hs, hr, ht, by simp [hz]⟩
  · intro d s h
    exact if_neg fun ⟨hs, hr, ht, hz⟩ => h ⟨hs, hr, ht, by simpa using hz⟩
  · rintro n d s h9 ⟨hd, hp⟩ hu
    refine (if_neg (by simp [h9])).trans ?_
    dsimp only
    rw [hd]
    exact (if_pos hp).trans (if_pos hu)
  · rintro n d s h9 ⟨hd, hp⟩ hu
    refine (if_neg (by simp [h9])).trans ?_
    dsimp only
    rw [hd]
    exact (if_pos hp).trans (if_neg (Nat.not_le.mpr hu))
  · intro n s h9 h
    refine (if_neg (by simp [h9])).trans ?_
    dsimp only
    split
    next => rfl
    next d hd => exact if_neg fun hn => h d ⟨hd, hn⟩
  · intro n s h9
    exact if_pos h9

/-! Channels. -/

/-- Settles O26. -/
theorem channelsAndInputsAreHandled : Obligations.ChannelsAndInputsAreHandled := by
  refine ⟨?_, ?_, ?_, ?_, ?_, ?_, ?_, ?_, ?_, ?_, ?_, ?_, ?_, ?_, ?_, ?_, ?_, ?_, ?_, ?_, ?_, ?_, ?_, ?_, ?_, ?_, ?_⟩
  · intro n s h5 hd
    refine (if_pos h5).trans ?_
    simp only [Chan.pulseEdge, hd, if_true]
    rfl
  · intro n s h5 hd ht
    refine (if_pos h5).trans ?_
    have hkeep : (s.chan n).takeEdge (s.chRec n) s.now = s.chan n := by
      unfold Chan.takeEdge
      split
      next t he => exact if_neg (Nat.not_le.mpr (ht t he))
      next => rfl
    simp only [Chan.pulseEdge, hd, if_false, hkeep]
  · intro n s t h5 hd he ht
    refine (if_pos h5).trans ?_
    simp only [Chan.pulseEdge, hd, if_false, Chan.takeEdge, he, ht, if_true]
    rfl
  · intro n s h5
    exact if_neg h5
  · intro n l s h4
    refine ⟨_, if_pos h4, ?_⟩
    have h := Chan.dinSample_sample (s.chan n) (s.chRec n) l s.now
    simp only [Chan.sample, Prod.mk.injEq] at h
    obtain ⟨hl, hres, hat, hst, hdin⟩ := h
    exact ⟨hl, hres, hat, hst, by simp only [hdin, hst, decide_eq_true_eq]⟩
  · intro n l s h4
    exact if_neg h4
  · intro n s h
    exact if_pos h
  · intro n s h
    exact if_neg h
  · rintro n ol on s ⟨ht, hd⟩
    refine if_pos ⟨?_, by simpa using hd⟩
    cases ol <;> simpa [or_assoc] using ht
  · intro n ol on s h
    refine if_neg fun ⟨ht, hd⟩ => h ⟨?_, by simpa using hd⟩
    cases ol <;> simpa [or_assoc] using ht
  · intro n s h hl
    refine (if_pos h).trans ?_
    have hn : decide (3 ≤ (recentTrips s n).length) = false := by simpa using hl
    unfold recentTrips at hn
    simp only [hn]
    rfl
  · intro n s h hl
    refine (if_pos h).trans ?_
    have hn : decide (3 ≤ (recentTrips s n).length) = true := by simpa using hl
    unfold recentTrips at hn
    simp only [hn]
    rfl
  · intro n s h
    exact if_neg h
  · rintro n s ⟨ht, hl⟩
    refine if_pos ⟨option_any_le (d := 0).mpr ht, by simp [hl]⟩
  · intro n s h
    exact if_neg fun hn => h ⟨option_any_le (d := 0).mp hn.1, by simpa using hn.2⟩
  · intro n s h2 hs
    exact if_pos ⟨h2, by simp [hs]⟩
  · intro n s h
    refine if_neg fun hn => ?_
    rcases h with h | h
    · exact h hn.1
    · exact h (by simpa using hn.2)
  · intro n s h
    exact if_pos (option_any_le.mpr h)
  · intro n s h
    exact if_neg fun hn => h (option_any_le.mp hn)
  · intro mv s hm hv
    exact (if_pos hm).trans (if_neg (by simp [hv]))
  · intro mv s hm hv
    exact (if_pos hm).trans (if_pos hv)
  · intro mv s hm
    exact if_neg (Nat.not_lt.mpr hm)
  · intro mv s hm hv
    exact (if_pos hm).trans (if_pos hv)
  · intro mv s hm hv
    exact (if_pos hm).trans (if_neg (by simp [hv]))
  · intro mv s hm
    exact if_neg (Nat.not_lt.mpr hm)
  · intro s n h
    rcases h with h | h
    · simp [State.frontEnd, State.drives, h]
    · have h0 : chType [] = 0 := rfl
      simp [State.frontEnd, State.drives, h, h0, chIsOutput]
  · intro s n hg hc hm hv
    simp [State.frontEnd, State.fieldOn, hg, hc, hm, hv]

end Sys2Proof.Claims
end

section
/-! PROOFS. Energy metering and the claims of a pair (R301 to R317, R326 to R349, R482). -/

namespace Sys2Proof.Claims

open Sys2Proof Sys2Proof.Machine

/-- A condition that falls short of a boolean one. -/
theorem not_and_of_eq_false {c : Bool} {p : Prop} (h : c = false ∨ ¬ p) : ¬ (c = true ∧ p) := by
  rintro ⟨hc, hp⟩
  rcases h with h | h
  · rw [h] at hc
    cases hc
  · exact h hp

/-- The heat meter's tick of the model is the row's. -/
theorem heatDue_iff (s : State) (m : Nat) : s.heatDue m = true ↔ HeatDue s m := by
  simp [State.heatDue, and_assoc]

/-- Settles O28. -/
theorem energyIsMetered : Obligations.EnergyIsMetered := by
  refine ⟨?_, ?_, ?_, ?_, ?_, ?_, ?_, ?_, ?_, ?_, ?_, ?_, ?_, ?_⟩
  · intro g p s hm hn
    exact if_pos ⟨hm, hn⟩
  · intro g p s h
    exact if_neg (not_and_of_eq_false (h.imp_right fun hn => by simp [hn]))
  · intro g s h
    exact if_pos h
  · intro g s h
    exact if_neg (by simp [h])
  · intro g p s hm hn
    exact if_pos ⟨hm, hn⟩
  · intro g p s h
    exact if_neg (not_and_of_eq_false h)
  · rintro g k up s ⟨hm, hb, hk, hok⟩
    refine if_pos ⟨hm, hb, hk, ?_⟩
    cases up <;> simpa using hok
  · intro g k up s h
    refine if_neg fun ⟨hm, hb, hk, hok⟩ => h ⟨hm, hb, hk, ?_⟩
    cases up <;> simpa using hok
  · intro m s h
    exact if_pos ((heatDue_iff s m).mpr h)
  · intro m s h
    exact if_neg (h ∘ (heatDue_iff s m).mp)
  · rintro kind unit iv s ⟨hi, hr, he⟩
    change execIntervalClose kind unit s = _
    unfold execIntervalClose
    rw [hi]
    exact if_pos ⟨hr, he⟩
  · intro kind unit s h
    change execIntervalClose kind unit s = _
    unfold execIntervalClose
    split
    next iv hi => exact if_neg fun hn => h iv ⟨hi, hn⟩
    next => rfl
  · intro us n s h
    exact if_pos h
  · intro us n s h
    exact if_neg h

/-! Claims. -/

/-- The partner's code is read: a pair is in use, or no casting runs. -/
theorem ReadsClaims.passes {s : State} (h : ReadsClaims s) : ¬ (s.live.epc.casting = true ∧ s.live.cst.pairInUse = 0) := by
  rintro ⟨hc, hp⟩
  rcases h with h | h
  · rw [h] at hc
    cases hc
  · exact h hp

/-- The state `a` of a standby whose partner's claim has fallen, as the state `b` found it: the handover that runs, or a takeover (R346, R351). -/
def fallsTo (b a : State) : State :=
  match b.live.par.handover with
  | some (e, c) => if e = a.live.epc.epoch then a.enterTaking 0 c true else a.enterTaking a.live.activeCode 2 false
  | none => a.enterTaking a.live.activeCode (if b.live.par.divAt.isSome || b.live.par.divTake then 7 else 2) false

/-- Settles O29. -/
theorem claimsAreJudged : Obligations.ClaimsAreJudged := by
  refine ⟨?_, ?_, ?_, ?_, ?_, ?_, ?_, ?_, ?_, ?_, ?_, ?_, ?_, ?_, ?_, ?_, ?_, ?_, ?_, ?_, ?_⟩
  · intro code par s h hw
    exact (if_neg h.passes).trans (if_pos (by simp [hw]))
  · exact fun code par s h hw hf => exec_partnerCodeChange_of_not_falls h hw hf
  · intro code par s h hw hf
    obtain ⟨hp, hst, hc, hfail⟩ := hf
    have hcond : (seizeGivesWay (partnerCode s code) code).paired = true ∧ (partnerCode s code).live.par.pstate = 4
        ∧ code = 0 ∧ (!(partnerCode s code).live.par.partnerFailed) = true := ⟨hp, hst, hc, by simp [hfail]⟩
    have hexec : exec (.partnerCodeChange code par) s
        = .next (fallsTo (partnerCode s code) (seizeGivesWay (partnerCode s code) code)).settlePair := by
      change execPartnerCodeChange code par s = _
      unfold execPartnerCodeChange
      rw [if_neg h.passes, if_neg (by simp [hw])]
      exact congrArg (fun t : State => Host.Outcome.next t.settlePair)
        (if_pos (t := fallsTo (partnerCode s code) (seizeGivesWay (partnerCode s code) code)) hcond)
    rw [hexec]
    dsimp only
    generalize partnerCode s code = b
    generalize seizeGivesWay b code = a
    unfold fallsTo
    rcases b.live.par.handover with _ | ⟨e, c⟩
    · cases b.live.par.divAt <;> cases b.live.par.divTake <;> rfl
    · dsimp only
      split_ifs <;> rfl
  · intro code par s h
    refine if_pos ?_
    simpa [ReadsClaims, not_or] using h
  · rintro gap s ⟨⟨t, ht, h3⟩, hg, hk, hz⟩
    change execGateOpen gap s = _
    unfold execGateOpen
    dsimp only
    rw [ht]
    refine if_neg ?_
    rintro (h | h | h | ⟨h7, h⟩)
    · simp [hg] at h
    · simp [hk] at h
    · omega
    · obtain ⟨hko, hka⟩ := hz h7
      rcases h with h | h
      · simp [hko] at h
      · omega
  · intro gap s h
    change execGateOpen gap s = _
    unfold execGateOpen
    dsimp only
    split
    next => rfl
    next t ht =>
      refine if_pos ?_
      by_contra hn
      simp only [not_or, not_and, Bool.not_eq_true, Bool.not_eq_true', Bool.not_eq_false, Nat.not_lt] at hn
      exact h ⟨⟨t, ht, hn.2.2.1⟩, hn.1, hn.2.1, hn.2.2.2⟩
  · rintro c s ⟨hc, ha, hr⟩ hw
    refine (if_pos ⟨hc, ha, by simp [hr]⟩).trans ?_
    exact congrArg Host.Outcome.next (if_neg (by simp [hw]))
  · intro c s h
    change execWatchdogFire c s = _
    unfold execWatchdogFire
    split
    next hs =>
      obtain ⟨hc, ha, hr⟩ := hs
      have hw : s.live.par.wdFired = true := by
        by_contra hn
        exact h ⟨⟨hc, ha, by simpa using hr⟩, by simpa using hn⟩
      exact congrArg Host.Outcome.next (if_pos hw)
    next => rfl
  · rintro s ⟨hf, hc, ht, hr⟩
    exact if_pos ⟨hf, hc, ht, by simp [hr]⟩
  · intro s h
    exact if_neg fun ⟨hf, hc, ht, hr⟩ => h ⟨hf, hc, ht, by simpa using hr⟩
  · intro s h
    refine (if_neg (by simp [h])).trans ?_
    dsimp only
    split <;> rfl
  · intro s h
    exact if_pos h
  · intro s h
    exact if_neg (by simp [h])
  · intro s h
    exact if_pos (by simp [h])
  · rintro s ⟨hk, hp, hc, hb, t, ht, h10⟩
    change execKillOutRelease s = _
    unfold execKillOutRelease
    dsimp only
    rw [ht]
    exact if_pos ⟨hk, hp, hc, hb, h10⟩
  · intro s h
    change execKillOutRelease s = _
    unfold execKillOutRelease
    dsimp only
    split
    next t ht => exact if_neg fun ⟨hk, hp, hc, hb, h10⟩ => h ⟨hk, hp, hc, hb, t, ht, h10⟩
    next => rfl
  · rintro s ⟨hp, hst, ht, hc, hfirst⟩
    refine if_pos ⟨hp, hst, ht, hc, ?_⟩
    grind
  · intro s h
    refine if_neg fun ⟨hp, hst, ht, hc, hfirst⟩ => h ⟨hp, hst, ht, hc, ?_⟩
    grind
  · intro s hp hr h0 h8
    have hall : ∀ c < 8, 0 < c →
        ([c.testBit 2, c.testBit 1, c.testBit 0].map Bool.toNat = [c / 4 % 2, c / 2 % 2, c % 2])
        ∧ (([c.testBit 2, c.testBit 1, c.testBit 0] ++ [decide (c ≠ 0) && ([c.testBit 2, c.testBit 1, c.testBit 0].filter id).length % 2 = 0]).map
            Bool.toNat).sum % 2 = 1 := by decide
    have hpins : s.claimPins = [s.live.par.code.testBit 2, s.live.par.code.testBit 1, s.live.par.code.testBit 0]
        ++ [decide (s.live.par.code ≠ 0)
          && ([s.live.par.code.testBit 2, s.live.par.code.testBit 1, s.live.par.code.testBit 0].filter id).length % 2 = 0] := by
      simp only [State.claimPins, hp, hr]
      rfl
    rw [hpins]
    exact hall _ h8 h0
  · intro s h
    have hc : (if (s.live.pwr.powered && !s.live.pwr.inReset) = true then s.live.par.code else 0) = 0 := by
      rcases h with h | h | h <;> simp [h]
    unfold State.claimPins
    rw [hc]
    rfl
  · intro s
    simp [State.hbo, State.booted, and_assoc]

end Sys2Proof.Claims
end

section
/-! PROOFS. The frames of the pair (R46, R332 to R361): what is heard on the coupling link and the heartbeat path, and what a follower, a
handover and a divergence make of it. -/

namespace Sys2Proof.Machine

open Sys2Proof

/-! What the adoption of a run keeps (R46, R315). -/

/-- The blocks that intervals and passes leave alone. -/
def State.adoptFrame (s : State) : Nat × Epc × Par × Lpe := (s.now, s.live.epc, s.live.par, s.live.lpe)

theorem State.closeInterval_frame (s : State) (kind unit flags : Nat) : (s.closeInterval kind unit flags).adoptFrame = s.adoptFrame := by
  unfold State.closeInterval
  split <;> rfl

theorem State.followPasses_frame (s : State) : s.followPasses.adoptFrame = s.adoptFrame := by
  refine foldl_keeps State.adoptFrame _ (fun s g => ?_) _ _
  dsimp only
  split <;> rfl

theorem State.journal_frame (s : State) (event : Nat) (data : Bytes) (alarm : Bool) :
    (s.journal event data alarm).adoptFrame = s.adoptFrame := by
  obtain ⟨m, hm⟩ := s.journal_blocks event data alarm
  rw [hm]
  rfl

theorem State.adoptRun_frame (s : State) (epoch : Nat) (runId : Word) : (s.adoptRun epoch runId).adoptFrame
    = (s.now, { s.live.epc with
        epoch := epoch, runId := runId, boundaryAt := s.now, commitYra := 0, commitYml := 0, commitDbg := 0 },
      { s.live.par with adopted := true, commitEpoch := epoch, tagsEpoch := epoch },
      { s.live.lpe with nextTick := epoch * s.live.epc.periodMs }) := by
  unfold State.adoptRun
  dsimp only
  generalize hclosed : (if s.live.nrg.run = true then _ else s) = closed
  have fclosed : closed.adoptFrame = s.adoptFrame := by
    rw [← hclosed]
    split
    · refine foldl_keeps State.adoptFrame _ (fun t u => ?_) _ _
      exact t.closeInterval_frame u.1 u.2 1
    · rfl
  generalize hopened : (if s.live.nrg.run = true then _ else State.modEpc closed _) = opened
  have fopened : opened.adoptFrame = (closed.modEpc fun e => { e with
      epoch := epoch, runId := runId, boundaryAt := closed.now, commitYra := 0, commitYml := 0, commitDbg := 0 }).adoptFrame := by
    rw [← hopened]
    split
    · refine foldl_keeps State.adoptFrame _ (fun t u => ?_) _ _
      rfl
    · rfl
  have fpasses := (opened.modLpe fun p => { p with nextTick := epoch * opened.live.epc.periodMs }).followPasses_frame
  generalize State.followPasses _ = passed at fpasses ⊢
  simp only [State.adoptFrame, Prod.mk.injEq] at fclosed fopened fpasses
  obtain ⟨cnow, cepc, cpar, clpe⟩ := fclosed
  obtain ⟨onow, oepc, opar, olpe⟩ := fopened
  obtain ⟨pnow, pepc, ppar, plpe⟩ := fpasses
  have fadopted : (passed.modPar fun p => { p with adopted := true, commitEpoch := epoch, tagsEpoch := epoch }).adoptFrame
      = (s.now, { s.live.epc with
          epoch := epoch, runId := runId, boundaryAt := s.now, commitYra := 0, commitYml := 0, commitDbg := 0 },
        { s.live.par with adopted := true, commitEpoch := epoch, tagsEpoch := epoch },
        { s.live.lpe with nextTick := epoch * s.live.epc.periodMs }) := by
    simp only [State.adoptFrame, State.modPar_epc, State.modPar_par, State.modPar_lpe, Prod.mk.injEq]
    refine ⟨pnow.trans (onow.trans cnow), ?_, ?_, ?_⟩
    · rw [pepc, State.modLpe_epc, oepc, State.modEpc_epc, cepc, cnow]
    · rw [ppar, State.modLpe_par, opar, State.modEpc_par, cpar]
    · rw [plpe, State.modLpe_lpe, olpe, State.modEpc_lpe, clpe, oepc, State.modEpc_epc, cepc]
  split
  · exact fadopted
  · exact (State.journal_frame _ _ _ _).trans fadopted

end Sys2Proof.Machine

namespace Sys2Proof.Claims

open Sys2Proof Sys2Proof.Machine

/-- Two protocol versions that do not work together. -/
theorem not_versionsAgree {s : State} {minor major : Nat} : ¬ VersionsAgree s minor major ↔
    (major ≠ s.live.cplMajor ∨ 1 < minor - s.live.cplMinor ∨ 1 < s.live.cplMinor - minor) := by
  unfold VersionsAgree
  omega

/-- Settles O30. -/
theorem thePairKeepsInTouch : Obligations.ThePairKeepsInTouch := by
  refine ⟨?_, ?_, ?_, ?_, ?_, ?_, ?_, ?_, ?_, ?_, ?_, ?_, ?_, ?_, ?_, ?_, ?_, ?_, ?_⟩
  · intro s h
    exact if_pos h
  · intro s h
    exact if_neg (by simp [h])
  · intro h s hl
    refine (if_neg (by simp [hl])).trans ((if_neg (by simp)).trans ?_)
    simp only [Bool.not_eq_true']
  · intro h s hl
    exact (if_neg (by simp [hl])).trans (if_pos rfl)
  · intro ok h s hl
    exact if_pos (by simp [hl])
  · intro s hp hb
    exact if_pos ⟨hp, hb⟩
  · intro s h
    refine if_neg fun hn => ?_
    rcases h with h | h
    · exact hn.1 h
    · simp [h] at hn
  · intro s hp hb
    exact if_pos ⟨hp, hb⟩
  · intro s h
    refine if_neg fun hn => ?_
    rcases h with h | h
    · exact hn.1 h
    · simp [h] at hn
  · intro hb s hp hu ho
    refine (if_neg ?_).trans ?_
    · cases hb <;> simp_all [pathUp]
    · cases hb <;> simp [pathBack]
  · intro hb s h
    refine if_pos (h.imp_right fun hu => ?_)
    cases hb <;> simp_all [pathUp]
  · rintro x mi ma q d s ⟨hl, hp, hst⟩
    refine (if_neg (by simp [hl])).trans ((if_neg (by simp)).trans ((if_pos ⟨hp, hst⟩).trans (if_pos rfl)))
  · rintro r x mi ma q d s ⟨hl, hp, hst⟩ hr hv
    refine (if_neg (by simp [hl])).trans ((if_neg (by simp)).trans ((if_pos ⟨hp, hst⟩).trans ((if_neg hr).trans (if_pos ?_))))
    exact not_versionsAgree.mp hv
  · rintro r x mi ma q d s ⟨hl, hp, hst⟩ hr hv hd
    refine (if_neg (by simp [hl])).trans ((if_neg (by simp)).trans ((if_pos ⟨hp, hst⟩).trans ((if_neg hr).trans ((if_neg ?_).trans
      (if_pos hd)))))
    exact fun hn => not_versionsAgree.mpr hn hv
  · rintro r x mi ma q d s ⟨hl, hp, hst⟩ hr hv hd
    refine (if_neg (by simp [hl])).trans ((if_neg (by simp)).trans ((if_pos ⟨hp, hst⟩).trans ((if_neg hr).trans ((if_neg ?_).trans
      (if_neg (not_not.mpr hd))))))
    exact fun hn => not_versionsAgree.mpr hn hv
  · intro r x mi ma q d s hl hp hst
    exact (if_neg (by simp [hl])).trans ((if_neg (by simp)).trans ((if_neg fun hn => hst hn.2).trans (congrArg Host.Outcome.next (if_pos hp))))
  · intro r x mi ma q d s hl hp
    refine (if_neg (by simp [hl])).trans ((if_neg (by simp)).trans ((if_neg fun hn => ?_).trans (congrArg Host.Outcome.next (if_neg ?_))))
    · exact absurd (hp.symm.trans hn.1) (by decide)
    · exact fun hn => absurd (hp.symm.trans hn) (by decide)
  · intro r x mi ma q d s hl
    exact (if_neg (by simp [hl])).trans (if_pos rfl)
  · intro ok r x mi ma q d s hl
    exact if_pos (by simp [hl])

/-! The follower. -/

theorem Following.passes {s : State} (h : Following s) : ¬ ((!s.linkRuns) = true ∨ (!s.follows) = true) := by
  simp [h.1, h.2]

theorem not_following {s : State} (h : ¬ Following s) : (!s.linkRuns) = true ∨ (!s.follows) = true := by
  by_contra hn
  simp only [not_or, Bool.not_eq_true', Bool.not_eq_false] at hn
  exact h hn

/-- Settles O31. -/
theorem theStandbyFollows : Obligations.TheStandbyFollows := by
  refine ⟨?_, ?_, ?_, ?_, ?_, ?_, ?_, ?_, ?_, ?_, ?_, ?_, ?_, ?_, ?_, ?_, ?_, ?_, ?_, ?_, ?_, ?_, ?_, ?_, ?_, ?_, ?_, ?_⟩
  · intro e r c o s h hb ha
    refine (if_neg h.passes).trans ((if_neg (by simp)).trans ((if_neg (by simp [hb])).trans ((if_pos ha).trans ?_)))
    simp only [boundaryHeard, Bool.or_eq_true, decide_eq_true_eq]
    rfl
  · intro e r c o s h hb ha
    refine (if_neg h.passes).trans ((if_neg (by simp)).trans ((if_neg (by simp [hb])).trans ((if_neg (by simp [ha])).trans ?_)))
    simp only [boundaryHeard, Bool.or_eq_true, decide_eq_true_eq]
    rfl
  · intro s e r
    have h := s.adoptRun_frame e r
    simp only [State.adoptFrame, Prod.mk.injEq] at h
    exact h.2
  · intro e r c o s h hb
    exact (if_neg h.passes).trans ((if_neg (by simp)).trans (if_pos (by simp [hb])))
  · intro e r c o s h
    exact (if_neg h.passes).trans (if_pos rfl)
  · intro ok e r c o s h
    exact if_pos (not_following h)
  · intro e ws sn st cs s h
    refine ⟨(sn.map fun x => (e, x)) <|> s.live.par.snapIn, (st.map fun x => (e, x)) <|> s.live.par.stepIn, ?_, ?_, ?_, ?_, ?_⟩
    · exact (if_neg h.passes).trans (if_neg (by simp))
    · rintro l rfl
      rfl
    · rintro rfl
      rfl
    · rintro l rfl
      rfl
    · rintro rfl
      rfl
  · intro e ws sn st cs s h
    exact (if_neg h.passes).trans (if_pos rfl)
  · intro ok e ws sn st cs s h
    exact if_pos (not_following h)
  · intro s h
    exact if_pos h
  · intro s h
    exact if_neg h
  · intro e l s h
    exact (if_neg h.passes).trans (if_neg (by simp))
  · intro e l s h
    exact (if_neg h.passes).trans (if_pos rfl)
  · intro ok e l s h
    exact if_pos (not_following h)
  · intro src a v s h
    exact (if_neg h.passes).trans (if_neg (by simp))
  · intro src a v s h
    exact (if_neg h.passes).trans (if_pos rfl)
  · intro ok src a v s h
    exact if_pos (not_following h)
  · intro e q d l s h
    exact (if_neg h.passes).trans (if_neg (by simp))
  · intro e q d s h
    exact (if_neg h.passes).trans (if_neg (by simp))
  · intro e q d l s h
    exact (if_neg h.passes).trans (if_pos rfl)
  · intro ok e q d l s h
    exact if_pos (not_following h)
  · intro g s h ht
    exact (if_neg h.passes).trans ((if_neg (by simp)).trans (if_pos ht))
  · intro g s h ht
    exact (if_neg h.passes).trans ((if_neg (by simp)).trans (if_neg ht))
  · intro s h
    exact (if_neg h.passes).trans (if_neg (by simp))
  · intro g s h
    exact (if_neg h.passes).trans (if_pos rfl)
  · intro ok g s h
    exact if_pos (not_following h)
  · rintro s ⟨hp, ht, hi, ha, he⟩
    exact ⟨_, if_pos ⟨hp, ht, hi, ha, he, rfl⟩, rfl⟩
  · intro ok s h
    exact if_neg fun ⟨hp, ht, hi, ha, he, hok⟩ => h ⟨⟨hp, ht, hi, ha, he⟩, hok⟩

/-! The handover. -/

/-- The conditions of a handover's start pass at its output instant. -/
theorem HandoverNow.exec {s : State} {e c : Nat} (h : HandoverNow s e c) : exec .handoverStart s =
    if s.live.par.pstate = 7 ∨ (s.live.par.pstate = 6 ∧ s.live.par.cutover = true) then
      .next ((((s.setClaim 0).modPar fun p => { p with
        pstate := 9, planned := true, hoLeft := 2, handover := none, cause := c }).switchMode .handover).holderChange c)
    else if s.live.par.pstate = 4 ∨ (s.live.par.pstate = 5 ∧ s.live.par.cutover = true) then .next (s.enterTaking 0 c true)
    else .next s := by
  obtain ⟨hh, hp, he, ht⟩ := h
  change execHandoverStart s = _
  unfold execHandoverStart
  dsimp only
  rw [hh]
  refine if_neg ?_
  rintro (h | h | h)
  · simp [hp] at h
  · exact h he
  · omega

/-- Settles O32. -/
theorem theClaimIsHandedOver : Obligations.TheClaimIsHandedOver := by
  refine ⟨?_, ?_, ?_, ?_, ?_, ?_, ?_, ?_, ?_, ?_, ?_, ?_, ?_, ?_, ?_⟩
  · intro e c s hl hp hst
    exact (if_neg (by simp [hl])).trans ((if_neg (by simp)).trans (if_pos ⟨hp, hst⟩))
  · intro e c s hl h
    refine (if_neg (by simp [hl])).trans ((if_neg (by simp)).trans (if_neg ?_))
    rintro ⟨hp, hst⟩
    rcases h with h | ⟨h4, h5⟩
    · exact absurd (h.symm.trans hp) (by decide)
    · exact hst.elim h4 h5
  · intro e c s hl
    exact (if_neg (by simp [hl])).trans (if_pos rfl)
  · intro ok e c s hl
    exact if_pos (by simp [hl])
  · intro e c s h hg
    exact h.exec.trans (if_pos hg)
  · intro e c s h ht
    refine h.exec.trans ((if_neg fun hg => ?_).trans (if_pos ht))
    rcases ht with ht | ht <;> rcases hg with hg | hg <;> omega
  · intro s h
    change execHandoverStart s = _
    unfold execHandoverStart
    dsimp only
    split
    next => rfl
    next e c hh =>
      split
      next => rfl
      next => exact (if_neg fun hg => h (.inl hg)).trans (if_neg fun ht => h (.inr ht))
  · intro s h
    change execHandoverStart s = _
    unfold execHandoverStart
    dsimp only
    split
    next => rfl
    next e c hh =>
      refine if_pos ?_
      by_contra hn
      simp only [not_or, Bool.not_eq_true', Bool.not_eq_false, not_not, Nat.not_lt] at hn
      exact h e c ⟨hh, hn.1, hn.2.1, hn.2.2⟩
  · rintro s ⟨hb, hm, hz, hp⟩ hst
    exact (if_neg (by simp [hb, hm, hz, hp])).trans (if_neg hst)
  · rintro s ⟨hb, hm, hz, hp⟩ hst
    refine (if_neg (by simp [hb, hm, hz, hp])).trans ((if_pos hst).trans ?_)
    by_cases hs : s.live.par.takenMode = 11 ∧ s.live.par.takenSafe = true
    · exact (if_pos hs).trans (congrArg Host.Outcome.next (if_pos hs).symm)
    · exact (if_neg hs).trans (congrArg Host.Outcome.next (if_neg hs).symm)
  · intro s h
    refine if_pos ?_
    by_contra hn
    simp only [not_or, Bool.not_eq_true', Bool.not_eq_false, not_not] at hn
    exact h hn
  · rintro s ⟨hp, hc, t, ht, hn⟩
    change execTakeBack s = _
    unfold execTakeBack
    rw [ht]
    exact if_pos ⟨hp, hc, hn⟩
  · intro s h
    change execTakeBack s = _
    unfold execTakeBack
    split
    next t ht => exact if_neg fun ⟨hp, hc, hn⟩ => h ⟨hp, hc, t, ht, hn⟩
    next => rfl
  · rintro s ⟨hp, hst, hpl, hc, hpc, ht⟩
    exact if_pos ⟨hp, hst, hpl, by simp [hc], hpc, ht⟩
  · intro s h
    exact if_neg fun ⟨hp, hst, hpl, hc, hpc, ht⟩ => h ⟨hp, hst, hpl, by simpa using hc, hpc, ht⟩

/-! The comparison. -/

/-- The link runs in a pair. -/
theorem linked_passes {s : State} (hl : s.linkRuns = true) (hp : s.paired = true) : ¬ ((!s.linkRuns) = true ∨ (!s.paired) = true) := by
  simp [hl, hp]

theorem not_linked {s : State} (h : s.linkRuns = false ∨ s.paired = false) : (!s.linkRuns) = true ∨ (!s.paired) = true :=
  h.imp (fun h => by rw [h]; rfl) (fun h => by rw [h]; rfl)

theorem Compares.passes {s : State} (h : Compares s) : ¬ ((!s.linkRuns) = true ∨ (!s.follows) = true ∨ s.live.par.pstate ≠ 4
    ∨ (!s.live.par.linkOk) = true ∨ s.live.par.p4800 = true) := by
  obtain ⟨⟨hl, hf⟩, hst, ho, h48⟩ := h
  simp [hl, hf, hst, ho, h48]

/-- A divergence that is resolved at this boundary. -/
theorem ResolveDue.exec {s : State} {own : Bool} (h : ResolveDue s own) : exec .divergenceResolve s = .next (
    let other := s.live.par.divPartner.getD false
    let act := if s.live.par.gate then own else other
    let stb := if s.live.par.gate then other else own
    (if s.live.par.gate = true ∧ (!act) = true ∧ stb = true then ((resolved s act stb).setClaim 0).holderChange 7
      else resolved s act stb).settlePair.repour) := by
  obtain ⟨t, ht, ho, hb, hp, hr⟩ := h
  change execDivergenceResolve s = _
  unfold execDivergenceResolve
  dsimp only
  rw [ht, ho]
  refine if_neg ?_
  rintro (h | h | ⟨hn, h⟩)
  · simp [hb] at h
  · simp [hp] at h
  · rcases hr with hr | hr
    · exact hr (by simpa using hn)
    · omega

/-- Settles O33. -/
theorem outputsAreCompared : Obligations.OutputsAreCompared := by
  refine ⟨?_, ?_, ?_, ?_, ?_, ?_, ?_, ?_, ?_, ?_, ?_, ?_, ?_, ?_, ?_, ?_, ?_, ?_, ?_, ?_⟩
  · intro l s h
    refine (if_neg h.passes).trans ((if_neg (by simp)).trans ?_)
    congr 2
    funext s x
    simp [compared]
  · intro l s h
    exact (if_neg h.passes).trans (if_pos rfl)
  · intro ok l s h
    refine if_pos ?_
    by_contra hn
    simp only [not_or, Bool.not_eq_true', Bool.not_eq_false, not_not, Bool.not_eq_true] at hn
    obtain ⟨hl, hf, hst, ho, h48⟩ := hn
    exact h ⟨⟨hl, hf⟩, hst, ho, h48⟩
  · intro k i v s hl hp
    exact (if_neg (linked_passes hl hp)).trans (if_neg (by simp))
  · intro k i v s hl hp
    exact (if_neg (linked_passes hl hp)).trans (if_pos rfl)
  · intro ok k i v s h
    exact if_pos (not_linked h)
  · intro own s h hg
    have hcond : ((!own) = true ∧ s.live.par.divPartner.getD false = true) ↔ (own = false ∧ s.live.par.divPartner = some true) := by
      rcases s.live.par.divPartner with _ | _ | _ <;> simp
    rw [h.exec]
    simp only [hg, if_true, true_and, hcond]
  · intro own s h hg
    rw [h.exec]
    simp [hg]
  · intro s h
    change execDivergenceResolve s = _
    unfold execDivergenceResolve
    dsimp only
    split
    next t own ht ho =>
      refine if_pos ?_
      by_contra hn
      simp only [not_or, Bool.not_eq_true', Bool.not_eq_false, not_and, Nat.not_lt, Option.isNone_iff_eq_none] at hn
      obtain ⟨hb, hp, hr⟩ := hn
      exact h own ⟨t, ht, ho, hb, hp, Decidable.or_iff_not_imp_left.mpr fun hne => hr (not_not.mp hne)⟩
    next => rfl
  · intro ok s hc
    exact if_neg (by simp [hc])
  · intro ok s hc
    exact if_neg (by simp [hc])
  · intro ok s hc
    exact if_neg (by simp [hc])
  · intro ok s hc hg hp
    exact (if_neg (by simp [hc])).trans (if_neg (by simp [hg, hp]))
  · intro n ok s h
    change execSelftestPeriodic n ok s = _
    unfold execSelftestPeriodic
    by_cases hc : s.live.epc.casting = false
    · exact if_pos (by simp [hc])
    · rw [if_neg (by simpa using hc)]
      have hn := h.resolve_left hc
      split
      · omega
      · omega
      · omega
      · exact if_pos ((hn.resolve_left (by omega)).2.imp_right fun hp => by simp [hp])
      · rfl
  · intro ok s hl hp hd
    refine (if_neg (linked_passes hl hp)).trans ((if_neg (by simp)).trans (congrArg Host.Outcome.next (if_pos ?_)))
    exact Option.isSome_iff_ne_none.mpr hd
  · intro ok s hl hp hd
    exact (if_neg (linked_passes hl hp)).trans ((if_neg (by simp)).trans (congrArg Host.Outcome.next (if_neg (by simp [hd]))))
  · intro ok s hl hp
    exact (if_neg (linked_passes hl hp)).trans (if_pos rfl)
  · intro good ok s h
    exact if_pos (not_linked h)
  · intro a b c d s h
    obtain ⟨t, ht⟩ := Option.ne_none_iff_exists'.mp h
    change execSelftestComplete a b c d s = _
    unfold execSelftestComplete
    rw [ht]
  · intro a b c d s h
    change execSelftestComplete a b c d s = _
    unfold execSelftestComplete
    rw [h]

end Sys2Proof.Claims
end

section
/-! PROOFS. The Ethernet ports, the clocks of the network, YRA and YSP (R363 to R389). -/

namespace Sys2Proof.Claims

open Sys2Proof Sys2Proof.Machine

theorem not_frameGood {s : State} {p : Nat} {f : EthFrame} : ¬ FrameGood s p f ↔
    f.ok = false ∨ (if redundant s p f = true ∧ f.prp.isSome = true then 1528 else 1522) < f.len := by
  rw [FrameGood, not_and_or, Bool.not_eq_true, Nat.not_le]

/-- A good frame is counted (R363). -/
theorem exec_goodFrame {p : Nat} {f : EthFrame} {s : State} (hon : s.portOn p = true) (hgood : FrameGood s p f) :
    exec (.ethFrameRx p f) s = if !s.live.cst.vlanOk p f.vid then .next (frameCounted s p) else
      match redundant s p f, f.prp with
      | true, some (src, seq, lan) =>
        let a := lanChecked (frameCounted s p) lan
        let tab := a.live.eth.freshDups a.now
        if tab.any fun d => d.1 = src ∧ d.2.1 = seq then .next (a.modEth fun e => { e with dups := tab, prpDup := sat32 e.prpDup })
        else .next ((a.modEth fun e => { e with dups := (tab ++ [(src, seq, a.now)]).drop (tab.length + 1 - 2048) }).ethAccept p f)
      | _, _ => .next ((frameCounted s p).ethAccept p f) := by
  have hok : ¬ ((!f.ok) = true ∨ (if (redundant s p f && f.prp.isSome) = true then 1528 else 1522) < f.len) := by
    obtain ⟨hf, hl⟩ := hgood
    simp only [hf, Bool.not_true, Bool.false_eq_true, false_or, Bool.and_eq_true]
    exact Nat.not_lt.mpr hl
  change execEthFrameRx p f s = _
  unfold execEthFrameRx
  rw [hon]
  exact if_neg hok

/-- What a frame that no good sequence or length passes does (R363). -/
theorem exec_badFrame {p : Nat} {f : EthFrame} {s : State} (hon : s.portOn p = true) (hbad : ¬ FrameGood s p f) :
    exec (.ethFrameRx p f) s = .next (s.modEth fun e => e.setPort p { s.live.eth.port p with err := sat32 (s.live.eth.port p).err }) := by
  have hok : (!f.ok) = true ∨ (if (redundant s p f && f.prp.isSome) = true then 1528 else 1522) < f.len := by
    simpa only [Bool.and_eq_true, Bool.not_eq_true'] using not_frameGood.mp hbad
  change execEthFrameRx p f s = _
  unfold execEthFrameRx
  rw [hon]
  exact if_pos hok

/-- Settles O34. -/
theorem portsRun : Obligations.PortsRun := by
  refine ⟨?_, ?_, ?_, ?_, ?_, ?_, ?_, ?_, ?_, ?_, ?_, ?_, ?_, ?_⟩
  · intro p up g s hp
    exact if_neg (Nat.not_le.mpr hp)
  · intro p up g s hp
    exact if_pos hp
  · intro p f s hon hbad
    exact exec_badFrame hon hbad
  · intro p f s hon hgood hvlan
    rw [exec_goodFrame hon hgood, hvlan]
    rfl
  · intro p f s hon hgood hvlan hplain
    rw [exec_goodFrame hon hgood, hvlan]
    rcases hplain with h | h
    · rw [h]
      rfl
    · rw [h]
      cases redundant s p f <;> rfl
  · intro p f s src seq lan hon hgood hvlan hred hprp
    rw [exec_goodFrame hon hgood, hvlan, hred, hprp]
    exact (apply_ite Host.Outcome.next _ _ _).symm
  · intro p f s hon
    exact if_pos (by simp [hon])
  · intro s ⟨hmode, hdue, hcp, hcast⟩
    change execPrpSupervision s = _
    unfold execPrpSupervision
    cases hat : s.live.eth.supAt with
    | none => exact if_pos ⟨hmode, rfl, hcp, hcast⟩
    | some t => exact if_pos ⟨hmode, hdue t hat, hcp, hcast⟩
  · intro s h
    change execPrpSupervision s = _
    unfold execPrpSupervision
    cases hat : s.live.eth.supAt with
    | none => exact if_neg fun ⟨hmode, _, hcp, hcast⟩ => h ⟨hmode, by simp [hat], hcp, hcast⟩
    | some t => exact if_neg fun ⟨hmode, hdue, hcp, hcast⟩ => h ⟨hmode, by simpa [hat] using hdue, hcp, hcast⟩
  · intro p ip a s hup hip
    exact if_pos (by simp [hup, hip])
  · intro p ip a s h
    exact if_neg (by rcases h with h | h <;> simp [h])
  · intro p ip i l s hup hip
    exact if_pos (by simp [hup, hip])
  · intro p ip i l s h
    exact if_neg (by rcases h with h | h <;> simp [h])
  · intro g s
    rfl

/-- A slot that follows passes the checks of a message of its clock. -/
theorem SlotFollows.passes {s : State} {d port : Nat} {P : Prop} (h : SlotFollows s d port) (hP : ¬ P) :
    ¬ ((!s.portOn port) = true ∨ (!s.live.pwr.cpRunning) = true ∨ d ≥ 2 ∨ s.live.cst.ptpMode d ≠ 1 ∨ P) := by
  obtain ⟨hd, hmode, hon, hcp⟩ := h
  simp [hd, hmode, hon, hcp, hP]

/-- A slot that does not follow fails one of those checks. -/
theorem not_slotFollows {s : State} {d port : Nat} (h : ¬ SlotFollows s d port) :
    (!s.portOn port) = true ∨ (!s.live.pwr.cpRunning) = true ∨ d ≥ 2 ∨ s.live.cst.ptpMode d ≠ 1 := by
  by_contra hn
  simp only [not_or, Bool.not_eq_true', Bool.not_eq_false, not_not, Nat.not_le] at hn
  obtain ⟨hon, hcp, hd, hmode⟩ := hn
  exact h ⟨hd, hmode, hon, hcp⟩

/-- What an Announce of the slot's domain makes of a slot that follows (R374). -/
theorem exec_announce {d port : Nat} {ds : List Nat} {u : Int} {s : State} (h : SlotFollows s d port) :
    exec (.ptpAnnounce d port (u8 (s.live.cst.netPtp d) 0) ds u) s = .next (s.modPtp fun p => p.setSlot d
      (let x := s.live.ptp.slot d
      match x.master with
      | none => { x with master := some (port, ds), utcOfs := u, heardAt := s.now }
      | some (q, old) =>
        if q = port ∧ old.getD 5 0 = ds.getD 5 0 then { x with master := some (port, ds), utcOfs := u, heardAt := s.now }
        else if betterMaster port ds q old || x.silent (s.live.cst.lossS d) s.now then
          let y : PtpSlot := { x with master := some (port, ds), utcOfs := u, heardAt := s.now }
          if old.getD 5 0 = ds.getD 5 0 then y else y.acquire
        else x)).settlePtp :=
  if_neg (h.passes (by simp))

/-- The slot's Sync is that of its master (R375). -/
theorem SyncTaken.passes {s : State} {d port : Nat} (h : SyncTaken s d port) : ¬ (d ≥ 2 ∨ s.live.cst.ptpMode d ≠ 1
    ∨ (!s.portOn port) = true ∨ (!s.live.pwr.cpRunning) = true ∨ (s.live.ptp.slot d).master.map Prod.fst ≠ some port) := by
  obtain ⟨⟨hd, hmode, hon, hcp⟩, ds, hm⟩ := h
  simp [hd, hmode, hon, hcp, hm]

theorem not_syncTaken {s : State} {d port : Nat} (h : ¬ SyncTaken s d port) : d ≥ 2 ∨ s.live.cst.ptpMode d ≠ 1
    ∨ (!s.portOn port) = true ∨ (!s.live.pwr.cpRunning) = true ∨ (s.live.ptp.slot d).master.map Prod.fst ≠ some port := by
  by_contra hn
  simp only [not_or, Bool.not_eq_true', Bool.not_eq_false, not_not, Nat.not_le] at hn
  obtain ⟨hd, hmode, hon, hcp, hm⟩ := hn
  obtain ⟨master, hmaster, hq⟩ := Option.map_eq_some_iff.mp hm
  obtain ⟨q, ds⟩ := master
  obtain rfl : q = port := hq
  exact h ⟨⟨hd, hmode, hon, hcp⟩, ds, hmaster⟩

/-- The count of small offsets, as the servo takes it. -/
theorem smallRun_eq (th : Dy) (x : PtpSlot) :
    (if !(({ m := 1000 } : Dy).le { th with m := th.m.natAbs }) then x.small + 1 else 0) = smallRun th x := by
  unfold smallRun
  cases ({ m := 1000 } : Dy).le { th with m := th.m.natAbs } <;> rfl

/-- What a Sync of its master makes of a slot (R375). -/
theorem exec_sync {d port ago : Nat} {t1 c l : Int} {s : State} (h : SyncTaken s d port) :
    exec (.ptpSync d port t1 c l ago) s =
      let th := syncTheta s d port ago t1 c
      let x := syncNoted s d port ago t1 c
      if (s.live.ptp.slot d).servoOff then .next (s.modPtp fun p => p.setSlot d x)
      else if !(s.live.ptp.slot d).acquired ∨ !withinStep s d th then
        .next (((s.modPtp fun p => p.setSlot d { x with acquired := true, small := smallRun th (s.live.ptp.slot d) }).modPtp
          fun p => p.stepClock d (-((th.mul { m := 1, e := 28 }).scaleRound 1 1)) s.live.cst.slewPpb s.now).settlePtp)
      else .next (s.modPtp fun p => p.setSlot d (servoStep s d th l x)).settlePtp := by
  have hsmall := smallRun_eq (syncTheta s d port ago t1 c)
  unfold servoStep
  dsimp only
  rw [← hsmall, ← hsmall]
  exact if_neg h.passes

/-- Settles O35. -/
theorem networkTimeIsKept : Obligations.NetworkTimeIsKept := by
  refine ⟨?_, ?_, ?_, ?_, ?_, ?_, ?_, ?_, ?_, ?_, ?_, ?_, ?_, ?_, ?_, ?_, ?_, ?_, ?_, ?_⟩
  · intro d port ds u s h hm
    rw [exec_announce h]
    dsimp only
    rw [hm]
  · intro d port ds u s old h hm hgm
    rw [exec_announce h]
    dsimp only
    rw [hm]
    dsimp only
    rw [if_pos ⟨rfl, hgm⟩]
  · intro d port ds u s q old h hm hother hbetter
    rw [exec_announce h]
    dsimp only
    rw [hm]
    dsimp only
    rw [if_neg hother, if_pos (by simpa using hbetter)]
  · intro d port ds u s q old h hm hother hworse hheard
    rw [exec_announce h]
    dsimp only
    rw [hm]
    dsimp only
    rw [if_neg hother, if_neg (by simp [hworse, hheard])]
  · intro d port dom ds u s h
    refine if_pos ?_
    rcases h with h | h
    · rcases not_slotFollows h with h | h | h | h <;> simp [h]
    · simp [h]
  · intro d port t1 c l ago s h hoff
    rw [exec_sync h]
    exact if_pos hoff
  · intro d port t1 c l ago s h hon hfar
    rw [exec_sync h]
    exact (if_neg (by simp [hon])).trans (if_pos (by simpa using hfar))
  · intro d port t1 c l ago s h hon hacq hnear
    rw [exec_sync h]
    exact (if_neg (by simp [hon])).trans (if_neg (by simp [hacq, hnear]))
  · intro d port t1 c l ago s h
    exact if_pos (not_syncTaken h)
  · intro d s port ds ⟨hd, hmode, hon, hcp⟩ hm
    change execDelayReq d s = _
    unfold execDelayReq
    dsimp only
    rw [hm]
    exact if_neg (by simp [hd, hmode, hon, hcp])
  · intro d s h
    change execDelayReq d s = _
    unfold execDelayReq
    dsimp only
    split
    next => rfl
    next port ds hm =>
      refine if_pos ?_
      rcases not_slotFollows fun hf => h port ds ⟨hf, hm⟩ with h | h | h | h <;> simp [h]
  · intro d q t4 s port ds e hd hmode hcp hm he
    change execDelayResp d q t4 s = _
    unfold execDelayResp
    dsimp only
    rw [hm]
    dsimp only
    rw [he]
    exact if_neg (by simp [hd, hmode, hcp])
  · intro d q t4 s h
    change execDelayResp d q t4 s = _
    unfold execDelayResp
    dsimp only
    split
    next => rfl
    next port ds hm =>
      split
      next => rfl
      next e he => exact if_pos (by simpa [hm] using h)
  · intro d q t4 s port ds hm he
    change execDelayResp d q t4 s = _
    unfold execDelayResp
    dsimp only
    rw [hm]
    dsimp only
    rw [he]
  · intro d s h
    exact if_pos h
  · intro d s h
    exact if_neg h
  · intro s h
    exact if_pos h
  · intro s h
    exact if_neg h
  · intro d s sec0 load ⟨harm, hd, hsec⟩
    change execPtpArmedLoad d s = _
    unfold execPtpArmedLoad
    dsimp only
    rw [harm]
    exact if_pos ⟨hd, hsec⟩
  · intro d s h
    change execPtpArmedLoad d s = _
    unfold execPtpArmedLoad
    dsimp only
    split
    next => rfl
    next sec0 load harm => exact if_neg fun ⟨hd, hsec⟩ => h sec0 load ⟨harm, hd, hsec⟩

/-- Settles O36. -/
theorem yraSessionsAreServed : Obligations.YraSessionsAreServed := by
  refine ⟨?_, ?_, ?_, ?_, ?_, ?_, ?_, ?_, ?_, ?_, ?_, ?_, ?_, ?_⟩
  · intro r n ctr s slot hhears ⟨hfree, hopens⟩
    change execYraOpen r n ctr s = _
    unfold execYraOpen
    rw [hhears]
    refine (if_neg (by simp)).trans ?_
    dsimp only
    split
    next slot' hfree' =>
      obtain rfl : slot' = slot := Option.some.inj (hfree'.symm.trans hfree)
      exact if_pos hopens
    next hnone => exact absurd (hnone.symm.trans hfree) (by simp)
  · intro r n ctr s hhears h
    change execYraOpen r n ctr s = _
    unfold execYraOpen
    rw [hhears]
    refine (if_neg (by simp)).trans ?_
    dsimp only
    split
    next slot hfree => exact if_neg fun hopens => h slot ⟨hfree, hopens⟩
    next => rfl
  · intro r n ctr s h
    exact if_pos (by simp [h])
  · intro i mac ctr s o key hhears ⟨ho, hkey, hmac, hopens⟩
    change execYraProve i mac ctr s = _
    unfold execYraProve
    rw [hhears, ho]
    refine (if_neg (by simp)).trans ?_
    dsimp only
    rw [hkey]
    exact if_pos ⟨hmac, hopens⟩
  · intro i mac ctr s hhears h
    change execYraProve i mac ctr s = _
    unfold execYraProve
    rw [hhears]
    refine (if_neg (by simp)).trans ?_
    split
    next => rfl
    next o ho =>
      split
      next => rfl
      next key hkey => exact if_neg fun ⟨hmac, hopens⟩ => h o key ⟨ho, hkey, hmac, hopens⟩
  · intro i mac ctr s h
    exact if_pos (by simp [h])
  · intro i ctr as d s x ⟨hhears, hx, hnew⟩
    exact congrArg Host.Outcome.next (yraRequest_new hhears hx hnew)
  · intro i ctr s x ⟨hhears, hx, hnew⟩
    exact congrArg Host.Outcome.next (yraRequest_new hhears hx hnew)
  · intro i ctr as d s x hhears hx
    exact ⟨congrArg Host.Outcome.next (yraRequest_untagged hhears hx), congrArg Host.Outcome.next (yraRequest_untagged hhears hx)⟩
  · intro i ctr as d s x m hhears hx hctr hreply
    exact ⟨congrArg Host.Outcome.next (yraRequest_repeated hhears hx hctr hreply),
      congrArg Host.Outcome.next (yraRequest_repeated hhears hx hctr hreply)⟩
  · intro i ctr as d s x c hhears hx hctr hold
    exact ⟨congrArg Host.Outcome.next (yraRequest_old hhears hx hctr hold),
      congrArg Host.Outcome.next (yraRequest_old hhears hx hctr hold)⟩
  · intro ok i ctr as d s h
    exact ⟨congrArg Host.Outcome.next (yraRequest_unknown h), congrArg Host.Outcome.next (yraRequest_unknown h)⟩
  · intro i s ⟨x, hx, hidle⟩
    change execYraSessionTimeout i s = _
    unfold execYraSessionTimeout
    rw [hx]
    exact if_pos hidle
  · intro i s h
    change execYraSessionTimeout i s = _
    unfold execYraSessionTimeout
    split
    next x hx => exact if_neg fun hidle => h ⟨x, hx, hidle⟩
    next => rfl

/-- With the network up a frame of a substation is checked (R389). -/
theorem NetworkUp.passes {s : State} (h : NetworkUp s) :
    ¬ ((!(s.portOn 0 || s.portOn 1)) = true ∨ (!s.live.pwr.cpRunning) = true) := by
  obtain ⟨hon, hcp⟩ := h
  simpa [hcp, Decidable.imp_iff_not_or] using hon

/-- Settles O37. -/
theorem substationsReport : Obligations.SubstationsReport := by
  refine ⟨?_, ?_, ?_, ?_, ?_, ?_⟩
  · intro f s hup hcheck
    change execTelemetry f s = _
    unfold execTelemetry
    rw [hcheck]
    exact if_neg hup.passes
  · intro f s c hup hcheck hquiet
    change execTelemetry f s = _
    unfold execTelemetry
    rw [hcheck]
    refine (if_neg hup.passes).trans (congrArg Host.Outcome.next (if_neg ?_))
    rintro ⟨rfl, hsync⟩
    rcases hquiet with hquiet | hquiet
    · exact hquiet rfl
    · have hsync : (!(s.live.eth.sub f.sub).rejSync) = true := hsync
      simp [hquiet] at hsync
  · intro f s hup hcheck hfirst
    have hfirst : (!((s.modEth fun e => { e with yspRej := satAdd 28 e.yspRej 1, yspLast := 5 }).live.eth.sub f.sub).rejSync) = true :=
      Bool.not_eq_true' _ |>.mpr hfirst
    change execTelemetry f s = _
    unfold execTelemetry
    rw [hcheck]
    exact (if_neg hup.passes).trans (congrArg Host.Outcome.next (if_pos ⟨rfl, hfirst⟩))
  · intro f s h
    refine if_pos ?_
    by_contra hn
    simp only [not_or, Bool.not_eq_true', Bool.not_eq_false, Bool.or_eq_true] at hn
    exact h hn
  · intro i s h
    refine (if_pos h).trans ?_
    dsimp only
    cases s.yspSettle.live.pln.record <;> rfl
  · intro i s h
    exact if_neg h

end Sys2Proof.Claims
end

section
/-! PROOFS. The CAN controllers, the backup domain and the calendar (R393 to R428). -/

namespace Sys2Proof.Claims

open Sys2Proof Sys2Proof.Machine

/-- A controller that hears its bus takes the frame (R393). -/
theorem BusHeard.passes {s : State} {c : Nat} (h : BusHeard s c) :
    ¬ ((!s.canRuns) = true ∨ (!decide ((s.live.can.ctl c).onBus = true ∨ (s.live.can.ctl c).state = 6)) = true) := by
  obtain ⟨hruns, hbus⟩ := h
  simp [hruns, hbus]

theorem not_busHeard {s : State} {c : Nat} (h : ¬ BusHeard s c) :
    (!s.canRuns) = true ∨ (!decide ((s.live.can.ctl c).onBus = true ∨ (s.live.can.ctl c).state = 6)) = true := by
  by_contra hn
  simp only [not_or, Bool.not_eq_true', Bool.not_eq_false, decide_eq_true_eq] at hn
  exact h hn

/-- Whether an object receives a frame, as the model asks it of a good one (R399). -/
theorem not_receives {s : State} {c : Nat} {f : CanFrame} : ¬ Receives s c f ↔
    f.extended = true ∨ f.remote = true ∨ s.live.cst.canOwner c f.id = 0 ∨ ownObject s c f = true := by
  rw [Receives, Decidable.not_and_iff_not_or_not, Decidable.not_and_iff_not_or_not, Decidable.not_and_iff_not_or_not,
    Bool.not_eq_false, Bool.not_eq_false, Bool.not_eq_false, ne_eq, not_not]

/-- Whether an object receives a frame, as the model asks it of a destroyed one (R399). -/
theorem receives_iff {s : State} {c : Nat} {f : CanFrame} : Receives s c f ↔
    (!f.extended) = true ∧ (!f.remote) = true ∧ s.live.cst.canOwner c f.id ≠ 0 ∧ (!ownObject s c f) = true := by
  simp only [Receives, Bool.not_eq_true']

/-- What a frame of the controller's format does on a bus that is heard (R399 to R403). -/
theorem exec_canFrame {c : Nat} {f : CanFrame} {s : State} (hbus : BusHeard s c) (hformat : ¬ WrongFormat s c f) :
    exec (.canFrameRx c f) s =
      if f.destroyed then .next (if (!f.extended) = true ∧ (!f.remote) = true ∧ s.live.cst.canOwner c f.id ≠ 0
        ∧ (!ownObject s c f) = true then (recCounted s c false).canClash c f.id else recCounted s c false)
      else if f.extended = true ∨ f.remote = true ∨ s.live.cst.canOwner c f.id = 0 ∨ ownObject s c f = true then
        .next ((recCounted s c true).modCtl c fun x => { x with ign := sat32 x.ign })
      else
        let a := (recCounted s c true).modObj c f.id CanObj.noteGood
        .next (if (a.live.can.obj c f.id).quar then a else a.canStore c f) :=
  (if_neg hbus.passes).trans (if_neg hformat)

/-- How a request ends whose frame was not sent, as the model writes it (R401 to R405). -/
theorem notSent_eq (a : State) (c id : Nat) : notSent a a c id = fun x =>
    if x.cancel then x.finish 2 true
    else if !a.live.par.gate then x.finish 4 true
    else if (a.live.can.obj c id).quar then x.finish 5 true
    else if (a.live.can.ctl c).sleepDue then x.finish 6 true
    else { x with state := 1 } := by
  funext x
  unfold notSent
  cases a.live.par.gate <;> rfl

/-- A controller that sends nothing has no frame to end. -/
theorem exec_noFrameEnds {c h code : Nat} {k : Bool} {s : State} (hnone : s.canActive c = none) :
    exec (.canFrameEnd c h code k) s = .next s := by
  change execCanFrameEnd c h code k s = _
  unfold execCanFrameEnd
  rw [hnone]

/-- Settles O38. -/
theorem canFramesAreHandled : Obligations.CanFramesAreHandled := by
  refine ⟨?_, ?_, ?_, ?_, ?_, ?_, ?_, ?_, ?_, ?_, ?_, ?_, ?_, ?_, ?_, ?_, ?_, ?_, ?_, ?_, ?_, ?_, ?_, ?_, ?_⟩
  · intro c f s hbus hformat
    exact (if_neg hbus.passes).trans (if_pos hformat)
  · intro c f s hbus hformat hdest hrec
    rw [exec_canFrame hbus hformat, if_pos hdest, if_pos (receives_iff.mp hrec)]
  · intro c f s hbus hformat hdest hrec
    rw [exec_canFrame hbus hformat, if_pos hdest, if_neg (mt receives_iff.mpr hrec)]
  · intro c f s hbus hformat hdest hrec
    rw [exec_canFrame hbus hformat, if_neg (by simp [hdest]), if_pos (not_receives.mp hrec)]
  · intro c f s hbus hformat hdest hrec
    rw [exec_canFrame hbus hformat, if_neg (by simp [hdest]), if_neg (mt not_receives.mpr (not_not.mpr hrec))]
  · intro c f s h
    exact if_pos (not_busHeard h)
  · intro c i s ⟨b, t, hb, ht, hdue⟩
    change execCanObjectTimeout c i s = _
    unfold execCanObjectTimeout
    dsimp only
    rw [hb, ht]
    exact if_pos hdue
  · intro c i s h
    change execCanObjectTimeout c i s = _
    unfold execCanObjectTimeout
    dsimp only
    split
    next b t hb ht => exact if_neg fun hdue => h ⟨b, t, hb, ht, hdue⟩
    next => rfl
  · intro c s h
    exact if_pos h
  · intro c s h
    exact if_neg h
  · intro c s ⟨hstate, hrec, hheld⟩
    exact if_pos ⟨hstate, by simp [hrec], hheld⟩
  · intro c s h
    exact if_neg fun ⟨hstate, hrec, hheld⟩ => h ⟨hstate, by simpa using hrec, hheld⟩
  · intro c s hstate hrec
    exact if_pos ⟨hstate, hrec⟩
  · intro c s h
    exact if_neg (by rcases h with h | h <;> simp [h])
  · intro c s h
    exact if_pos h
  · intro c s h
    exact if_neg h
  · intro c s hstate hmode
    exact if_pos ⟨hstate, hmode⟩
  · intro c s h
    exact if_neg (by rcases h with h | h <;> simp [h])
  · intro c f s ⟨b, hb, hwakes⟩
    change execWakeFrame c f s = _
    unfold execWakeFrame
    rw [hb]
    refine (if_pos hwakes).trans ?_
    dsimp only
    simp only [Bool.not_eq_true']
  · intro c f s h
    change execWakeFrame c f s = _
    unfold execWakeFrame
    split
    next b hb => exact if_neg fun hwakes => h ⟨b, hb, hwakes⟩
    next => rfl
  · intro c code k s m hm
    change execCanFrameEnd c 0 code k s = _
    unfold execCanFrameEnd
    rw [hm]
    rfl
  · intro c code k s m hm
    refine ⟨_, ?_, rfl⟩
    change execCanFrameEnd c 1 code k s = _
    unfold execCanFrameEnd
    rw [hm, notSent_eq]
    rfl
  · intro c code s m hm
    refine ⟨_, _, ?_, rfl, rfl⟩
    change execCanFrameEnd c 2 code false s = _
    unfold execCanFrameEnd
    rw [hm, notSent_eq]
    rfl
  · intro c code s m hm
    refine ⟨_, _, ?_, rfl, rfl⟩
    change execCanFrameEnd c 2 code true s = _
    unfold execCanFrameEnd
    rw [hm, notSent_eq]
    rfl
  · intro c h code k s hnone
    exact exec_noFrameEnds hnone

/-- Settles O39. -/
theorem theBackupDomainIsSupplied : Obligations.TheBackupDomainIsSupplied := by
  refine ⟨?_, ?_, ?_, ?_, ?_, ?_⟩
  · intro a b s ⟨hrail, hlow⟩
    exact if_pos ⟨by simp [hrail], hlow⟩
  · intro a b s h
    exact if_neg fun ⟨hrail, hlow⟩ => h ⟨by simpa using hrail, hlow⟩
  · intro a b s h
    exact if_pos h
  · intro a b s h
    exact if_neg h
  · intro mv s
    rfl
  · intro s
    refine ⟨_, rfl, rfl, rfl, rfl, rfl, rfl, rfl, rfl, rfl, rfl, rfl, rfl, rfl, rfl, rfl, ?_⟩
    intro p hp
    obtain ⟨q, -, rfl⟩ := List.mem_map.mp hp
    rfl

/-- A window of the mains that is over passes the checks (R424). -/
theorem MainsWindowOver.passes {s : State} (h : MainsWindowOver s) : ¬ (s.settleRef.live.clk.winRef ≠ 1
    ∨ s.settleRef.calSec < s.settleRef.live.clk.winStart + s.settleRef.windowS ∨ s.settleRef.windowS = 0) := by
  obtain ⟨href, hover, hwindow⟩ := h
  exact not_or.mpr ⟨not_not.mpr href, not_or.mpr ⟨Nat.not_lt.mpr hover, hwindow⟩⟩

theorem not_mainsWindowOver {s : State} (h : ¬ MainsWindowOver s) : s.settleRef.live.clk.winRef ≠ 1
    ∨ s.settleRef.calSec < s.settleRef.live.clk.winStart + s.settleRef.windowS ∨ s.settleRef.windowS = 0 := by
  by_contra hn
  simp only [not_or, not_not, Nat.not_lt] at hn
  exact h hn

/-- Settles O40. -/
theorem theCalendarIsDisciplined : Obligations.TheCalendarIsDisciplined := by
  refine ⟨?_, ?_, ?_, ?_, ?_, ?_, ?_, ?_, ?_, ?_, ?_, ?_, ?_, ?_, ?_, ?_, ?_⟩
  · intro s t harm hsub hmoved
    change execCalendarArmedLoad s = _
    unfold execCalendarArmedLoad
    rw [harm]
    exact if_pos ⟨hsub, hmoved⟩
  · intro s h
    change execCalendarArmedLoad s = _
    unfold execCalendarArmedLoad
    split
    next t harm => exact if_neg (by rcases h with h | h | h <;> simp_all)
    next => rfl
  · intro s d hstep hsub hmoved
    change execCalendarSyncStep s = _
    unfold execCalendarSyncStep
    rw [hstep]
    exact if_pos ⟨hsub, hmoved⟩
  · intro s h
    change execCalendarSyncStep s = _
    unfold execCalendarSyncStep
    split
    next d hstep => exact if_neg (by rcases h with h | h | h <;> simp_all)
    next => rfl
  · intro x s
    rfl
  · intro s hover hgood
    refine (if_neg hover.passes).trans (congrArg (fun t : State => Host.Outcome.next t.openWindow) (if_pos ?_))
    exact hgood
  · intro s hover hbad
    refine (if_neg hover.passes).trans (congrArg (fun t : State => Host.Outcome.next t.openWindow) (if_neg ?_))
    exact fun hgood => Bool.noConfusion (hbad.symm.trans hgood)
  · intro s h
    exact if_pos (not_mainsWindowOver h)
  · intro s ⟨href, hsub⟩
    refine (if_neg ?_).trans (apply_ite Host.Outcome.next _ _ _).symm
    exact not_or.mpr ⟨not_not.mpr href, not_not.mpr hsub⟩
  · intro s h
    refine if_pos ?_
    exact Decidable.not_and_iff_not_or_not.mp h
  · intro s ⟨hauto, hsub, hmoved, href, harm⟩
    exact if_pos ⟨hauto, hsub, hmoved, href, by simp [harm]⟩
  · intro s h
    exact if_neg fun ⟨hauto, hsub, hmoved, href, harm⟩ => h ⟨hauto, hsub, hmoved, href, by simpa using harm⟩
  · intro s hday hout
    exact if_pos ⟨hday, by simp [hout]⟩
  · intro s h
    refine if_neg fun ⟨hday, hout⟩ => ?_
    rcases h with h | h
    · exact absurd h (Nat.not_lt.mpr hday)
    · simp [h] at hout
  · intro s
    rfl
  · intro n s h
    exact if_pos h
  · intro n s h
    exact if_neg h

end Sys2Proof.Claims
end

section
/-! PROOFS. The security enclave, the bursts of the debug port and the supply (R431 to R473). -/

namespace Sys2Proof.Machine

open Sys2Proof

/-- A journal record touches nothing of the backup domain. -/
theorem State.journal_clk (s : State) (event : Nat) (data : Bytes) (alarm : Bool) :
    (s.journal event data alarm).live.clk = s.live.clk := by
  obtain ⟨m, hm⟩ := s.journal_blocks event data alarm
  rw [hm]
  rfl

/-- A tamper mark's stamps and inputs (R431). -/
theorem State.tamperMark_clk (s : State) (n : Nat) : (s.tamperMark n).live.clk = { s.live.clk with
    active0 := s.live.clk.active0 || n = 0, active1 := s.live.clk.active1 || n = 1
    tamp := if s.live.sec.ackPending then s.live.clk.tamp else some s.live.clk.counts
    tampSrc := if s.live.sec.ackPending then s.live.clk.tampSrc ||| 2 ^ n else 2 ^ n } := by
  unfold State.tamperMark
  refine (apply_ite (fun t : State => t.live.clk) _ _ _).trans ?_
  rw [State.journal_clk]
  refine (ite_self _).trans ?_
  cases s.live.sec.ackPending <;> rfl

/-- What ending a key operation leaves alone: the backup domain, and the tamper marks of the enclave. -/
def State.tamperFrame (s : State) : Clk × Bool × Nat := (s.live.clk, s.live.sec.ackPending, s.live.sec.tamperCount)

theorem State.abortKeyOps_frame (s : State) : s.abortKeyOps.tamperFrame = s.tamperFrame := by
  unfold State.abortKeyOps
  refine (apply_ite State.tamperFrame _ _ _).trans ((congrArg₂ (ite _) ?_ rfl).trans (ite_self _) |>.trans ?_)
  · rfl
  · split
    · split <;> rfl
    · rfl

end Sys2Proof.Machine

namespace Sys2Proof.Claims

open Sys2Proof Sys2Proof.Machine

/-- The result of the command taken, and the module after its effect (R447, R448). -/
def commandOutcome (s : State) (r : SecRun) : Nat × State :=
  if (commandTaken s).cmdCheck r = 1 then (commandTaken s).cmdEffect r else ((commandTaken s).cmdCheck r, commandTaken s)

/-- How a command of the enclave ends (R448, R456, R467). -/
theorem exec_commandEnd {s : State} {r : SecRun} (hr : s.live.sec.running = some r) : exec .securityCommandEnd s = .next (
    let k := (commandOutcome s r).1
    let t := (commandOutcome s r).2
    let used := if k = 1 ∧ 0 < cmdSeq_ r.bytes then t.modSec fun x => { x with cmdSeq := cmdSeq_ r.bytes } else t
    let shown := commandShown (if cmdCode_ r.bytes = 11 ∧ k ≠ 1 then unlockFailed used else used) k (cmdCode_ r.bytes) (cmdSeq_ r.bytes)
    if k = 1 ∧ cmdCode_ r.bytes = 9 then shown.tamperAck else shown) := by
  change execSecurityCommandEnd s = _
  unfold execSecurityCommandEnd
  rw [hr]
  rfl

theorem commandOutcome_refused {s : State} {r : SecRun} (h : (commandTaken s).cmdCheck r ≠ 1) :
    commandOutcome s r = ((commandTaken s).cmdCheck r, commandTaken s) := if_neg h

theorem commandOutcome_accepted {s : State} {r : SecRun} {k : Nat} {t : State} (h : (commandTaken s).cmdCheck r = 1)
    (he : (commandTaken s).cmdEffect r = (k, t)) : commandOutcome s r = (k, t) := (if_pos h).trans he

/-- A command that is refused, a DEBUG_UNLOCK aside (R448). -/
theorem exec_commandFails {s : State} {r : SecRun} {k : Nat} {t : State} (hr : s.live.sec.running = some r)
    (ho : commandOutcome s r = (k, t)) (hk : k ≠ 1) (hcode : cmdCode_ r.bytes ≠ 11) :
    exec .securityCommandEnd s = .next (commandShown t k (cmdCode_ r.bytes) (cmdSeq_ r.bytes)) := by
  rw [exec_commandEnd hr, ho]
  dsimp only
  simp only [hk, hcode, false_and, if_false]

/-- A command that succeeds (R448). -/
theorem exec_commandSucceeds {s : State} {r : SecRun} {t : State} (hr : s.live.sec.running = some r)
    (ho : commandOutcome s r = (1, t)) : exec .securityCommandEnd s = .next (
      let shown := commandShown (sequenceUsed t (cmdSeq_ r.bytes)) 1 (cmdCode_ r.bytes) (cmdSeq_ r.bytes)
      if cmdCode_ r.bytes = 9 then shown.tamperAck else shown) := by
  rw [exec_commandEnd hr, ho]
  dsimp only
  simp only [sequenceUsed, true_and, ne_eq, not_true_eq_false, and_false, if_false]

/-- Settles O41. -/
theorem signedCommandsAreExecuted : Obligations.SignedCommandsAreExecuted := by
  refine ⟨?_, ?_, ?_, ?_, ?_, ?_, ?_, ?_, ?_, ?_, ?_, ?_, ?_, ?_, ?_, ?_, ?_⟩
  · intro s r hr hcheck hcode
    exact exec_commandFails hr (commandOutcome_refused hcheck) hcheck hcode
  · intro s r hr hcheck hcode
    rw [exec_commandEnd hr, commandOutcome_refused hcheck]
    dsimp only
    simp only [hcheck, hcode, false_and, ne_eq, not_false_eq_true, and_self, if_false, if_true]
  · intro s r t hr hcheck heffect hcode
    rw [exec_commandSucceeds hr (commandOutcome_accepted hcheck heffect)]
    exact congrArg Host.Outcome.next (if_neg hcode)
  · intro s r t hr hcheck heffect hcode
    rw [exec_commandSucceeds hr (commandOutcome_accepted hcheck heffect), hcode]
    rfl
  · intro s r k t hr hcheck heffect hk hcode
    rw [exec_commandFails hr (commandOutcome_accepted hcheck heffect) hk (by simp [hcode]), hcode]
  · intro s hnone
    change execSecurityCommandEnd s = _
    unfold execSecurityCommandEnd
    rw [hnone]
  · intro s r hcode
    simp only [State.cmdEffect, hcode]
  · intro s r hcode
    simp only [State.cmdEffect, hcode]
  · intro s r hcode
    simp only [State.cmdEffect, hcode]
  · intro s r hcode
    simp only [State.cmdEffect, hcode]
  · intro s r hcode
    refine ⟨_, ?_, rfl⟩
    simp only [State.cmdEffect, hcode]
  · intro s r hcode
    simp only [State.cmdEffect, hcode]
  · intro s r hcode
    refine ⟨s.scrapModule, by simp only [State.cmdEffect, hcode], ?_⟩
    exact (View.congr_lifecycle (State.safehold_view _ _)).trans (View.congr_lifecycle (State.closeSessions_view _ _))
  · intro s r m hcode hm
    simp only [State.cmdEffect, hcode]
    exact ⟨_, rfl, by simp [hm]⟩
  · intro s r hcode
    simp only [State.cmdEffect, hcode]
  · intro s r hcode
    simp only [State.cmdEffect, hcode]
  · intro s r hcode
    simp only [State.cmdEffect, hcode]

/-- Settles O42. -/
theorem enclaveAndBurstsAreServed : Obligations.EnclaveAndBurstsAreServed := by
  refine ⟨?_, ?_, ?_, ?_, ?_, ?_, ?_, ?_, ?_, ?_, ?_, ?_, ?_, ?_, ?_, ?_, ?_, ?_, ?_, ?_, ?_, ?_, ?_, ?_, ?_, ?_⟩
  · intro n s hn hinactive harmed
    exact (if_neg (by simp [hn, hinactive])).trans (if_pos (by simp [harmed]))
  · intro n s hn hinactive harmed
    exact (if_neg (by simp [hn, hinactive])).trans (if_neg (by simp [harmed]))
  · intro n s h
    exact if_pos h
  · intro s n hn
    rw [State.tamperMark_clk]
    refine ⟨?_, rfl, rfl⟩
    rcases Nat.le_one_iff_eq_zero_or_eq_one.mp hn with rfl | rfl <;> simp [Clk.inputActive]
  · intro s
    unfold State.tamperArm
    obtain ⟨hclk, hack, hcount⟩ : _ ∧ _ ∧ _ := by simpa only [State.tamperFrame, Prod.mk.injEq] using State.abortKeyOps_frame ((s.modClk fun c => { c with bkp := [] }).modSec fun y =>
      { y with ackPending := true, tamperCount := satAdd 8 y.tamperCount 1 })
    exact ⟨congrArg Clk.bkp hclk, hack, hcount⟩
  · intro n s
    rfl
  · intro s c t hc hdue
    change execChallengeExpiry s = _
    unfold execChallengeExpiry
    rw [hc]
    exact if_pos hdue
  · intro s h
    change execChallengeExpiry s = _
    unfold execChallengeExpiry
    split
    next c t hc => exact if_neg (Nat.not_le.mpr (h c t hc))
    next => rfl
  · intro s hdebug hdue
    exact if_pos ⟨hdebug, hdue⟩
  · intro s h
    exact if_neg fun ⟨hdebug, hdue⟩ => h.elim (fun h => h hdebug) fun h => absurd h (Nat.not_lt.mpr hdue)
  · intro s h
    exact if_pos h
  · intro s h
    exact if_neg (Nat.not_le.mpr h)
  · intro s e ch o k hrun hkey
    change execAttestationComplete s = _
    unfold execAttestationComplete
    rw [hrun]
    dsimp only
    rw [hkey]
  · intro s e ch o hrun hkey
    change execAttestationComplete s = _
    unfold execAttestationComplete
    rw [hrun]
    dsimp only
    rw [hkey]
  · intro s hnone
    change execAttestationComplete s = _
    unfold execAttestationComplete
    rw [hnone]
  · intro as s b hhears hnone hpub
    refine (if_neg (by simp [hhears])).trans ?_
    change (match (burstNoted s).burst? with | some _ => _ | none => _) = _
    rw [hnone]
    exact if_neg (by simp [hpub])
  · intro as s hhears hnone hpub
    refine (if_neg (by simp [hhears])).trans ?_
    change (match (burstNoted s).burst? with | some _ => _ | none => _) = _
    rw [hnone]
    exact if_pos (by simp [hpub])
  · intro as s t hhears ht
    refine (if_neg (by simp [hhears])).trans ?_
    change (match (burstNoted s).burst? with | some _ => _ | none => _) = _
    rw [ht]
    rfl
  · intro as s h
    exact if_pos (by simp [h])
  · intro s t ht
    change execBurstClose s = _
    unfold execBurstClose
    rw [ht]
  · intro s hnone
    change execBurstClose s = _
    unfold execBurstClose
    rw [hnone]
  · intro s t ht hdue
    change execBurstTimeout s = _
    unfold execBurstTimeout
    rw [ht]
    exact if_pos hdue
  · intro s h
    change execBurstTimeout s = _
    unfold execBurstTimeout
    split
    next t ht => exact if_neg (Nat.not_le.mpr (h t ht))
    next => rfl
  · intro s t o ho
    unfold State.closeBurst
    rw [ho]
  · intro s t hnone
    unfold State.closeBurst
    rw [hnone]
  · intro s t hlong
    exact if_pos ⟨hlong, by simp⟩

/-- A warning that is due passes the checks (R470). -/
theorem WarningDue.passes {s : State} {mv : Nat} (h : WarningDue s mv) :
    ¬ ((!s.live.pwr.powered) = true ∨ s.live.pwr.pfw = true ∨ s.live.pwr.vPf ≤ mv) := by
  obtain ⟨hpow, hpfw, hlow⟩ := h
  simpa [hpow, hpfw] using hlow

theorem not_warningDue {s : State} {mv : Nat} (h : ¬ WarningDue s mv) :
    (!s.live.pwr.powered) = true ∨ s.live.pwr.pfw = true ∨ s.live.pwr.vPf ≤ mv := by
  by_contra hn
  simp only [not_or, Bool.not_eq_true', Bool.not_eq_false, Bool.not_eq_true, Nat.not_le] at hn
  exact h hn

/-- A warning that is over passes the checks (R470). -/
theorem WarningOver.passes {s : State} {mv : Nat} (h : WarningOver s mv) :
    ¬ ((!s.live.pwr.powered) = true ∨ (!s.live.pwr.pfw) = true ∨ mv ≤ s.live.pwr.vPf + 300) := by
  obtain ⟨hpow, hpfw, hhigh⟩ := h
  simpa [hpow, hpfw] using hhigh

theorem not_warningOver {s : State} {mv : Nat} (h : ¬ WarningOver s mv) :
    (!s.live.pwr.powered) = true ∨ (!s.live.pwr.pfw) = true ∨ mv ≤ s.live.pwr.vPf + 300 := by
  by_contra hn
  simp only [not_or, Bool.not_eq_true', Bool.not_eq_false, Nat.not_le] at hn
  exact h hn

/-- The save of an orderly power-down, where it applies (R125). -/
theorem orderlySave_of_not {s : State} (h : ¬ OrderlyDown s) : s.orderlySave = s := if_neg h

/-- What the loss of the supply does to a powered module (R469, R472). -/
theorem exec_powerOnReset {s : State} (hpow : s.live.pwr.powered = true) : exec .powerOnReset s = .next (supplyLost
    (if s.live.pwr.pfw && decide (s.now < s.live.pwr.pfwAt + 4000000) then lastIncomplete s else s).orderlySave) :=
  if_neg (by simp [hpow])

theorem recordOpen_iff {s : State} :
    (s.live.pwr.pfw && decide (s.now < s.live.pwr.pfwAt + 4000000)) = true ↔ RecordOpen s := by
  rw [Bool.and_eq_true, decide_eq_true_eq]

/-- Settles O43. -/
theorem theSupplyIsWatched : Obligations.TheSupplyIsWatched := by
  refine ⟨?_, ?_, ?_, ?_, ?_, ?_, ?_, ?_, ?_, ?_, ?_, ?_, ?_, ?_, ?_, ?_⟩
  · intro s hpow hopen
    rw [exec_powerOnReset hpow, if_pos (recordOpen_iff.mpr hopen),
      orderlySave_of_not (s := lastIncomplete s) fun ⟨_, hdue, _⟩ => absurd hopen.2 (Nat.not_lt.mpr hdue)]
  · intro s hpow hdown
    rw [exec_powerOnReset hpow, if_neg fun hopen => absurd (recordOpen_iff.mp hopen).2 (Nat.not_lt.mpr hdown.2.1)]
    exact congrArg (fun t => Host.Outcome.next (supplyLost t)) (if_pos hdown)
  · intro s hpow hclosed hdown
    rw [exec_powerOnReset hpow, if_neg (mt recordOpen_iff.mp hclosed), orderlySave_of_not hdown]
  · intro s hoff
    exact if_pos (by simp [hoff])
  · intro mv s hoff hhigh
    exact if_neg (by simp [hoff, hhigh])
  · intro mv s h
    exact if_pos h
  · intro mv s h
    exact if_neg h.passes
  · intro mv s h
    exact if_pos (not_warningDue h)
  · intro mv s h hlone hserved
    refine (if_neg h.passes).trans ?_
    change Host.Outcome.next (if (runsAlone s && s.live.epc.served) = true then _ else _) = _
    rw [if_pos (by simp [hlone, hserved])]
    unfold warningEnded
    rw [← hlone]
    rfl
  · intro mv s h hquiet
    refine (if_neg h.passes).trans ?_
    change Host.Outcome.next (if (runsAlone s && s.live.epc.served) = true then _ else _) = _
    rw [if_neg (by rcases hquiet with h | h <;> simp [h])]
    rfl
  · intro mv s h
    exact if_pos (not_warningOver h)
  · intro s ⟨hcast, hpair, hreset, hpfw, t, ht, hdue⟩
    change execPfWarmReset s = _
    unfold execPfWarmReset
    rw [ht]
    exact if_pos ⟨hcast, hpair, by simp [hreset], by simp [hpfw], hdue⟩
  · intro s h
    change execPfWarmReset s = _
    unfold execPfWarmReset
    split
    next t ht =>
      refine if_neg fun ⟨hcast, hpair, hreset, hpfw, hdue⟩ => ?_
      exact h ⟨hcast, hpair, by simpa using hreset, by simpa using hpfw, t, ht, hdue⟩
    next => rfl
  · intro s h
    exact if_pos h
  · intro s h
    exact if_neg (by simp [h])
  · intro s
    rfl

end Sys2Proof.Claims
end

section
/-! PROOFS. Resets, updates and the guards of the module (R477 to R545). -/

namespace Sys2Proof.Machine

open Sys2Proof

/-- A reset keeps what is known of it: its sources, which are held, and its detail (R477, R480). -/
theorem Pwr.afterReset_held (x : Pwr) (cold : Bool) : (x.afterReset cold).inReset = x.inReset
    ∧ (x.afterReset cold).active = x.active ∧ (x.afterReset cold).sources = x.sources ∧ (x.afterReset cold).detail = x.detail := by
  cases cold <;> exact ⟨rfl, rfl, rfl, rfl⟩

/-- What is open in a run ends with a reset: the epochs, the claim, the sessions, the keys (R478). -/
theorem Core.afterReset_ended (k : Core) (cold : Bool) (now : Nat) :
    (k.afterReset cold now).epc.casting = false ∧ (k.afterReset cold now).epc.served = false
    ∧ (k.afterReset cold now).par.code = 0 ∧ (k.afterReset cold now).par.wdFired = true
    ∧ (k.afterReset cold now).eth.sessions = [] ∧ (k.afterReset cold now).mgt.sessions = []
    ∧ (k.afterReset cold now).sec.slots = [] ∧ (k.afterReset cold now).sec.debug = 0 := by
  cases cold <;> exact ⟨rfl, rfl, rfl, rfl, rfl, rfl, rfl, rfl⟩

/-- The module as a first source of a reset finds it, with the source noted (R477). -/
def State.firstSource (s : State) (src : ResetSource) (detail : Nat) (cold : Bool) : State := s.modPwr fun p => { p with
  active := [src], sources := [src], detail := detail, inReset := true, resetCold := cold, releasedAt := none, lastMode := p.mode }

/-- The first assertion resets the module as it then is. -/
theorem State.assertReset_first {s : State} (h : s.live.pwr.inReset = false) (src : ResetSource) (detail : Nat) :
    ∃ a : State, s.assertReset src detail = (a.firstSource src detail (decide (4 ≤ src.code))).applyReset (decide (4 ≤ src.code)) := by
  unfold State.assertReset
  dsimp only
  rw [h]
  exact ⟨_, if_neg (by simp)⟩

/-- A source asserted in a reset that is held, noted (R480). -/
def State.furtherSource (s : State) (src : ResetSource) (detail : Nat) : State := s.modPwr fun p => { p with
  active := if p.active.contains src then p.active else p.active ++ [src]
  sources := if p.sources.contains src then p.sources else p.sources ++ [src]
  detail := if topSource p.sources ≤ src.code then detail else p.detail
  resetCold := p.resetCold || decide (4 ≤ src.code) }

/-- A source asserted in a reset joins those held, and may make the reset a cold one. -/
theorem State.assertReset_further {s : State} (h : s.live.pwr.inReset = true) (src : ResetSource) (detail : Nat) :
    s.assertReset src detail = s.furtherSource src detail
      ∨ s.assertReset src detail = (s.furtherSource src detail).applyReset true := by
  unfold State.assertReset
  dsimp only
  rw [h]
  by_cases hcold : 4 ≤ src.code ∧ s.live.pwr.resetCold = false
  · exact .inr ((if_pos rfl).trans (if_pos (by simpa using hcold)))
  · exact .inl ((if_pos rfl).trans (if_neg (by simpa using hcold)))

theorem tfind_tset_same {α : Type} (t : Table α) (n : Nat) (v : α) : tfind (tset t n v) n = some v := by
  induction t with
  | nil => exact if_pos rfl
  | cons e t ih =>
    obtain ⟨k, w⟩ := e
    unfold tset
    split
    · exact if_pos rfl
    · split
      · exact if_pos rfl
      next hne => exact (if_neg (Ne.symm hne)).trans ih

theorem tget_tset_same {α : Type} (t : Table α) (n : Nat) (v d : α) : tget (tset t n v) n d = v := by
  rw [tget, tfind_tset_same]
  rfl

theorem mem_insertOnce {α : Type} [BEq α] [LawfulBEq α] (l : List α) (a : α) : a ∈ (if l.contains a then l else l ++ [a]) := by
  split
  next h => exact List.contains_iff_mem.mp h
  next => simp

theorem State.furtherSource_held {s : State} (h : s.live.pwr.inReset = true) (src : ResetSource) (detail : Nat) :
    (s.furtherSource src detail).live.pwr.inReset = true ∧ src ∈ (s.furtherSource src detail).live.pwr.active
      ∧ src ∈ (s.furtherSource src detail).live.pwr.sources :=
  ⟨h, mem_insertOnce _ _, mem_insertOnce _ _⟩

/-- The last source released ends the reset (R479). -/
theorem State.releaseReset_last {s : State} {src : ResetSource} (h : s.live.pwr.active = [src]) :
    s.releaseReset src = ((s.modPwr fun p => { p with active := [], inReset := false, releasedAt := some s.now, mode := .boot }).modSys
      fun x => { x with releaseAt := s.now }).modPar fun p => { p with wdFired := false, wdArmed := false } := by
  unfold State.releaseReset
  rw [h]
  exact (if_neg (by simp)).trans (if_pos (by simp))

end Sys2Proof.Machine

namespace Sys2Proof.Claims

open Sys2Proof Sys2Proof.Machine

theorem dueBlocks_isEmpty {s : State} :
    (s.live.pwr.pendBlocks.filter fun r => decide (r.due ≤ s.now)).isEmpty = true ↔ dueBlocks s = [] := List.isEmpty_iff

/-- What the pending block resets do once they are due (R485). -/
theorem exec_blockReset {a b : Bool} {s : State} (hdue : dueBlocks s ≠ []) (hreset : s.live.pwr.inReset = false) :
    exec (.blockResetExecute a b) s
      = .next (if imageBad s a b then (blocksReset s).pulseReset .warmSw 4 else blocksReset s) :=
  if_neg (not_or.mpr ⟨mt dueBlocks_isEmpty.mp hdue, by simp [hreset]⟩)

/-- The control plane runs: what restarts it passes the checks (R486). -/
theorem CpUp.passes {s : State} (h : CpUp s) : ¬ (s.live.pwr.inReset = true ∨ (!s.live.pwr.bootStarted) = true) := by
  obtain ⟨hreset, hboot⟩ := h
  simp [hreset, hboot]

theorem not_cpUp {s : State} (h : ¬ CpUp s) : s.live.pwr.inReset = true ∨ (!s.live.pwr.bootStarted) = true := by
  by_contra hn
  simp only [not_or, Bool.not_eq_true', Bool.not_eq_false, Bool.not_eq_true] at hn
  exact h hn

/-- The image of a restarted control plane, as the model checks it (R486). -/
theorem cpRestarted_eq (s : State) (cause : Nat) (ok : Bool) (f : Pwr → Pwr) : cpRestarted s cause ok f =
    let a := (s.resetCp.modPwr f).journal 23 (ev2 0 cause)
    if ok && a.live.imageMeasured 2 4 then a else a.pulseReset .warmSw 4 := by
  unfold cpRestarted
  simp only [Bool.and_eq_true]

/-- Settles O44. -/
theorem resetsAreExecuted : Obligations.ResetsAreExecuted := by
  refine ⟨?_, ?_, ?_, ?_, ?_, ?_, ?_, ?_, ?_, ?_, ?_, ?_, ?_, ?_, ?_⟩
  · intro s r ⟨hr, hdue, hreset⟩
    change execModuleResetExecute s = _
    unfold execModuleResetExecute
    rw [hr]
    exact if_pos ⟨hdue, by simp [hreset]⟩
  · intro s h
    change execModuleResetExecute s = _
    unfold execModuleResetExecute
    split
    next r hr => exact if_neg fun ⟨hdue, hreset⟩ => h r ⟨hr, hdue, by simpa using hreset⟩
    next => rfl
  · intro a b s hdue hreset hgood
    rw [exec_blockReset hdue hreset, if_neg (by simp [hgood])]
  · intro a b s hdue hreset hbad
    rw [exec_blockReset hdue hreset, if_pos hbad]
  · intro a b s h
    exact if_pos (h.imp_left dueBlocks_isEmpty.mpr)
  · intro ok s h
    rw [cpRestarted_eq]
    exact if_neg h.passes
  · intro ok s h
    exact if_pos (not_cpUp h)
  · intro ok s h
    rw [cpRestarted_eq]
    exact if_neg h.passes
  · intro ok s h
    exact if_pos (not_cpUp h)
  · intro s src d h
    obtain ⟨a, ha⟩ := State.assertReset_first h src d
    refine ⟨_, ha, rfl, rfl, rfl, rfl, rfl, ?_⟩
    obtain ⟨hreset, hactive, hsources, hdetail⟩ :=
      Pwr.afterReset_held (a.firstSource src d (decide (4 ≤ src.code))).live.pwr (decide (4 ≤ src.code))
    exact ⟨hreset, hactive, hsources, hdetail, Core.afterReset_ended _ _ _⟩
  · intro s src d h
    obtain ⟨hheld, hactive, hsources⟩ := State.furtherSource_held h src d
    rcases State.assertReset_further h src d with ha | ha
    · rw [ha]
      exact ⟨hheld, hactive, hsources⟩
    · rw [ha]
      exact ⟨hheld, hactive, hsources⟩
  · intro s src h
    rw [State.releaseReset_last h]
    exact ⟨rfl, rfl, rfl, rfl⟩
  · intro s src other hsrc hother hne
    have hrest : (s.live.pwr.active.filter (· ≠ src)).isEmpty = false := by
      rw [List.isEmpty_eq_false_iff_exists_mem]
      exact ⟨other, List.mem_filter.mpr ⟨hother, by simp [hne]⟩⟩
    unfold State.releaseReset
    rw [if_neg (by simp [hsrc])]
    exact if_neg (fun h => Bool.noConfusion (hrest.symm.trans h))
  · intro s src h
    exact if_pos (by simp [h])
  · intro s
    simp only [State.rstoLow, Bool.and_eq_true, Bool.or_eq_true, Option.any_eq_true, decide_eq_true_eq]

/-- Settles O45. -/
theorem updatesProceed : Obligations.UpdatesProceed := by
  refine ⟨?_, ?_, ?_, ?_, ?_, ?_, ?_, ?_, ?_, ?_, ?_, ?_, ?_, ?_, ?_, ?_⟩
  · intro s ⟨l, hl, hlate⟩
    change execLockTimeout s = _
    unfold execLockTimeout
    rw [hl]
    exact if_pos hlate
  · intro s h
    change execLockTimeout s = _
    unfold execLockTimeout
    split
    next l hl => exact if_neg fun hlate => h ⟨l, hl, hlate⟩
    next => rfl
  · intro n s l ⟨hl, hstage⟩ hbad
    change execInstallation n s = _
    unfold execInstallation
    rw [hl]
    exact (if_pos hstage).trans (if_pos hbad)
  · intro n s l ⟨hl, hstage⟩ hgood
    change execInstallation n s = _
    unfold execInstallation
    rw [hl]
    exact (if_pos hstage).trans (if_neg (not_not.mpr hgood))
  · intro n s l ⟨hl, hstage⟩ hspare
    change execInstallation n s = _
    unfold execInstallation
    rw [hl]
    exact (if_neg (by simp [hstage])).trans ((if_pos hstage).trans (if_neg (by omega)))
  · intro n s l ⟨hl, hstage⟩ hspare hplain
    change execInstallation n s = _
    unfold execInstallation
    rw [hl]
    refine (if_neg (by simp [hstage])).trans ((if_pos hstage).trans ((if_pos (by omega)).trans ?_))
    dsimp only
    split
    next c cs hkind htodo => exact absurd ⟨hkind, by simp [htodo]⟩ hplain
    next => rfl
  · intro n s l c cs ⟨hl, hstage⟩ hspare hkind htodo
    change execInstallation n s = _
    unfold execInstallation
    rw [hl]
    refine (if_neg (by simp [hstage])).trans ((if_pos hstage).trans ((if_pos (by omega)).trans ?_))
    rw [hkind, htodo]
    rfl
  · intro n s h
    change execInstallation n s = _
    unfold execInstallation
    split
    next => rfl
    next l hl => exact (if_neg (h l hl).1).trans (if_neg (h l hl).2)
  · intro s l ⟨hl, hstage⟩ hfree hkeeps halone
    change execSwapPoint s = _
    unfold execSwapPoint
    rw [hl]
    exact (if_neg (by simp [hstage, hfree])).trans ((if_neg hkeeps).trans (if_neg halone))
  · intro s l ⟨hl, hstage⟩ hfree hgives hnone
    change execSwapPoint s = _
    unfold execSwapPoint
    rw [hl]
    exact (if_neg (by simp [hstage, hfree])).trans ((if_pos hgives).trans (congrArg Host.Outcome.next (if_neg (by simp [hnone]))))
  · intro s l ⟨hl, hstage⟩ hfree hwaits
    change execSwapPoint s = _
    unfold execSwapPoint
    rw [hl]
    refine (if_neg (by simp [hstage, hfree])).trans ?_
    rcases hwaits with ⟨hgives, hnamed⟩ | ⟨hpaired, hstate⟩
    · exact (if_pos hgives).trans (congrArg Host.Outcome.next (if_pos (Option.isSome_iff_ne_none.mpr hnamed)))
    · exact (if_neg (by simp [hstate])).trans (if_pos ⟨hpaired, hstate⟩)
  · intro s h
    change execSwapPoint s = _
    unfold execSwapPoint
    split
    next => rfl
    next l hl =>
      refine if_pos ?_
      by_cases hstage : l.stage = 5
      · exact .inr (h l ⟨hl, hstage⟩)
      · exact .inl hstage
  · intro s t ht hhealthy
    change execTrialConfirmed s = _
    unfold execTrialConfirmed
    rw [ht]
    exact if_pos hhealthy
  · intro s h
    change execTrialConfirmed s = _
    unfold execTrialConfirmed
    split
    next t ht => exact if_neg (by simp [h t ht])
    next => rfl
  · intro s t ⟨ht, hfails⟩
    change execTrialFailure s = _
    unfold execTrialFailure
    rw [ht]
    exact if_pos hfails
  · intro s h
    change execTrialFailure s = _
    unfold execTrialFailure
    split
    next t ht => exact if_neg fun hfails => h t ⟨ht, hfails⟩
    next => rfl

/-- A corrected row, counted (R544). -/
theorem exec_dramCorrected (row : Nat) (s : State) : exec (.dramCorrected row) s =
    let a := s.modSys fun x =>
      { x with dramCe := satAdd 16 x.dramCe 1, dramRowCe := tset x.dramRowCe row (tget x.dramRowCe row 0 + 1) }
    .next (if 7 ≤ tget s.live.sys.dramRowCe row 0 then a.retireRow row else a) := by
  have hcount : tget (tset s.live.sys.dramRowCe row (tget s.live.sys.dramRowCe row 0 + 1)) row 0
      = tget s.live.sys.dramRowCe row 0 + 1 := tget_tset_same _ _ _ _
  change Host.Outcome.next (if 8 ≤ tget (tset s.live.sys.dramRowCe row (tget s.live.sys.dramRowCe row 0 + 1)) row 0 then _ else _) = _
  rw [hcount]
  simp only [Nat.succ_le_succ_iff]

/-- Settles O46. -/
theorem theModuleIsGuarded : Obligations.TheModuleIsGuarded := by
  refine ⟨?_, ?_, ?_, ?_, ?_, ?_, ?_, ?_, ?_⟩
  · intro row n s
    rfl
  · intro row n s
    rfl
  · intro row n s
    rfl
  · intro row k n s h
    change execDramUncorrectable row k n s = _
    unfold execDramUncorrectable
    dsimp only
    split
    · omega
    · omega
    · omega
    · rfl
  · intro row s hfew
    rw [exec_dramCorrected]
    exact congrArg Host.Outcome.next (if_neg (Nat.not_le.mpr hfew))
  · intro row s hmany
    rw [exec_dramCorrected]
    exact congrArg Host.Outcome.next (if_pos hmany)
  · intro x s
    rfl
  · intro s t ht hdue
    change execSpeedChange s = _
    unfold execSpeedChange
    rw [ht]
    exact if_pos hdue
  · intro s h
    change execSpeedChange s = _
    unfold execSpeedChange
    split
    next t ht => exact if_neg (Nat.not_le.mpr (h t ht))
    next => rfl

end Sys2Proof.Claims
end

section
/-! PROOFS. The sessions and the requests of the management port (R526 to R539). -/

namespace Sys2Proof.Claims

open Sys2Proof Sys2Proof.Machine

/-- A new request of a session is served on the session as noted (R530). -/
theorem MgtNew.serves {s : State} {cmd i ctr : Nat} {x : Session} {serve : Role → State → State} (h : MgtNew s i ctr x) :
    s.mgtRequest cmd i ctr true serve = serve x.role (mgtNoted s i ctr) := by
  obtain ⟨hserves, hi, hx, hnew⟩ := h
  exact mgtRequest_new hserves hi hx hnew

/-- Settles O47. -/
theorem managementSessionsRun : Obligations.ManagementSessionsRun := by
  refine ⟨?_, ?_, ?_, ?_, ?_, ?_, ?_, ?_, ?_, ?_, ?_, ?_, ?_⟩
  · intro ctr s h
    exact congrArg Host.Outcome.next (mgtRequest_open h)
  · intro r n ctr s slot h ⟨hfree, hopens, hrun⟩
    refine congrArg Host.Outcome.next ((mgtRequest_open h).trans ?_)
    dsimp only
    split
    next slot' hfree' =>
      obtain rfl : slot' = slot := Option.some.inj (hfree'.symm.trans hfree)
      exact if_pos ⟨hopens, by rw [Bool.not_eq_true']; exact hrun⟩
    next hnone => exact absurd (hnone.symm.trans hfree) (by simp)
  · intro r n ctr s h hfull
    refine congrArg Host.Outcome.next ((mgtRequest_open h).trans ?_)
    dsimp only
    split
    next slot hfree => exact if_neg fun ⟨hopens, hrun⟩ => hfull slot ⟨hfree, hopens, Bool.not_eq_true' _ |>.mp hrun⟩
    next => rfl
  · intro i mac ctr s o key h ⟨ho, hkey, hmac, hopens⟩
    refine congrArg Host.Outcome.next ((mgtRequest_open h).trans ?_)
    dsimp only
    split
    next hnone => exact absurd (hnone.symm.trans ho) (by simp)
    next o' ho' =>
      obtain rfl : o' = o := Option.some.inj (ho'.symm.trans ho)
      split
      next hnone => exact absurd (hnone.symm.trans hkey) (by simp)
      next key' hkey' =>
        obtain rfl : key' = key := Option.some.inj (hkey'.symm.trans hkey)
        exact if_pos ⟨hmac, hopens⟩
  · intro i mac ctr s h hfails
    refine congrArg Host.Outcome.next ((mgtRequest_open h).trans ?_)
    dsimp only
    split
    next => rfl
    next o ho =>
      split
      next => rfl
      next key hkey => exact if_neg fun ⟨hmac, hopens⟩ => hfails o key ⟨ho, hkey, hmac, hopens⟩
  · intro i ctr s x h
    exact congrArg Host.Outcome.next (h.serves.trans (if_neg h.2.1))
  · intro ok ctr s h
    exact congrArg Host.Outcome.next ((mgtRequest_open h).trans (if_pos rfl))
  · intro ok i ctr s h hi hnone
    exact congrArg Host.Outcome.next (mgtRequest_noSession h hi hnone)
  · intro s h
    exact ⟨if_neg (by simp [h]), if_neg (by simp [h])⟩
  · intro n s h hn
    refine (if_neg (by simp [h])).trans (congrArg Host.Outcome.next ?_)
    split
    · omega
    · omega
    · rfl
  · intro i s ⟨x, hx, hidle⟩
    change execMgtSessionTimeout i s = _
    unfold execMgtSessionTimeout
    rw [hx]
    exact if_pos hidle
  · intro i s h
    change execMgtSessionTimeout i s = _
    unfold execMgtSessionTimeout
    split
    next x hx => exact if_neg fun hidle => h ⟨x, hx, hidle⟩
    next => rfl
  · intro n i r ctr ok m s h
    have hnext {cmd j : Nat} {tag : Bool} {serve : Role → State → State} :
        Host.Outcome.next (s.mgtRequest cmd j ctr tag serve) = (Host.Outcome.next s : Host.Outcome State Fault Refusal) :=
      congrArg Host.Outcome.next (mgtRequest_unserved h)
    exact ⟨hnext, hnext, hnext, hnext, if_pos (by simp [h])⟩

/-- A RESET request of a session is refused where it has not its form (R532). -/
theorem resetForm_refused {m k : Nat} : ¬ ResetForm m k ↔ (m = 0 ∧ k % 64 = 0) ∨ 3 ≤ m := by
  unfold ResetForm
  omega

/-- A RESET request of a session, as it is served (R532, R533). -/
theorem exec_mgtReset_session {i ctr m k : Nat} {s : State} {x : Session} (h : MgtNew s i ctr x)
    (hreset : s.live.pwr.inReset = false) : exec (.mgtReset i ctr true m k) s = .next (
      if (m = 0 ∧ k % 64 = 0) ∨ 3 ≤ m then (mgtNoted s i ctr).mgtReply 0x21 i ctr 2 none []
      else
        let a := (mgtNoted s i ctr).mgtReply 0x21 i ctr 0 none []
        (if m ≠ 0 ∧ k % 64 ≠ 0 then a.werr 0x288 .yml .value else a).requestResets m (if m = 0 then k % 64 else 0) 1) := by
  refine congrArg Host.Outcome.next (h.serves.trans ?_)
  have hheld : ¬ ((mgtNoted s i ctr).live.pwr.inReset = true) := by simpa [mgtNoted, mgtCounted] using hreset
  exact (if_neg hheld).trans ((if_neg fun h0 => h.2.1 h0.1).trans (if_neg fun h0 => h.2.1 h0.1))

/-- A request that no session makes, and what answers it in all four (R535, R538). -/
theorem exec_mgtRequests {i ctr : Nat} {ok : Bool} {f n d m k : Nat} {as : List Access} {s : State} {t : Nat → State}
    (h : ∀ cmd serve, s.mgtRequest cmd i ctr ok serve = t cmd) :
    exec (.mgtHealth i ctr ok) s = .next (t 0x10) ∧ exec (.mgtJournal i ctr ok f n) s = .next (t 0x11)
    ∧ exec (.mgtRegs i ctr ok as d) s = .next (t 0x20) ∧ exec (.mgtReset i ctr ok m k) s = .next (t 0x21)
    ∧ exec (.mgtClose i ctr ok) s = .next (t 4) :=
  ⟨congrArg Host.Outcome.next (h _ _), congrArg Host.Outcome.next (h _ _), congrArg Host.Outcome.next (h _ _),
    congrArg Host.Outcome.next (h _ _), congrArg Host.Outcome.next (h _ _)⟩

/-- Settles O48. -/
theorem managementRequestsAreServed : Obligations.ManagementRequestsAreServed := by
  refine ⟨?_, ?_, ?_, ?_, ?_, ?_, ?_, ?_, ?_, ?_, ?_, ?_, ?_, ?_, ?_, ?_, ?_, ?_, ?_⟩
  · intro i ctr s x h
    exact congrArg Host.Outcome.next h.serves
  · intro ok ctr s h
    exact congrArg Host.Outcome.next (mgtRequest_open h)
  · intro i ctr f n s x h hn
    exact congrArg Host.Outcome.next (h.serves.trans ((if_neg fun h0 => h.2.1 h0.1).trans (if_neg (Nat.not_lt.mpr hn))))
  · intro i ctr f n s x h hn
    exact congrArg Host.Outcome.next (h.serves.trans ((if_neg fun h0 => h.2.1 h0.1).trans (if_pos hn)))
  · intro i ctr as d s x h halone
    exact congrArg Host.Outcome.next (h.serves.trans (if_neg (by simp [halone])))
  · intro i ctr as d s x h halone
    exact congrArg Host.Outcome.next (h.serves.trans (if_pos halone))
  · intro i ctr m k s x h hreset hform hone
    rw [exec_mgtReset_session h hreset, if_neg (mt resetForm_refused.mpr (not_not.mpr hform))]
    dsimp only
    rw [if_neg hone]
  · intro i ctr m k s x h hreset hm hk
    rw [exec_mgtReset_session h hreset, if_neg (by omega)]
    dsimp only
    rw [if_pos (by omega), if_neg (by omega)]
  · intro i ctr m k s x h hreset hform
    rw [exec_mgtReset_session h hreset, if_pos (resetForm_refused.mp hform)]
  · intro i ctr m k s x h hreset
    exact congrArg Host.Outcome.next (h.serves.trans (if_pos hreset))
  · intro ok ctr f n s h
    refine congrArg Host.Outcome.next ((mgtRequest_open h).trans ?_)
    change (if 0 = 0 ∧ (!(mgtCounted s).mgtAlone) = true then _ else _) = _
    simp only [true_and, Bool.not_eq_true']
    rfl
  · intro ok ctr as d s h
    exact congrArg Host.Outcome.next (mgtRequest_open h)
  · intro ok ctr m k s h hreset
    refine congrArg Host.Outcome.next ((mgtRequest_open h).trans ?_)
    have hheld : ¬ ((mgtCounted s).live.pwr.inReset = true) := by simpa [mgtCounted] using hreset
    refine (if_neg hheld).trans ?_
    change (if 0 = 0 ∧ (!(mgtCounted s).mgtAlone) = true then _ else _) = _
    simp only [true_and, Bool.not_eq_true']
    refine if_congr Iff.rfl rfl ?_
    by_cases hform : (m = 1 ∨ m = 2) ∧ k = 0
    · obtain ⟨hm, rfl⟩ := hform
      rw [if_neg (by simp [hm]), if_neg (by omega), if_neg (by simp), if_neg (by omega), if_pos (by simp [hm])]
      rfl
    · rw [if_pos hform, if_neg hform]
      rfl
  · intro ok ctr m k s h hreset
    exact congrArg Host.Outcome.next ((mgtRequest_open h).trans (if_pos hreset))
  · intro ok i ctr f n as d m k s h hi hnone
    obtain ⟨hhealth, hjournal, hregs, hreset, -⟩ := exec_mgtRequests (f := f) (n := n) (as := as) (d := d) (m := m) (k := k)
      (t := fun cmd => (mgtCounted s).mgtReply cmd i ctr 3 none []) (ok := ok) fun cmd serve => mgtRequest_noSession h hi hnone
    exact ⟨hhealth, hjournal, hregs, hreset⟩
  · intro i ctr f n as d m k s x c h hi hx hctr hold
    exact exec_mgtRequests (t := fun _ => mgtCounted s) fun cmd serve => mgtRequest_old h hi hx hctr hold
  · intro i ctr f n as d m k s x h hi hx
    exact exec_mgtRequests (t := fun _ => (mgtCounted s).mgtAuthFail) fun cmd serve => mgtRequest_untagged h hi hx
  · intro i ctr f n as d m k s x o h hi hx hctr hreply
    refine ⟨_, rfl, ?_⟩
    exact exec_mgtRequests (t := fun _ => ((mgtCounted s).send o).modMgt fun y => { y with tx := satAdd 16 y.tx 1 })
      fun cmd serve => mgtRequest_repeated h hi hx hctr hreply
  · intro ok i ctr f n as d m k s h
    obtain ⟨hhealth, hjournal, hregs, hreset, -⟩ := exec_mgtRequests (f := f) (n := n) (as := as) (d := d) (m := m) (k := k)
      (t := fun _ => s) (ok := ok) (i := i) (ctr := ctr) fun cmd serve => mgtRequest_unserved h
    exact ⟨hhealth, hjournal, hregs, hreset⟩

end Sys2Proof.Claims
end

section
/-! PROOFS. Counters cleared, and the commands of the assembler, the solver and the plan (R108 to R192). -/

namespace Sys2Proof.Machine

open Sys2Proof

/-! A command's word bit by bit, as its block's commit takes it. -/

/-- SLV_CTRL at its commit: bit 0 clears, bit 1 asks for a cold start. -/
theorem commitSlv_ctrl (s : State) (w : Word) : s.commitSlv 0xA38 w = s.modSlv fun x =>
    let x := if bit w 0 then { x with sat := 0, warmRej := 0, cold := 0, factAbort := 0, factFail := 0 } else x
    { x with coldNext := x.coldNext || bit w 1 } := rfl

/-- PTP_CTRL at its commit (R378). -/
theorem commitPtp_ctrl (s : State) (src : Source) (w : Word) : s.commitPtp src 0x3524 w = s.modPtp fun p => { p with
    slot0 := { p.slot0 with servoOff := bit w 0 }, slot1 := { p.slot1 with servoOff := bit w 1 }
    tsqDrop := if bit w 2 then 0 else p.tsqDrop } := rfl

/-- ASM_CTRL at its commit (R119, R122 to R125). -/
theorem commitAsm_ctrl (s : State) (w : Word) : s.commitAsm 0x834 w = s.modAsm fun a =>
    let a := { a with identHold := bit w 1 }
    let a := if bit w 2 then { a with sat := 0, srcFault := 0, inCollide := 0 } else a
    let a := if bit w 3 && decide (a.selSub < s.live.cst.substations) then a.release a.selSub s.live.epc.epoch else a
    if bit w 0 then a.refreshAll s.live.cst s.live.epc.epoch else a := rfl

/-- A staged ENTER of ISL_CMD at its commit (R192): judged again, then obeyed. -/
theorem commitPln_enter (s : State) (src : Source) : s.commitPln src 0xC34 1 = if checkPln s.live 0xC34 1 then
    (if s.live.pln.island then s else s.enterIsland).modPln fun p => { p with cmdHeld := true, leaveDue := false }
    else s.werr 0xC34 src .value := rfl

/-- A staged LEAVE of ISL_CMD at its commit (R192). -/
theorem commitPln_leave (s : State) (src : Source) : s.commitPln src 0xC34 2 = if checkPln s.live 0xC34 2 then
    (if s.live.pln.island && s.live.pln.cmdHeld then s.leaveIsland.yspUnshed s.live.pln.shed else s)
    else s.werr 0xC34 src .value := rfl

/-! The input window (R108, R109). -/

/-- A list that holds only one value has no other once its doubles are gone. -/
theorem eraseDups_length_le_one {l : List Nat} {n : Nat} (h : ∀ m ∈ l, m = n) : l.eraseDups.length ≤ 1 := by
  cases l with
  | nil => exact Nat.zero_le 1
  | cons m l =>
    have hrest : l.filter (fun k => !k == m) = [] := by
      rw [List.filter_eq_nil_iff]
      intro k hk
      simp [h k (List.mem_cons_of_mem m hk), h m List.mem_cons_self]
    rw [List.eraseDups_cons, hrest]
    exact Nat.le_refl 1

/-- Two values of a list stay two. -/
theorem one_lt_eraseDups_length {l : List Nat} {m n : Nat} (hm : m ∈ l) (hn : n ∈ l) (hne : m ≠ n) : 1 < l.eraseDups.length := by
  by_contra hle
  have hm' := List.mem_eraseDups.mpr hm
  have hn' := List.mem_eraseDups.mpr hn
  match hd : l.eraseDups with
  | [] => simp [hd] at hm'
  | [k] => simp [hd] at hm' hn'; exact hne (hm'.trans hn'.symm)
  | _ :: _ :: _ => simp [hd] at hle

/-- The transactions that write the window's words. -/
def windowTxns (ws : List Staged) : List Nat := ((ws.filter fun x => decide (0x900 ≤ x.addr)).map Staged.txn).eraseDups

theorem mem_windowTxns {ws : List Staged} {x : Staged} (hx : x ∈ ws) (haddr : 0x900 ≤ x.addr) :
    x.txn ∈ (ws.filter fun x => decide (0x900 ≤ x.addr)).map Staged.txn :=
  List.mem_map_of_mem (List.mem_filter.mpr ⟨hx, decide_eq_true haddr⟩)

theorem mem_windowTxns_iff {ws : List Staged} {n : Nat} :
    n ∈ (ws.filter fun x => decide (0x900 ≤ x.addr)).map Staged.txn ↔ ∃ x ∈ ws, 0x900 ≤ x.addr ∧ x.txn = n := by
  simp only [List.mem_map, List.mem_filter, decide_eq_true_eq, and_assoc]

/-- The bits of a PTP_CTRL word. -/
theorem bit_ptpCtrl (a b c : Bool) : bit (ptpCtrl a b c) 0 = a ∧ bit (ptpCtrl a b c) 1 = b ∧ bit (ptpCtrl a b c) 2 = c := by
  revert a b c
  decide

end Sys2Proof.Machine

namespace Sys2Proof.Claims

open Sys2Proof Sys2Proof.Machine

/-- Settles O49. -/
theorem clearingCountersClearsThem : Obligations.ClearingCountersClearsThem := by
  intro s src role n
  refine ⟨rfl, rfl, rfl, ?_, rfl, rfl, rfl, rfl, rfl, rfl, rfl, rfl, ?_, rfl, rfl, rfl⟩
  · change s.commitSlv 0xA38 1 = _
    rw [commitSlv_ctrl]
    refine congrArg s.modSlv (funext fun x => ?_)
    change ({ x with sat := 0, warmRej := 0, cold := 0, factAbort := 0, factFail := 0, coldNext := x.coldNext || false } : Slv) = _
    rw [Bool.or_false]
  · intro a b
    obtain ⟨h0, h1, h2⟩ := bit_ptpCtrl a b true
    change s.commitPtp src 0x3524 (ptpCtrl a b true) = _
    rw [commitPtp_ctrl, h0, h1, h2]
    rfl

/-- The bits of an ASM_CTRL word: a command and the hold bit (R119). -/
theorem bit_asmCtrl (h : Bool) : (bit (word (1 + holdBit h)) 0 = true ∧ bit (word (1 + holdBit h)) 1 = h
      ∧ bit (word (1 + holdBit h)) 2 = false ∧ bit (word (1 + holdBit h)) 3 = false)
    ∧ (bit (word (holdBit h)) 0 = false ∧ bit (word (holdBit h)) 1 = h ∧ bit (word (holdBit h)) 2 = false
      ∧ bit (word (holdBit h)) 3 = false)
    ∧ (bit (word (8 + holdBit h)) 0 = false ∧ bit (word (8 + holdBit h)) 1 = h ∧ bit (word (8 + holdBit h)) 2 = false
      ∧ bit (word (8 + holdBit h)) 3 = true) := by
  revert h
  decide

/-- The transaction of a submission is the only one that writes the window (R108). -/
theorem OneSubmission.txns {ws : List Staged} {x : Staged} (h : OneSubmission ws x) :
    ¬ 1 < (windowTxns ws).length ∧ ((windowTxns ws).isEmpty || (windowTxns ws).contains x.txn) = true := by
  have hone : ∀ n ∈ (ws.filter fun x => decide (0x900 ≤ x.addr)).map Staged.txn, n = x.txn := by
    intro n hn
    obtain ⟨y, hy, haddr, rfl⟩ := mem_windowTxns_iff.mp hn
    exact h.2 y hy haddr
  refine ⟨Nat.not_lt.mpr (eraseDups_length_le_one hone), ?_⟩
  cases hw : windowTxns ws with
  | nil => rfl
  | cons n l =>
    have hn : n = x.txn := hone n (List.mem_eraseDups.mp (hw ▸ List.mem_cons_self : n ∈ windowTxns ws))
    simp [hn]

/-- Settles O50. -/
theorem planningCommandsCommit : Obligations.PlanningCommandsCommit := by
  refine ⟨?_, ?_, ?_, ?_, ?_, ?_, ?_, ?_, ?_, ?_, ?_, ?_⟩
  · intro s src role n h
    obtain ⟨⟨h0, h1, h2, h3⟩, -, -⟩ := bit_asmCtrl h
    change s.commitAsm 0x834 _ = _
    rw [commitAsm_ctrl, h0, h1, h2, h3]
    rfl
  · intro s src role n h
    obtain ⟨-, ⟨h0, h1, h2, h3⟩, -⟩ := bit_asmCtrl h
    change s.commitAsm 0x834 _ = _
    rw [commitAsm_ctrl, h0, h1, h2, h3]
    rfl
  · intro s src role n h
    obtain ⟨-, -, h0, h1, h2, h3⟩ := bit_asmCtrl h
    change s.commitAsm 0x834 _ = _
    rw [commitAsm_ctrl, h0, h1, h2, h3]
    simp only [State.modAsm, Bool.true_and, decide_eq_true_eq, Bool.false_eq_true, if_false]
  · intro s src role n v
    rfl
  · intro s ws x h
    obtain ⟨hone, hown⟩ := h.txns
    obtain ⟨hfind, -⟩ := h
    have hsubmit : x ∈ ws.filter fun y => y.addr = 0x824 && bit y.val 0 := by
      refine List.mem_filter.mpr ⟨List.mem_of_find?_eq_some hfind, ?_⟩
      simpa using List.find?_some hfind
    refine ⟨_, _, rfl, rfl, ?_⟩
    unfold windowTxns at hone hown
    unfold State.commitWindow
    dsimp only
    rw [if_neg hone, if_neg, if_pos]
    · rfl
    · exact List.any_eq_true.mpr ⟨x, hsubmit, hown⟩
    · rintro ⟨-, hnone⟩
      rw [List.isEmpty_iff.mp hnone] at hsubmit
      exact absurd hsubmit List.not_mem_nil
  · intro s ws x y hx hy hxw hyw hne
    exact if_pos (one_lt_eraseDups_length (mem_windowTxns hx hxw) (mem_windowTxns hy hyw) hne)
  · intro s src role n
    change s.commitSlv 0xA38 2 = _
    rw [commitSlv_ctrl]
    refine congrArg s.modSlv (funext fun x => ?_)
    change ({ x with coldNext := x.coldNext || true } : Slv) = _
    rw [Bool.or_true]
  · intro s src role n hok hout
    refine (commitPln_enter s src).trans ?_
    rw [if_pos hok, if_neg (by simp [hout])]
  · intro s src role n hok hin
    refine (commitPln_enter s src).trans ?_
    rw [if_pos hok, if_pos hin]
  · intro s src role n hok hin hheld
    refine (commitPln_leave s src).trans ?_
    rw [if_pos hok, if_pos (by simp [hin, hheld])]
  · intro s src role n hok hnot
    refine (commitPln_leave s src).trans ?_
    rw [if_pos hok, if_neg (by rcases hnot with h | h <;> simp [h])]
  · intro s src role n w hw hbad
    rcases hw with rfl | rfl
    · exact (commitPln_enter s src).trans (if_neg (Bool.eq_false_iff.mp hbad))
    · exact (commitPln_leave s src).trans (if_neg (Bool.eq_false_iff.mp hbad))

end Sys2Proof.Claims
end

section
/-! PROOFS. The commands of the loops, the logic, the channels and the fans (R211 to R291). -/

namespace Sys2Proof.Machine

open Sys2Proof

variable (s : State) (src : Source) (role : Role) (n : Nat) (w : Word)

/-! A write reaches the block of its address. -/

theorem applyWrite_lpe {addr : Nat} (h : 0x1000 ≤ addr) (h' : addr < 0x2000) : s.applyWrite src role n addr w = s.commitLpe addr w := by
  simp (disch := omega) only [State.applyWrite, if_neg, if_pos]

theorem applyWrite_lgc {addr : Nat} (h : 0x2000 ≤ addr) (h' : addr < 0x2400) :
    s.applyWrite src role n addr w = s.commitLgc src role addr w := by
  simp (disch := omega) only [State.applyWrite, if_neg, if_pos]

theorem applyWrite_fch {addr : Nat} (h : 0x4000 ≤ addr) : s.applyWrite src role n addr w = s.commitFch addr w := by
  simp (disch := omega) only [State.applyWrite, if_neg]

theorem immediate_fch {addr : Nat} (h : 0x4000 ≤ addr) : s.immediate src n addr w = s.immediateFch src addr w := by
  simp (disch := omega) only [State.immediate, if_neg]

/-! The registers of a channel (R262 to R277). -/

/-- FCH_CMD of a channel at once: requests, hand and its release. -/
theorem immediateFch_cmd {k : Nat} : s.immediateFch src (0x4020 + k * 0x40) w =
    let s1 := if bit w 0 || bit w 1 then
        if chConverts (s.chRec k) then s.request k (bit w 1)
        else (s.setChan k { s.chan k with reqState := 3, reqUrgent := bit w 1, reqMerged := false, reqDropped := true }).werr
          (0x4020 + k * 0x40) src .state
      else s
    if bit w 2 && bit w 3 then s1.werr (0x4020 + k * 0x40) src .value
    else if bit w 2 then
      if s1.live.handMode ∧ chIsOutput (s.chRec k) then s1.setHand k true else s1.werr (0x4020 + k * 0x40) src .state
    else if bit w 3 then (if (s1.chan k).hand then s1.setHand k false else s1)
    else s1 := by
  have hk : (0x4020 + k * 0x40 - 0x4000) / 0x40 = k := by omega
  have hofs : (0x4020 + k * 0x40 - 0x4000) % 0x40 = 0x20 := by omega
  unfold State.immediateFch
  dsimp only
  rw [hk, hofs]
  exact (if_neg (by decide)).trans (if_pos rfl)

/-- FCH_HAND_VAL of a channel at once (R277). -/
theorem immediateFch_handVal {k : Nat} : s.immediateFch src (0x401C + k * 0x40) w =
    if fFinite w then
      let a := s.setChan k { s.chan k with handVal := w }
      if (a.chan k).hand then a.driveOut k else a
    else s.werr (0x401C + k * 0x40) src .value := by
  have hk : (0x401C + k * 0x40 - 0x4000) / 0x40 = k := by omega
  have hofs : (0x401C + k * 0x40 - 0x4000) % 0x40 = 0x1C := by omega
  unfold State.immediateFch
  dsimp only
  rw [hk, hofs]
  exact if_pos rfl

/-- HAND of a channel at once (R277). -/
theorem immediateFch_hand {k : Nat} : s.immediateFch src (0x4020 + k * 0x40) 4 =
    if s.live.handMode ∧ chIsOutput (s.chRec k) then s.setHand k true else s.werr (0x4020 + k * 0x40) src .state :=
  immediateFch_cmd s src 4

/-- A calibration command of one bit to a channel open to it (R266). -/
theorem calCommand_open {k : Nat} (hrec : s.chRec k ≠ []) (hcal : chCalMode (s.chRec k) = 1) (hhand : s.live.handMode = true)
    (hw : w &&& 0x1F = w) (hw0 : w ≠ 0) : s.calCommand k w =
    if bit w 0 then s.setChan k { s.chan k with calState := 1, calN := 0, calSum := {}, calResult := 1 }
    else if bit w 1 then
      if (s.chan k).mz.isNone then s.setChan k { s.chan k with calResult := 2 }
      else s.setChan k { s.chan k with calState := 3, calN := 0, calSum := {}, calResult := 1 }
    else if bit w 2 then
      match (s.chan k).newOfs with
      | none => s.setChan k { s.chan k with calResult := 2 }
      | some o => s.setChan k { s.chan k with
          storedDue := some { ofs := o, gain := (s.chan k).newGain, type := chType (s.chRec k), range := chRange (s.chRec k), date := s.calSec }
          calState := 0, calResult := 1, newOfs := none }
    else if bit w 3 then s.setChan k { s.chan k with calState := 0, calResult := 1, newOfs := none, mz := none, calN := 0, calSum := {} }
    else if bit w 4 then s.setChan k { s.chan k with stored := none, storedDue := none, calResult := 1 }
    else s := by
  unfold State.calCommand
  dsimp only
  rw [hw]
  exact (if_neg (not_or.mpr ⟨hw0, hrec⟩)).trans ((if_neg (not_not.mpr hcal)).trans (if_neg (by simp [hhand])))

/-! The hand commands of the loops (R214). -/

theorem immediate_loopHand : s.immediate src n 0x1028 1 =
    if s.live.handMode ∧ s.live.cst.slotRec s.live.lpe.handSel ≠ [] then s.modLpe fun p => { p with
      slots := tmod p.slots s.live.lpe.handSel {} fun y => y.toHand (s.live.cst.slotRec s.live.lpe.handSel) p.handVal }
    else s.werr 0x1028 src .state := rfl

theorem immediate_loopHandVal : s.immediate src n 0x1024 w =
    if fFinite w then s.modLpe fun p => { p with
      handVal := w
      slots := tmod s.live.lpe.slots s.live.lpe.handSel {} fun y =>
        if y.handCmd.isSome then y.toHand (s.live.cst.slotRec s.live.lpe.handSel) w else y }
    else s.werr 0x1024 src .value := rfl

/-- The reset of a trip latch at its commit (R273). -/
theorem commitFch_tripReset {k : Nat} (hk : k < 96) : s.commitFch (0x4020 + k * 0x40) 0x10 = s.setChan k
    (Chan.noteFault (s.chan k) (if (s.chan k).tripLatch then
      ({ s.chan k with tripLatch := false, offUntil := none, tripAt := [] } : Chan).setCond 5 false else s.chan k)) := by
  have hn : (0x4020 + k * 0x40 - 0x4000) / 0x40 = k := by omega
  have hofs : (0x4020 + k * 0x40 - 0x4000) % 0x40 = 0x20 := by omega
  unfold State.commitFch
  rw [if_pos ⟨by omega, by omega⟩, hn, hofs]
  rfl

/-- FCH_CAL_CMD of a channel at its commit (R266). -/
theorem commitFch_cal {k : Nat} (hk : k < 96) : s.commitFch (0x5828 + k * 0x40) w = s.calCommand k w := by
  have hn : (0x5828 + k * 0x40 - 0x5800) / 0x40 = k := by omega
  have hofs : (0x5828 + k * 0x40 - 0x5800) % 0x40 = 0x28 := by omega
  unfold State.commitFch
  rw [if_neg (by omega), if_pos ⟨by omega, by omega⟩, hn, hofs]
  rfl

/-! Tag writes of a host (R246). -/

/-- A window register of the tag writes at its commit. -/
theorem commitLgc_tagWrite {addr : Nat} (h : 0x2060 ≤ addr) (h' : addr < 0x20A0) : s.commitLgc src role addr w =
    if addr % 8 = 0 then s.modLgc fun x => { x with
      twrId := tset x.twrId ((addr - 0x2060) / 8) (word (field w 26 0)), twrSrc := tset x.twrSrc ((addr - 0x2060) / 8) src }
    else s.modLgc fun x => { x with twrVal := tset x.twrVal ((addr - 0x2060) / 8) w } := by
  unfold State.commitLgc
  split
  iterate 6 omega
  exact if_pos ⟨h, h'⟩

end Sys2Proof.Machine

namespace Sys2Proof.Claims

open Sys2Proof Sys2Proof.Machine

theorem handAllowed_iff {s : State} : s.live.handMode = true ↔ HandAllowed s := by
  simp only [Core.handMode, HandAllowed, Bool.or_eq_true, Bool.and_eq_true, decide_eq_true_eq, ne_eq, and_assoc]

/-- Settles O51. -/
theorem controlCommandsAct : Obligations.ControlCommandsAct := by
  refine ⟨?_, ?_, ?_, ?_, ?_, ?_, ?_, ?_, ?_, ?_, ?_, ?_, ?_, ?_, ?_, ?_, ?_, ?_, ?_, ?_, ?_⟩
  · intro s src role n k v hk
    have hslot : (0x1400 + k * 0x10 - 0x1400) / 0x10 = k := by omega
    rw [applyWrite_lpe _ _ _ _ _ (by omega) (by omega)]
    unfold State.commitLpe
    rw [if_pos ⟨by omega, by omega, by omega⟩, hslot]
  · intro s src n hhand hslot
    rw [immediate_loopHand, if_pos ⟨handAllowed_iff.mpr hhand, hslot⟩]
  · intro s src n h
    rw [immediate_loopHand, if_neg fun ⟨hmode, hslot⟩ => h.elim (fun h => h (handAllowed_iff.mp hmode)) hslot]
  · intro s src n
    rfl
  · intro s src n
    rfl
  · intro y b v
    rfl
  · intro y h
    unfold Slot.latchHand
    rw [h]
  · intro s src n v hv
    exact ⟨_, (immediate_loopHandVal s src n v).trans (if_pos hv), rfl⟩
  · intro s src n v hv
    exact (immediate_loopHandVal s src n v).trans (if_neg (Bool.eq_false_iff.mp hv))
  · intro s src n h
    exact if_neg (Bool.eq_false_iff.mp h)
  · intro s src n h
    exact if_pos h
  · intro s src n
    rfl
  · intro s src role n h
    exact if_pos h
  · intro s src role n h
    exact if_neg (Bool.eq_false_iff.mp h)
  · intro s src role n cmd h
    rcases h with rfl | rfl | rfl <;> rfl
  · intro s src role cmd h
    exact if_pos h
  · intro s cmd src role h
    unfold State.takeHeld
    rw [h]
  · intro s src role cmd h
    exact if_neg (Bool.eq_false_iff.mp h)
  · intro s src role cmd c fs _ h
    unfold forceJudged at h
    unfold State.judgeForce
    dsimp only
    rw [h]
    rfl
  · intro s src role n k v hk
    have haddr : (0x2060 + 8 * k - 0x2060) / 8 = k := by omega
    rw [applyWrite_lgc _ _ _ _ _ (by omega) (by omega), commitLgc_tagWrite _ _ _ _ (by omega) (by omega), if_pos (by omega), haddr]
  · intro s src role n k v hk
    have haddr : (0x2064 + 8 * k - 0x2060) / 8 = k := by omega
    rw [applyWrite_lgc _ _ _ _ _ (by omega) (by omega), commitLgc_tagWrite _ _ _ _ (by omega) (by omega), if_neg (by omega), haddr]

/-- Settles O52. -/
theorem fieldCommandsAct : Obligations.FieldCommandsAct := by
  refine ⟨?_, ?_, ?_, ?_, ?_, ?_, ?_, ?_, ?_, ?_, ?_, ?_, ?_, ?_⟩
  · intro s src n k hk hconv
    rw [immediate_fch _ _ _ _ (by omega), immediateFch_cmd]
    exact if_pos hconv
  · intro s src n k hk hconv
    rw [immediate_fch _ _ _ _ (by omega), immediateFch_cmd]
    exact if_pos hconv
  · intro s src n k hk hhand hout
    rw [immediate_fch _ _ _ _ (by omega), immediateFch_hand, if_pos ⟨handAllowed_iff.mpr hhand, hout⟩]
  · intro s src n k hk h
    rw [immediate_fch _ _ _ _ (by omega), immediateFch_hand]
    exact if_neg fun ⟨hmode, hout⟩ => h.elim (fun h => h (handAllowed_iff.mp hmode)) fun h => Bool.noConfusion (h.symm.trans hout)
  · intro s src n k hk hhand
    rw [immediate_fch _ _ _ _ (by omega), immediateFch_cmd]
    exact if_pos hhand
  · intro s src n k hk hhand
    rw [immediate_fch _ _ _ _ (by omega), immediateFch_cmd]
    exact if_neg (Bool.eq_false_iff.mp hhand)
  · intro s src n k v hk hv
    rw [immediate_fch _ _ _ _ (by omega), immediateFch_handVal, if_pos hv]
  · intro s src n k v hk hv
    rw [immediate_fch _ _ _ _ (by omega), immediateFch_handVal, if_neg (Bool.eq_false_iff.mp hv)]
  · intro s src role n k hk htrip
    rw [applyWrite_fch _ _ _ _ _ (by omega), commitFch_tripReset _ hk, if_pos htrip]
  · intro s src role n k w hk
    rw [applyWrite_fch _ _ _ _ _ (by omega), commitFch_cal _ _ hk]
  · intro s k hrec hmode hhand
    have hopen := handAllowed_iff.mpr hhand
    refine ⟨?_, ?_, ?_, ?_, ?_⟩
    · exact calCommand_open s 1 hrec hmode hopen (by decide) (by decide)
    · intro hmz
      exact (calCommand_open s 2 hrec hmode hopen (by decide) (by decide)).trans (if_neg fun h => hmz (Option.isNone_iff_eq_none.mp h))
    · intro o ho
      rw [calCommand_open s 4 hrec hmode hopen (by decide) (by decide), ho]
      rfl
    · exact calCommand_open s 8 hrec hmode hopen (by decide) (by decide)
    · exact calCommand_open s 16 hrec hmode hopen (by decide) (by decide)
  · intro s src role n w
    rfl
  · intro s src d h
    exact if_pos h
  · intro s src d h
    exact if_neg h

end Sys2Proof.Claims
end

section
/-! PROOFS. The commands of the metering, the pair, the clocks, the CAN controllers and the system, and the machine after reset
(R317 to R561, and the Reset columns). -/

namespace Sys2Proof.Machine

open Sys2Proof

/-! Tables and runs over a range. -/

theorem tfind_tset_ne {α : Type} (t : Table α) {m n : Nat} (v : α) (h : m ≠ n) : tfind (tset t n v) m = tfind t m := by
  induction t with
  | nil => exact if_neg h.symm
  | cons e t ih =>
    obtain ⟨k, w⟩ := e
    unfold tset
    split
    · exact if_neg h.symm
    · split
      next heq =>
        subst heq
        exact (if_neg h.symm).trans (if_neg h.symm).symm
      next => exact congrArg (ite (k = m) (some w)) ih

/-- A run over a range whose steps change nothing. -/
theorem foldl_range_idle {σ : Type} (f : σ → Nat → σ) (m : Nat) (h : ∀ s n, n < m → f s n = s) (s : σ) :
    (List.range m).foldl f s = s := by
  induction m with
  | zero => rfl
  | succ m ih =>
    rw [List.range_succ, List.foldl_append, ih fun s n hn => h s n (Nat.lt_succ_of_lt hn)]
    exact h s m (Nat.lt_succ_self m)

/-- A run over a range one of whose steps acts. -/
theorem foldl_range_single {σ : Type} (f : σ → Nat → σ) {k m : Nat} (hk : k < m) (h : ∀ s n, n < m → n ≠ k → f s n = s) (s : σ) :
    (List.range m).foldl f s = f s k := by
  induction m with
  | zero => exact absurd hk (Nat.not_lt_zero k)
  | succ m ih =>
    rw [List.range_succ, List.foldl_append]
    by_cases hlast : k = m
    · subst hlast
      rw [foldl_range_idle f k fun s n hn => h s n (Nat.lt_succ_of_lt hn) (Nat.ne_of_lt hn)]
      rfl
    · rw [ih (by omega) fun s n hn => h s n (Nat.lt_succ_of_lt hn)]
      exact h _ m (Nat.lt_succ_self m) (Ne.symm hlast)

/-- The bits of a word with one bit set. -/
theorem bit_word_two_pow {k : Nat} (hk : k < 32) (n : Nat) : bit (word (2 ^ k)) n = decide (k = n) := by
  rw [bit, word, BitVec.toNat_ofNat, Nat.mod_eq_of_lt (Nat.pow_lt_pow_right (by decide) hk), Nat.testBit_two_pow]

variable (s : State) (src : Source) (role : Role) (n : Nat) (w : Word)

/-! A write reaches the block of its address. -/

theorem applyWrite_upd {addr : Nat} (h : 0x0480 ≤ addr) (h' : addr < 0x0800) :
    s.applyWrite src role n addr w = s.commitUpd src role n addr w := by
  simp (disch := omega) only [State.applyWrite, if_neg, if_pos]

theorem applyWrite_ptp {addr : Nat} (h : 0x3500 ≤ addr) (h' : addr < 0x3800) :
    s.applyWrite src role n addr w = s.commitPtp src addr w := by
  simp (disch := omega) only [State.applyWrite, if_neg, if_pos]

theorem applyWrite_can {addr : Nat} (h : 0x3800 ≤ addr) (h' : addr < 0x3C00) :
    s.applyWrite src role n addr w = s.commitCan src addr w := by
  simp (disch := omega) only [State.applyWrite, if_neg, if_pos]

theorem applyWrite_sec {addr : Nat} (h : 0x3E00 ≤ addr) (h' : addr < 0x4000) :
    s.applyWrite src role n addr w = s.commitSec src role n addr w := by
  simp (disch := omega) only [State.applyWrite, if_neg, if_pos]

/-! The registers of the clocks. -/

/-- An addend at its commit (R376): taken where the servo is off. -/
theorem commitPtp_addend {d : Nat} (hd : d < 2) : s.commitPtp src (0x3514 + 4 * d) w =
    if (s.live.ptp.slot d).servoOff then s.modPtp fun p => p.setSlot d { ((s.live.ptp.slot d).rebase s.now) with addend := w.toNat }
    else s.werr (0x3514 + 4 * d) src .value := by
  rcases Nat.lt_succ_iff_lt_or_eq.mp hd with h | rfl
  · obtain rfl : d = 0 := by omega
    rfl
  · rfl

/-- The three clocks as one capture latches them (R379). -/
def clockBanks : Table (Nat × Nat) := (List.range 3).foldl (fun b c =>
  tset b (srcCode src * 3 + c) (s.clockNs c / 1000000000, s.clockNs c % 1000000000)) s.live.ptp.banks

theorem clockBanks_find {c : Nat} (hc : c < 3) :
    tfind (clockBanks s src) (srcCode src * 3 + c) = some (s.clockNs c / 1000000000, s.clockNs c % 1000000000) := by
  change tfind (tset (tset (tset _ (srcCode src * 3 + 0) _) (srcCode src * 3 + 1) _) (srcCode src * 3 + 2) _) _ = _
  interval_cases c
  · rw [tfind_tset_ne _ _ (by omega), tfind_tset_ne _ _ (by omega), tfind_tset_same]
  · rw [tfind_tset_ne _ _ (by omega), tfind_tset_same]
  · rw [tfind_tset_same]

/-- The calendar as a capture latches it (R417). -/
def clkCaptured : ClkCapture := {
  counts := s.live.clk.counts, valid := true, ofsMin := s.live.cst.localOfs s.calSec, dst := s.live.cst.dstAt s.calSec
  wday := weekday (s.live.cst.localDay s.calSec), minute := s.live.cst.localMinute s.calSec }

theorem clkCapture_clk (h : tfind s.live.clk.capTxn (srcCode src) ≠ some n) : (s.clkCapture src n).live.clk = { s.live.clk with
    capTxn := tset s.live.clk.capTxn (srcCode src) n
    capYml := if src = .yml then clkCaptured s else s.live.clk.capYml
    capDbg := if src = .dbg then clkCaptured s else s.live.clk.capDbg
    capYra := if src = .yml ∨ src = .dbg then s.live.clk.capYra else clkCaptured s } := by
  unfold State.clkCapture
  dsimp only
  rw [if_neg h]
  cases src <;> rfl

/-- CLK_LOAD_CTRL at its commit (R418): ARM, and STEP. -/
theorem applyWrite_clkLoad : s.applyWrite src role n 0x3C4C w = s.clkLoad src w := rfl

theorem clkLoad_arm (hsub : s.live.clk.loadSub.toNat ≤ 32767) : s.clkLoad src 1 =
    s.modClk fun c => { c with armed := some c.loadSec, armedAt := c.counts } := by
  unfold State.clkLoad
  rw [if_neg (Nat.not_lt.mpr hsub), if_neg (by decide), if_pos (by decide)]

theorem clkLoad_step (hsub : s.live.clk.loadSub.toNat ≤ 32767) : s.clkLoad src 2 =
    (s.modClk fun c => { c with armed := none }).loadCalendar (s.live.clk.loadSec * 32768 + s.live.clk.loadSub.toNat) := by
  unfold State.clkLoad
  rw [if_neg (Nat.not_lt.mpr hsub), if_pos (by decide)]

/-- CLK_ALM_CMD with one bit arms or disarms one alarm (R430). -/
theorem almCmd_arm {k : Nat} (hk : k < 16) : s.almCmd (word (2 ^ k)) = s.armAlarm k := by
  refine (foldl_range_single _ hk ?_ s).trans ?_
  · intro t m hm hne
    rw [bit_word_two_pow (by omega), bit_word_two_pow (by omega), if_neg (by simpa using hne.symm),
      if_neg (by simpa using (by omega : k ≠ 16 + m))]
  · rw [bit_word_two_pow (by omega), if_pos (by simp)]

theorem almCmd_disarm {k : Nat} (hk : k < 16) : s.almCmd (word (2 ^ (16 + k))) = s.disarmAlarm k := by
  refine (foldl_range_single _ hk ?_ s).trans ?_
  · intro t m hm hne
    rw [bit_word_two_pow (by omega), bit_word_two_pow (by omega), if_neg (by simpa using (by omega : 16 + k ≠ m)),
      if_neg (by simpa using hne.symm)]
  · rw [bit_word_two_pow (by omega), bit_word_two_pow (by omega), if_neg (by simp), if_pos (by simp)]

/-! Other registers. -/

/-- CAN_CMD of a controller at its commit (R407, R409). -/
theorem commitCan_cmd {c : Nat} (hc : c < 4) : s.commitCan src (0x3828 + c * 0x20) w =
    if bit w 0 then s.canSleep c else if bit w 1 then s.canWakeUp c 3 else s := by
  have hn : (0x3828 + c * 0x20 - 0x3810) / 0x20 = c := by omega
  have hofs : (0x3828 + c * 0x20 - 0x3810) % 0x20 = 0x18 := by omega
  unfold State.commitCan
  dsimp only
  rw [if_pos ⟨by omega, by omega⟩, hn, hofs]
  rfl

/-- CAN_MB_CMD at its commit for a mailbox of the casting (R404). -/
theorem commitCan_mbCmd (h : (s.live.cst.canMb s.live.can.mbCtrl s.live.can.mbNo).isSome = true) : s.commitCan src 0x3988 w =
    if bit w 0 then s.canRequest s.live.can.mbCtrl s.live.can.mbNo
    else if bit w 1 then s.canCancel src s.live.can.mbCtrl s.live.can.mbNo else s :=
  if_neg (by simpa using Option.isSome_iff_ne_none.mp h)

/-- The command window of the enclave at its commit (R447). -/
theorem commitSec_window {i : Nat} (hi : i < 64) : s.commitSec src role n (0x3F00 + 4 * i) w =
    s.modSec fun x => { x with cmdWin := tset x.cmdWin i w } := by
  have hword : (0x3F00 + 4 * i - 0x3F00) / 4 = i := by omega
  unfold State.commitSec
  split
  iterate 5 omega
  rw [if_neg (by omega), if_pos ⟨by omega, by omega⟩, hword]

/-- The command of the debug port, bit by bit (R456). -/
theorem dbgCommand_challenge : s.dbgCommand src 1 = if src = .dbg ∧ (!s.live.sec.lockout) = true then
    (s.random 128).2.modSec fun x => { x with challenge := some (leBytes 16 (s.random 128).1, s.now) } else s := by
  by_cases hsrc : src = .dbg ∧ (!s.live.sec.lockout) = true
  · rw [if_pos hsrc]
    exact if_pos ⟨rfl, hsrc⟩
  · rw [if_neg hsrc]
    exact if_neg fun h => hsrc h.2

theorem dbgCommand_close : s.dbgCommand src 2 = if s.live.sec.debug = 1 then s.modSec fun x => { x with debug := 0 } else s := by
  by_cases hdebug : s.live.sec.debug = 1
  · rw [if_pos hdebug]
    exact if_pos ⟨rfl, hdebug⟩
  · rw [if_neg hdebug]
    exact if_neg fun h => hdebug h.2

theorem dbgCommand_open : s.dbgCommand .dbg 4 = if s.live.sec.lifecycle = .manufacture then s.modSec fun x => { x with openNext := true }
    else s.werr 0x3E40 .dbg .value := rfl

/-- The mode command at its commit (R494). -/
theorem commitPwr_mode : s.commitPwr src 0x204 w = if s.live.modeCmdOk s.holdsClaim (field w 2 0) then
    s.modPwr fun p => { p with modeCmd := some (field w 2 0, src) } else s.werr 0x204 src .value := rfl

theorem field_modeWord {m : Nat} (h : m = 1 ∨ m = 2 ∨ m = 3 ∨ m = 4) : field (word m) 2 0 = m := by
  rcases h with rfl | rfl | rfl | rfl <;> rfl

/-- The window of an update bank at its commit (R507). -/
theorem commitUpd_window {i : Nat} (hi : i < 128) : s.commitUpd src role n (0x0600 + 4 * i) w =
    s.modUpd fun u => u.setBank src fun b => { b with win := tset b.win i w } := by
  have hword : (0x0600 + 4 * i - 0x0600) / 4 = i := by omega
  unfold State.commitUpd
  rw [if_neg (by omega), if_neg (by omega), if_pos ⟨by omega, by omega⟩, hword]

/-- The fields of a clear command (R323). -/
theorem field_clearWord (target unit c : Nat) : field (clearWord target unit c) 1 0 = target % 4 ∧ field (clearWord target unit c) 7 2 = unit % 64 := by
  have hword : (clearWord target unit c).toNat = target % 4 + unit % 64 * 4 + c % 65536 * 65536 := by
    rw [clearWord, pack, BitVec.toNat_ofNat, List.foldl_cons, List.foldl_cons, List.foldl_cons, List.foldl_nil]
    dsimp only
    omega
  simp only [field, hword, Nat.shiftRight_eq_div_pow]
  omega

end Sys2Proof.Machine

namespace Sys2Proof.Claims

open Sys2Proof Sys2Proof.Machine

/-- NRG_CLEAR at its commit (R323). -/
theorem applyWrite_nrgClear (s : State) (src : Source) (role : Role) (n : Nat) (w : Word) :
    s.applyWrite src role n 0x2814 w = s.clearAccs (field w 1 0) (field w 7 2) := rfl

/-- A clear command at its commit. -/
theorem applyWrite_clear (s : State) (src : Source) (role : Role) (n target unit c : Nat) (ht : target < 4) (hu : unit < 64) :
    s.applyWrite src role n 0x2814 (clearWord target unit c) = s.clearAccs target unit := by
  obtain ⟨htarget, hunit⟩ := field_clearWord target unit c
  rw [applyWrite_nrgClear, htarget, hunit, Nat.mod_eq_of_lt ht, Nat.mod_eq_of_lt hu]

/-- Settles O53. -/
theorem networkAndTimeCommandsAct : Obligations.NetworkAndTimeCommandsAct := by
  refine ⟨?_, ?_, ?_, ?_, ?_, ?_, ?_, ?_, ?_, ?_, ?_, ?_, ?_, ?_, ?_, ?_, ?_, ?_, ?_, ?_, ?_, ?_⟩
  · intro s src role n g c hg
    exact applyWrite_clear _ _ _ _ _ _ _ (by omega) (by omega)
  · intro s src role n m c hm
    exact applyWrite_clear _ _ _ _ _ _ _ (by omega) hm
  · intro s src role n c
    exact applyWrite_clear _ _ _ _ _ _ _ (by omega) (by omega)
  · intro s src role n
    rfl
  · intro s src role n
    rfl
  · intro s src role n
    rfl
  · intro s src role n
    rfl
  · intro s src role n d v hd hoff
    rw [applyWrite_ptp _ _ _ _ _ (by omega) (by omega), commitPtp_addend _ _ _ hd, if_pos hoff]
  · intro s src role n a b
    obtain ⟨h0, h1, h2⟩ := bit_ptpCtrl a b false
    change s.commitPtp src 0x3524 (ptpCtrl a b false) = _
    rw [commitPtp_ctrl, h0, h1, h2]
    rfl
  · intro s src role n d hd
    interval_cases d <;> rfl
  · intro s src role n d hd
    interval_cases d <;> rfl
  · intro s src n hnew
    exact ⟨clockBanks s src, if_neg hnew, fun c hc => clockBanks_find s src hc⟩
  · intro s src n hagain
    exact if_pos hagain
  · intro s src role n hsub
    rw [applyWrite_clkLoad, clkLoad_arm _ _ hsub]
  · intro s src role n hsub
    rw [applyWrite_clkLoad, clkLoad_step _ _ hsub]
  · intro s src n hnew
    exact ⟨clkCaptured s, rfl, rfl, clkCapture_clk s src n hnew⟩
  · intro s src role n k hk
    exact almCmd_arm s hk
  · intro s src role n k hk
    exact almCmd_disarm s hk
  · intro s src role n w
    rfl
  · intro s src role n hmb
    exact ⟨commitCan_mbCmd s src 1 hmb, commitCan_mbCmd s src 2 hmb⟩
  · intro s src role n
    rfl
  · intro s src role n c hc
    rw [applyWrite_can _ _ _ _ _ (by omega) (by omega), applyWrite_can _ _ _ _ _ (by omega) (by omega)]
    exact ⟨commitCan_cmd s src 1 hc, commitCan_cmd s src 2 hc⟩

/-- Settles O54. -/
theorem systemCommandsAct : Obligations.SystemCommandsAct := by
  refine ⟨?_, ?_, ?_, ?_, ?_, ?_, ?_, ?_, ?_, ?_, ?_, ?_, ?_, ?_, ?_⟩
  · intro s src role n hfree
    change s.startCommand src role n = _
    exact if_neg (Option.isSome_iff_ne_none.not.mpr (not_not.mpr hfree))
  · intro s src role n hbusy
    change s.startCommand src role n = _
    exact if_pos (Option.isSome_iff_ne_none.mpr hbusy)
  · intro s src role n i v hi
    rw [applyWrite_sec _ _ _ _ _ (by omega) (by omega), commitSec_window _ _ _ _ _ hi]
  · intro s role n hopen
    exact (dbgCommand_challenge s .dbg).trans (if_pos ⟨rfl, by simp [hopen]⟩)
  · intro s src role n hdebug
    exact (dbgCommand_close s src).trans (if_pos hdebug)
  · intro s role n hlife
    exact (dbgCommand_open s).trans (if_pos hlife)
  · intro s role n hlife
    exact (dbgCommand_open s).trans (if_neg hlife)
  · intro s src role n
    rfl
  · intro s src role n m hm hok
    refine (commitPwr_mode s src (word m)).trans ?_
    rw [field_modeWord hm, if_pos hok]
  · intro s src role n m hm hbad
    refine (commitPwr_mode s src (word m)).trans ?_
    rw [field_modeWord hm, if_neg (Bool.eq_false_iff.mp hbad)]
  · intro s src role n c
    cases c <;> rfl
  · intro s src role n v
    rfl
  · intro s src role n i v hi
    rw [applyWrite_upd _ _ _ _ _ (by omega) (by omega), commitUpd_window _ _ _ _ _ hi]
  · intro s src role n
    exact ⟨rfl, rfl, rfl, rfl, rfl, rfl, rfl, rfl⟩
  · intro s src role n
    rfl

/-- Settles O60. -/
theorem whatResetLeaves : Obligations.WhatResetLeaves := by
  refine ⟨rfl, rfl, rfl, rfl, rfl, rfl, rfl, rfl, rfl, rfl, rfl, rfl, rfl, rfl, rfl, rfl, rfl, ?_, rfl, rfl, ?_, ?_, ?_, ?_, ?_, ?_⟩
  · intro d hd
    interval_cases d <;> rfl
  · intro l _
    rfl
  · intro n
    rfl
  · intro d
    rfl
  · rfl
  · rfl
  · rfl

end Sys2Proof.Claims
end
